-- ==== Sys2Proof/Word.lean ====
section
/-! DEFINITION. The word types of the block: bytes, packet words, FP32 bit patterns, the numbered units. -/

namespace Sys2Proof

/-- One byte. -/
abbrev Byte := BitVec 8

/-- A run of bytes, lowest address first. -/
abbrev Bytes := List Byte

/-- A 32-bit word of a register, a packet or a record. -/
abbrev Word := BitVec 32

/-- The bit pattern of an FP32 value (R196). -/
abbrev F32 := BitVec 32

/-- A finite map by number: sorted by key, at most one entry a key. -/
abbrev Store (α : Type) := List (Nat × α)

/-- A function of the PCIe port: 0 is the physical function, 1–63 the virtual functions (R413). -/
abbrev FnId := Fin 64

/-- A lane, named by the handle of its graph (R269, R282). -/
abbrev LaneId := Fin 64

/-- A fabric port F0–F15 (R472). -/
abbrev PortId := Fin 16

/-- The 21-bit array number of R17: quarter 20..19, site 18..3, tier 2..0. -/
abbrev ArrayNo := Fin 2097152

/-- A converter site, numbered quarter × 65,536 + site (R18, R30). -/
abbrev SiteNo := Fin 262144

/-- A Quartz unit, numbered quarter × 4,096 + unit (R30). -/
abbrev UnitNo := Fin 16384

/-- The site an array stands on. -/
def siteOfArray (a : ArrayNo) : SiteNo := ⟨a.val / 8, by omega⟩

/-- The tier of an array. -/
def tierOfArray (a : ArrayNo) : Nat := a.val % 8

/-- The quarter of an array. -/
def quarterOfArray (a : ArrayNo) : Nat := a.val / 524288

/-- The Quartz unit serving a site: unit u of a quarter serves sites 16u to 16u + 15 (R30). -/
def unitOfSite (n : SiteNo) : UnitNo := ⟨n.val / 16, by omega⟩

/-- The quarter of a site. -/
def quarterOfSite (n : SiteNo) : Nat := n.val / 65536

end Sys2Proof
end

