-- ==== Sys2Proof/Syntax.lean ====
section
/-! DEFINITION. The commands of the block, one constructor per row of the opcode table, and their operands.
An operand is what comes from outside the block: a packet's bytes, a register write, a pin, what a DMA read of
host memory returned, what silicon measured, and what Ezjor decided (R22). -/

namespace Sys2Proof

/-- A reply ring or a function's event queue: what an index line of R433 belongs to. -/
inductive RingName where
  | reply (ring : Fin 4096)
  | event (fn : FnId)
  deriving DecidableEq, Repr

/-- What the engine's DMA reads of host memory returned while it carried a packet out. `first` is the object the
packet names (manifest, graph image, input, probe pack, bundle), `second` a chain's token input (R464). -/
structure Fetched where
  first  : Bytes := []
  second : Bytes := []
  /-- false: a read ended in a PCI Express completion error or its source could not be read (R348, R469). -/
  readable : Bool := true
  deriving DecidableEq, Repr

/-- One command packet (R446, R447) as the Kiosk firmware reads it. The row of the table supplies the opcode
field; every other byte is the chain's. -/
structure Pkt where
  /-- Submission queue that carried it. -/
  queue : Fin 65536 := 0
  /-- The chain: 128 bytes per unit. -/
  chain : Bytes
  data  : Fetched := {}
  deriving DecidableEq, Repr

/-- A management message (R523, R524): the SPDM session with the Lodge it travelled in, and its body. -/
structure Mgmt where
  /-- The SPDM session with the Lodge, none outside any session. -/
  spdm : Option Nat
  /-- Flags byte of R524. -/
  flags : Byte := 0
  sequence : BitVec 16 := 0
  payload : Bytes := []
  deriving DecidableEq, Repr

/-- Core kinds of R233. -/
inductive CoreKind where
  | garnet | opal | jet
  deriving DecidableEq, Repr

/-- A core's kind and its number within the quarter (R18, R233). -/
inductive CoreNo where
  | garnet (n : Fin 96)
  | opal (n : Fin 384)
  | jet (n : Fin 32)
  deriving DecidableEq, Repr

def CoreNo.kind : CoreNo → CoreKind
  | .garnet _ => .garnet
  | .opal _ => .opal
  | .jet _ => .jet

def CoreNo.number : CoreNo → Nat
  | .garnet n => n.val
  | .opal n => n.val
  | .jet n => n.val

/-- 64-byte lines of a core's tile memory: 384, 256 and 128 KiB (R18, R233). -/
def CoreNo.lines : CoreNo → Nat
  | .garnet _ => 6144
  | .opal _ => 4096
  | .jet _ => 2048

/-- A core: quarter, kind and number within the quarter (R233). -/
structure CoreId where
  quarter : Fin 4
  core : CoreNo
  deriving DecidableEq, Repr

/-- Object kinds of R340, numbered as R372. -/
inductive ObjKind where
  | model | shard | adapter | store
  deriving DecidableEq, Repr

/-- Input modes of R32. -/
inductive InputMode where
  | signed | unsigned | offset
  deriving DecidableEq, Repr

/-- One input vector of a layer for one sequence, arriving at the Quartz units (R159, R160). -/
structure LayerInput where
  lane : LaneId
  node : Nat
  /-- Request handle of the sequence. -/
  seq : Nat
  /-- Token of the prefill chunk, from 0. -/
  token : Nat := 0
  /-- The layer's whole input, FP32, in channel order. -/
  values : List F32
  deriving DecidableEq, Repr

/-- Identifies one layer step of one sequence. -/
structure LayerKey where
  lane : LaneId
  node : Nat
  seq : Nat
  token : Nat := 0
  deriving DecidableEq, Repr

/-- One query of one head of an ATTENTION node in a step: that of token `index` of the request's tokens of the step, from 0. A cached
node reads its keys from the request's pages, divided into spans (R312); a packed node from the second input (R303). -/
structure AttnQuery where
  node : Nat
  head : Nat
  index : Nat := 0
  /-- The query as the node's input gives it, FP32, before the rotation of R308. -/
  q : List F32
  spans : Nat := 1
  deriving DecidableEq, Repr

/-- New keys and values of one head group of one ATTENTION node, token after token of the step (R303, R311), FP32, before the rotation of
R308. -/
structure NewKv where
  node : Nat
  group : Nat
  k : List F32
  v : List F32
  deriving DecidableEq, Repr

/-- What a step delivered for one request: the sampled token, or the result bytes (R401, R402). -/
structure StepOut where
  seq : Nat
  token : BitVec 32 := 0
  result : Bytes := []
  kv : List NewKv := []
  attention : List AttnQuery := []
  /-- ATTENTION nodes for which a page of the request failed its check once, was read again and its span computed anew (R317). -/
  rereads : List Nat := []
  /-- Tensors that carry edges take to the request's next step: number and elements (R279). -/
  carried : List (Nat × List F32) := []
  deriving DecidableEq, Repr

/-- A HBM location: quarter, stack, pseudo-channel, memory-tier address and row. -/
structure HbmLoc where
  quarter : Fin 4
  stack : Fin 4
  pseudo : Fin 256
  address : BitVec 64
  row : Nat
  /-- Spare rows the bank still has, and spare lanes of the pseudo-channel, as the stack reports them. -/
  spareRows : Nat := 0
  spareLanes : Nat := 0
  deriving DecidableEq, Repr

/-- What an on-chip SRAM line held (R505). -/
inductive LineHeld where
  | derivedWeights | stepData | planPart | masterPlan | unused | other
  deriving DecidableEq, Repr

/-- An on-chip SRAM bank: a Pavilion bank, a core's tile-memory bank, or a Gatehouse SRAM bank (R233, R235, R504–R506). -/
inductive SramBank where
  | pavilion (quarter : Fin 4) (bank : Fin 256)
  | garnetTile (quarter : Fin 4) (number : Fin 96) (bank : Fin 12)
  | opalTile (quarter : Fin 4) (number : Fin 384) (bank : Fin 8)
  | jetTile (quarter : Fin 4) (number : Fin 32) (bank : Fin 4)
  | gatehouse (bank : Fin 66)
  deriving DecidableEq, Repr

/-- A parity error at a line of on-chip SRAM. -/
structure SramErr where
  bank : SramBank
  line : BitVec 32
  /-- The second read was clean (R504). -/
  transient : Bool
  held : LineHeld
  /-- Lanes whose step read the line. -/
  lanes : List LaneId := []
  deriving DecidableEq, Repr

/-- What the scrubber found at a location (R509). -/
inductive ScrubFinding where
  | clean
  | hbmCorrected (loc : HbmLoc) (symbol : Fin 68)
  | hbmUncorrected (loc : HbmLoc) (transient : Bool)
  | sram (e : SramErr)
  deriving DecidableEq, Repr

/-- Scrub targets, in the order of R525. -/
inductive ScrubTarget where
  | pavilionTile | gatehouse | hbm | arrays
  deriving DecidableEq, Repr

/-- What a site diagnosis converted (R108). A conversion that is not listed gave exactly the code an ideal path gives. -/
structure DiagReadings where
  /-- Zero test: gain code, pair, sum of the codes of its 64 sweeps. -/
  zero : List (Fin 4 × Nat × Int) := []
  /-- Ramp test: pair, DAC code, code. -/
  ramp : List (Nat × Int × Int) := []
  /-- Column test: pair, whether the negative column, code. -/
  column : List (Nat × Bool × Int) := []
  /-- Swap test: the ramp and column conversions again, with the spare standing in. -/
  swapRamp : List (Nat × Int × Int) := []
  swapColumn : List (Nat × Bool × Int) := []
  /-- Array test: tier, 64-row block driven, reference pair, code. -/
  arrays : List (Fin 8 × Fin 8 × Nat × Int) := []
  deriving DecidableEq, Repr

/-- A measurement of one cell: pair, row, which of the two cells, and its level in 1/1,000 level. -/
structure CellReading where
  pair : Nat
  row : Nat
  positive : Bool
  level : Int
  deriving DecidableEq, Repr

/-- What training made of a repair adapter, and for which layer (R154, R156, R174). -/
structure TrainedAdapter where
  node : Nat
  /-- The array set it serves: 0 the layer's own, or a replica's number (R154, R283). -/
  replica : Nat := 0
  /-- By rank: the factor over the layer's inputs, and the factor over its outputs. -/
  inputs : List (List F32)
  outputs : List (List F32)
  /-- Residual in 0.001 % of full scale. -/
  residual : Nat
  /-- Gradient norm of each iteration, and that of its recomputation where there was one. -/
  norms : List (F32 × Option F32) := []
  deriving DecidableEq, Repr

/-- Arrays that hold a layer once: (array number, row block, column block), the high and the low ones of an 8-bit layer alike; and
the low array of each high one (R55, R56). -/
structure ArraySet where
  arrays : List (ArrayNo × Nat × Nat) := []
  lowArrays : List (ArrayNo × ArrayNo) := []
  deriving DecidableEq, Repr

/-- Correction settings of a layer (R158) and its array settings (R289), one layer of a lane's plan. -/
structure LayerPlan where
  node : Nat
  mode : InputMode := .signed
  /-- Row phases k: 1, 2, 4 or 8. -/
  phases : Nat := 4
  /-- Gain code 0–3 for ×1, ×2, ×4, ×8. -/
  gain : Fin 4 := 0
  /-- true: SUM, false: SEPARATE (R39). -/
  sum : Bool := true
  perVector : Bool := false
  inputScale : F32 := 0
  threshold : Nat := 127
  /-- θ in units of 0.5. -/
  theta : Nat := 32
  slots : Nat := 16
  /-- F in units of 0.125; 0 is off. -/
  jump : Nat := 32
  /-- Persistent outlier channels: (row block, row). -/
  persistent : List (Nat × Nat) := []
  /-- Arrays, the high and the low ones of an 8-bit layer alike: (array number, row block, column block). -/
  arrays : List (ArrayNo × Nat × Nat) := []
  /-- Low array of each high array of an 8-bit layer (R55, R56). -/
  lowArrays : List (ArrayNo × ArrayNo) := []
  recordedMean : F32 := 0
  /-- Outputs of the layer, 0 for every data pair of its arrays. -/
  outputs : Nat := 0
  /-- Format code of the layer output. -/
  outFormat : BitVec 8 := 1
  /-- Further array sets that hold the whole layer (R283). -/
  replicas : List ArraySet := []
  /-- Read rate reserved for the wide path, in MB/s, and the wide time D that follows, in 0.1 ps (R179). -/
  wideRate : Nat := 0
  wideTime : Nat := 0
  /-- Read rate reserved for the layer's outlier rows and repair adapter in scratch, in MB/s (R267). -/
  scratchRate : Nat := 0
  /-- Its persistent outlier rows stand in Pavilion memory (R163, R266). -/
  rowsInPavilion : Bool := false
  /-- Retrieval: entries kept by the local top-k lists, 0 for none (R231). -/
  topK : Nat := 0
  /-- They are a bottom-k (R229). -/
  bottomK : Bool := false
  deriving DecidableEq, Repr

/-- Times a plan states for one lane at one level (R286, R290). -/
structure StatedTimes where
  mainNominal : Nat := 0
  mainWorst : Nat := 0
  prefillNominal : Nat := 0
  prefillWorst : Nat := 0
  deriving DecidableEq, Repr

/-- A window that a lane's plan opens at a core (R255, R256): the node it serves, direction 0 write, 1 read, 2 both. -/
structure PlanWindow where
  owner : CoreId
  slot : Fin 8
  node : Nat := 0
  direction : Fin 3 := 0
  vc2 : Bool := false
  base : Nat
  lines : Nat
  /-- Tag of its first opening in a plan epoch, and what each further opening adds to it (R256). -/
  tag : BitVec 16
  stride : BitVec 16 := 1
  /-- The UIDs of the readers declared for it (R257). -/
  readers : List Word := []
  /-- The slot of the other buffer of a streamed operand (R246). -/
  other : Option (Fin 8) := none
  /-- One entry for each opening within a step: time from the opening to its planned close at the planning corner, in ns (R261). -/
  spans : List Nat := [0]
  /-- Time the core computes from what one opening brought, in ns (R246). -/
  compute : Nat := 0
  deriving DecidableEq, Repr

/-- A link of the on-chip network: a router and its port (R236, R240). -/
structure MeshLink where
  quarter : Fin 4
  router : Fin 128
  port : Fin 8
  deriving DecidableEq, Repr

/-- A VC0 slot that a plan reserves: one of 256 successive flit slots of a link (R242, R243). -/
structure SlotUse where
  link : MeshLink
  slot : Fin 256
  deriving DecidableEq, Repr

/-- Planned time of a node in one step kind, in 0.1 ps: of a digital node what it computes, of an array layer what its drains and
transfers add to R165 and R180 (R286, R287); and the memory-tier reads it waits for: bytes, the rate in MB/s the plan reserves, and the
flows they are split into (R296). -/
structure NodeTime where
  nominal : Nat := 0
  worst : Nat := 0
  bytes : Nat := 0
  rate : Nat := 0
  flows : Nat := 1
  deriving DecidableEq, Repr

/-- Where a plan runs a node (R289): quarters, cores, and its planned times. The nodes stand in the order of the step. -/
structure NodePlan where
  node : Nat
  quarters : BitVec 4 := 1
  cores : List CoreId := []
  main : NodeTime := {}
  prefill : NodeTime := {}
  deriving DecidableEq, Repr

/-- Where an item of the scratch map stands (R266, R267). -/
inductive ScratchPlace where
  | pavilion (quarter : Fin 4)
  | memoryTier
  | outerTier
  deriving DecidableEq, Repr

/-- An item of the scratch map (R266): its place in the order, the quarter whose cores read it, bytes, and the read rate the plan
reserves for it in MB/s. -/
structure ScratchItem where
  order : Fin 7
  quarter : Fin 4
  bytes : Nat
  rate : Nat := 0
  /-- Layer of an item of order 1 or 3; of another item the node whose step time holds the reading of it. -/
  layer : Nat := 0
  place : ScratchPlace := .memoryTier
  deriving DecidableEq, Repr

/-- What Ezjor decided for one lane (R283, R289). -/
structure LanePlan where
  graph : LaneId
  /-- Stated times at full level and the five derated levels 85, 70, 55, 40, 25 % (R296), as R286 builds them. -/
  times : List StatedTimes := []
  chunk : Nat := 0
  /-- Quarters used, bit q for Qq. -/
  quarters : BitVec 4 := 0
  nodes : List NodePlan := []
  layers : List LayerPlan := []
  /-- Whether calibration gaps of R128 fall inside a main step and inside a prefill step. -/
  gapInMain : Bool := false
  gapInPrefill : Bool := false
  /-- Host-link read rate reserved for outer-tier reads, in MB/s (R410). -/
  hostReadRate : Nat := 0
  windows : List PlanWindow := []
  /-- Read rate the plan reserves for each adapter its ADAPTER nodes read, in MB/s (R369). -/
  adapterRate : Nat := 0
  /-- What the lane keeps in scratch besides outlier rows and adapters (R266). -/
  items : List ScratchItem := []
  /-- VC0 slots reserved for its transfers (R243), and the access-pattern descriptors its nodes issue (R289). -/
  vc0 : List SlotUse := []
  descriptors : List (Nat × Bytes) := []
  deriving DecidableEq, Repr

/-- An array programming the build calls for: the array, its owner, the owner's generation. -/
structure Programming where
  array : ArrayNo
  owner : ObjKind
  handle : Nat
  generation : BitVec 16
  deriving DecidableEq, Repr

/-- The outcome of Ezjor's search for one waiting submission. -/
structure Placement where
  /-- A plan meets the graph's pins and limits beside the installed lanes (R269). -/
  found : Bool
  plan : LanePlan
  deriving DecidableEq, Repr

/-- A finished build (R270): placements of the waiting submissions in arrival order, the plans of the lanes already
installed, and the arrays to program. -/
structure BuildResult where
  placements : List Placement := []
  lanes : List LanePlan := []
  programs : List Programming := []
  deriving DecidableEq, Repr

/-- Causes of a build (R301). -/
inductive BuildCause where
  | graphs | objects | arrays | quarter | stack | checkFraction | adapterSpace | hostLink | hbmRegion | bank | pair | planDigest
  deriving DecidableEq, Repr

/-- What the partner reports while a pair is formed (R485, R559). -/
structure PartnerInfo where
  /-- SHA-256 of the identity public key it proved. -/
  identity : BitVec 256
  compat : BitVec 16
  major : BitVec 16
  isD : Bool
  /-- It began its own configuration within 60 s and completed step 5. -/
  configured : Bool
  /-- Digests of the graph images of its lanes that name the same generations of the same objects (R488). -/
  lanes : List (BitVec 256) := []
  deriving DecidableEq, Repr

/-- A mirror message from the partner (R490). -/
inductive MirrorMsg where
  /-- What a step did for one request: positions appended, the token or result if it delivered one, new keys and values,
  carried tensors, budget tokens charged. -/
  | step (handle : BitVec 32) (count : Nat) (token : Option (BitVec 32)) (result : Bytes) (kv : List NewKv)
      (carried : List (Nat × List F32)) (charge : Nat)
  /-- A request admitted or deferred at the partner, with the packet that opened it and what it read. -/
  | opened (handle : BitVec 32) (p : Pkt) (deferred : Bool)
  /-- The next stage of a chain admitted or deferred at the partner, under a handle of its own (R390, R392). -/
  | chained (before handle : BitVec 32) (deferred : Bool)
  | preempted (handle : BitVec 32)
  | ended (handle : BitVec 32)
  /-- Bucket level of an account's class at the partner. -/
  | level (account : Fin 4096) (cls : Fin 3) (level : Int)
  /-- The partner's lanes as they now are (R488). -/
  | lanes (digests : List (BitVec 256))
  /-- The partner enters or leaves Dormant (R569). -/
  | dormant (now : Bool)
  deriving DecidableEq, Repr

/-- A voltage at a supply input in mV, and for how long in µs it has stood there. -/
structure Supply where
  millivolts : Nat
  micros : Nat
  deriving DecidableEq, Repr

/-- A reading of a diode or thermistor channel: open, short, or a temperature in 0.125 °C (R571, R572). -/
inductive Reading where
  | open
  | short
  | temp (t : Int)
  deriving DecidableEq, Repr

/-- What a memory port read for a remote write (R250): the access-pattern descriptor it executed, the object whose golden copy holds the
source (none: the source bytes come with the access), its byte offset there, and the line at which what it delivers begins. -/
structure PortRead where
  descriptor : Bytes
  golden : Option (ObjKind × Nat) := none
  offset : Nat := 0
  first : Nat
  deriving DecidableEq, Repr

/-- A completion mark for a window, and the reader that sent it (R257). -/
structure WindowMark where
  slot : Fin 8
  reader : Word
  deriving DecidableEq, Repr

/-- A shard of one generation of an object (R344). -/
structure ShardRef where
  generation : Nat
  index : Nat
  deriving DecidableEq, Repr

/-- A remote access over the Pergola (R255–R260): a 64-byte line. -/
structure Remote where
  owner : CoreId
  source : Word
  /-- Line number within the owner's tile memory. -/
  line : Nat
  tag : BitVec 16
  /-- Access carried by VC2. -/
  vc2 : Bool := false
  data : Bytes := []
  /-- A memory port writes the line. -/
  port : Option PortRead := none
  deriving DecidableEq, Repr

/-- What the preserved region holds in two copies (R356): the staged bundle, that of the running firmware, the manifest of a generation. -/
inductive PreservedItem where
  | staged
  | bundle
  | manifest (kind : ObjKind) (handle : Fin 16384) (generation : Nat)
  deriving DecidableEq, Repr

/-- What a chip reset finds as it ends: whether the installed plan passes its digest (R512); copies in the preserved region that now read otherwise, each
with what it reads (R356, R544); what the host memory of a manifest gives where neither copy passes (R356). -/
structure ResetFindings where
  planDigestOk : Bool := true
  damage : List (PreservedItem × Fin 2 × Bytes) := []
  manifests : List (ObjKind × Fin 16384 × Nat × Bytes) := []
  deriving DecidableEq, Repr


/-- The commands: packets, management messages, register writes, link and pin events, and the engine's own
time-driven and data-driven events. One constructor per row of spec/opcode_table.json. -/
inductive Instr where
  -- session and administration packets (R459)
  | sessionOpen (p : Pkt)
  | sessionClose (p : Pkt)
  | sessionKeyUpdate (p : Pkt)
  | timeMark (p : Pkt)
  | queueCreate (p : Pkt)
  | queueDelete (p : Pkt)
  | queueReset (p : Pkt)
  | ringCreate (p : Pkt)
  | ringDestroy (p : Pkt)
  -- models, shards and adapters (R460)
  | modelLoad (p : Pkt)
  | modelReplace (p : Pkt) (arraysFit : Bool)
  | modelRetire (p : Pkt)
  | modelStatusRead (p : Pkt)
  | adapterLoad (p : Pkt)
  | adapterReplace (p : Pkt)
  | adapterRetire (p : Pkt)
  | publisherKeyRegister (p : Pkt)
  | rehashPeriodSet (p : Pkt)
  -- graphs and plans (R462)
  | graphSubmit (p : Pkt)
  | graphRetire (p : Pkt)
  | planRead (p : Pkt)
  -- serving and accounts (R463)
  | requestOpen (p : Pkt)
  | requestCancel (p : Pkt)
  | accountSet (p : Pkt)
  | accountClose (p : Pkt)
  | accountRead (p : Pkt)
  -- memory, windows and transfers (R466)
  | kvPoolSet (p : Pkt)
  | kvSwapRegister (p : Pkt)
  | kvMapRead (p : Pkt)
  | coreStatsRead (p : Pkt)
  | memRead (p : Pkt)
  -- calibration, checking and probes (R467)
  | arrayStatusRead (p : Pkt)
  | calTableRead (p : Pkt)
  | arrayCalRun (p : Pkt)
  | siteSeqRead (p : Pkt)
  | siteSeqWrite (p : Pkt)
  | siteDiagRun (p : Pkt)
  | quartzStatsRead (p : Pkt)
  | checkFractionSet (p : Pkt)
  | probeInstall (p : Pkt)
  | probeRemove (p : Pkt)
  -- power and thermal (R468)
  | thermalRead (p : Pkt)
  | thermalSet (p : Pkt)
  | powerStateSetDormant (p : Pkt)
  | powerStateSetActive (p : Pkt)
  -- reset and firmware (R469)
  | chipReset (p : Pkt)
  | firmwareLoad (p : Pkt)
  -- fabric and pairing (R470)
  | portModeSet (p : Pkt)
  | pairConfigurePair (p : Pkt) (partner : PartnerInfo)
  | pairConfigureUnpair (p : Pkt)
  | weightServerRegister (p : Pkt)
  | kvPeerRegister (p : Pkt)
  | fabricStatusRead (p : Pkt)
  | unknownOpcode (p : Pkt)
  -- management messages (R525)
  | scrubPeriodSet (m : Mgmt)
  | scrubPeriodRead (m : Mgmt)
  | setpointSet (m : Mgmt)
  | powerLimitSet (m : Mgmt)
  | collectorRegister (m : Mgmt)
  | recordAck (m : Mgmt)
  /-- MCTP acknowledgement of the record with that Lodge sequence number. -/
  | platformEventMessageResponse (sequence : BitVec 32)
  | setEventReceiver (eid : BitVec 8)
  | ownerKeyFuse (m : Mgmt)
  | arrayEraseAll (m : Mgmt)
  | debugNonce (m : Mgmt)
  | debugUnlock (m : Mgmt)
  | packet (m : Mgmt)
  | powerControlRailsOff (m : Mgmt)
  | powerControlPowerUp (m : Mgmt)
  | powerControlModuleReset (m : Mgmt)
  -- SPDM and images (R541–R553)
  /-- Measurement blocks asked for at a responder: function none is the Lodge. -/
  | getMeasurements (fn : Option FnId)
  /-- A session established at a function's DOE mailbox, or with the Lodge, with its exported master secret. -/
  | keyEx (fn : Option FnId) (id : BitVec 32) (masterSecret : Bytes)
  | keyUpdate (fn : Option FnId) (id : BitVec 32)
  | spdmSessionEnd (fn : Option FnId) (id : BitVec 32)
  | pldmFirmwareUpdate (spdm : Option Nat) (bundle : Bytes)
  | lodgeImageUpdate (spdm : Option Nat) (image : Bytes) (interrupted : Bool)
  | recoveryImage (image : Bytes)
  | managementMessageDiscarded
  -- register and doorbell writes
  | doorbell (fn : FnId) (index : Fin 65536) (value : BitVec 64) (width : Nat)
  | resetCtl (fn : FnId) (value : Word)
  | bsqCtl (fn : FnId) (value : Word)
  | brplCtl (fn : FnId) (value : Word)
  | eqCtl (fn : FnId) (value : Word)
  | mbxCtlLoad (fn : FnId) (value : Word)
  | registerWrite (fn : FnId) (offset : Fin 65536) (width : Nat) (value : BitVec 64)
  /-- A read of `length` bytes, or a write of `data` if it is given. -/
  | bar4Access (fn : FnId) (offset : BitVec 30) (length : Nat) (data : Option Bytes)
  -- functions, link, pins
  | vfEnable (numVfs : Fin 64)
  | vfEnableCleared
  | functionLevelReset (fn : FnId)
  | pcieHotReset
  | perst (asserted : Bool)
  /-- MOD_RESET_L's level now, and for how many ns it has been low. -/
  | modResetL (high : Bool) (lowNs : Nat)
  | dStateChange (fn : FnId) (d3hot : Bool)
  /-- Rate in units of 0.5 GT/s, width in lanes. -/
  | linkTrained (rate width : Nat)
  | linkDown
  | referenceClockLost
  | referenceClockReturned
  | mainInputFault (v : Supply)
  | mainInputMarginal (v : Supply)
  | mainInputRestored (v : Supply)
  | standbyInputFault (v : Supply)
  | standbyInputApplied
  | standbyInputLost
  -- boot
  | lodgeImageVerified
  | mainRailsPowerUp
  | gatehouseReleased
  /-- What a fetch delivered; none: it ended in an error (R439). -/
  | bundleFetchEnd (bundle : Option Bytes)
  | bootRunning
  | kioskWatchdog
  | watchdogChipReset
  | gatehouseSilent
  | lodgeSilent
  /-- Whether the plan's digest still matches (R512). -/
  | chipResetComplete (found : ResetFindings)
  -- serving
  | timeStale
  | stepBoundary (lane : LaneId)
  | variantRaise
  /-- Whether the logic of a quarter the lane uses ran, at any time during the step, below the lane's planning corner times the
  level of the variant it runs (R295). -/
  | stepEnd (lane : LaneId) (outs : List StepOut) (slow : Bool)
  | recordWrite (ring : Fin 4096)
  | consumerCountReread (ring : RingName) (count : Nat)
  | moderationDelay (ring : Fin 4096)
  | chainHandoff (seq : BitVec 32)
  | kvBlockCopyComplete (seq : BitVec 32)
  | kvBlockReturned (seq : BitVec 32)
  -- planner
  | buildStart (cause : BuildCause)
  | replanInterval (lane : LaneId)
  | buildComplete (r : BuildResult)
  | planReady
  | shardArrival (kind : ObjKind) (handle : Fin 16384) (shard : ShardRef) (bytes : Option Bytes)
  /-- A shard's re-hash read it at a location as `bytes` and, on a mismatch, as `again`. -/
  | rehash (kind : ObjKind) (handle : Fin 16384) (shard : ShardRef) (loc : HbmLoc) (bytes again : Bytes)
  -- arrays and conversion
  | drive (site : SiteNo) (input : Option LayerInput)
  | driveEnd (site : SiteNo)
  | trigger (site : SiteNo)
  | guard (site : SiteNo)
  /-- Differential charges, in level-steps, of pairs 0–543 (R71). -/
  | sweepEnd (site : SiteNo) (charges : List Int)
  | sweepLimit (site : SiteNo)
  | handover (site : SiteNo)
  /-- The row of a channel arrives for the layer step that awaits it. -/
  | wideRowFetch (site : SiteNo) (row : Fin 512) (key : LayerKey)
  | repairTailEnd (key : LayerKey)
  /-- A layer's wide output; of an EXPERT_LINEAR node the expert's, else expert 0 (R277). -/
  | widePathComplete (lane : LaneId) (node expert : Nat)
  /-- Partial `index` of a column block arrives at its combining unit. -/
  | partialArrival (key : LayerKey) (column : Nat) (index : Nat) (unit : UnitNo)
  | drainEnd (unit : UnitNo)
  /-- The layer step of the checked array step; in a probe slot, the charges of the sweeps that the pattern drove (R191). -/
  | sentinelCheckComplete (array : ArrayNo) (key : LayerKey) (probe : List (List Int))
  | probeSummary
  | calibrationDue (array : ArrayNo)
  | calibrationGap (site : SiteNo)
  /-- Charges in level-steps of the zero and block sweeps (144 in the first round, the 128 block sweeps in a further one) and of the
  8 check sweeps, by pair; the site timer in ns; the trigger delay in ns that the measured settling error asks for (R93). -/
  | calibrationRoundEnd (site : SiteNo) (charges check : List (List Int)) (timerNs delayNs : Nat)
  | calibrationTimeout (site : SiteNo)
  | spareRotation (site : SiteNo)
  /-- What the trim reached at each gain: offset and largest differential non-linearity in 1/1,000 code (R76). -/
  | sliceCalibration (site : SiteNo) (slice : Fin 17) (trim : List (Int × Nat))
  /-- Levels verify read, those of cells exactly at their targets left out, and the time the operation took in ns (R58, R61). -/
  | programmingComplete (array : ArrayNo) (cells : List CellReading) (elapsed : Nat)
  /-- Levels at which cells stand that have not passed verify, the levels Ezjor's neighbour adjustment chooses for the blocks of
  those that are stuck: pair, row, levels of the positive and the negative cell (R61, R152), and the time since the operation began in
  ns (R58). -/
  | programmingMaximumTime (array : ArrayNo) (cells : List CellReading) (adjusted : List (Nat × Nat × Nat × Nat)) (elapsed : Nat)
  | diagnosisComplete (site : SiteNo) (d : DiagReadings)
  | siteControlTimeout (site : SiteNo)
  /-- The number of the pass over the target, and what it found at the location read. -/
  | scrubPass (target : ScrubTarget) (pass : Nat) (f : ScrubFinding)
  /-- The levels measured, those of cells exactly at their targets left out; and adjusted levels as in
  programmingMaximumTime. -/
  | arrayScrub (array : ArrayNo) (cells : List CellReading) (adjusted : List (Nat × Nat × Nat × Nat))
  | repairAdapterTrained (lane : LaneId) (result : TrainedAdapter)
  | repairAdapterTimeout (lane : LaneId) (node : Nat)
  -- Pergola
  | remoteWrite (r : Remote)
  | remoteRead (r : Remote)
  | completionMark (owner : CoreId) (mark : WindowMark)
  | windowClosePoint (owner : CoreId) (slot : Fin 8)
  | windowGuard (owner : CoreId) (slot : Fin 8)
  /-- Whether the flit had failed on this link before and was sent again. -/
  | flitCrcFail (quarter : Fin 4) (router : Fin 128) (port : Fin 8) (resent : Bool)
  -- memory errors
  | hbmReadError (loc : HbmLoc) (symbol : Fin 68)
  | uncorrectableMemoryError (loc : HbmLoc) (transient : Bool) (lanes : List LaneId)
  | burstCheckFail (loc : HbmLoc) (transient : Bool) (lanes : List LaneId)
  | sramParityError (e : SramErr)
  | stackLost (quarter : Fin 4) (stack : Fin 4)
  /-- Requests whose KV blocks, and shards whose golden copies, lay in the quarter's stacks. -/
  | quarterLost (quarter : Fin 4) (requests : List (BitVec 32)) (shards : List (ObjKind × Fin 16384 × Nat))
  | recordHoldEnd (kind : BitVec 8) (uid : Word)
  | recordResend
  -- thermal and power
  | diodeSample (readings : List Reading)
  | throttle
  /-- Mean input power over the last 1 s and the last 10 ms, in W. -/
  | powerLevel (mean1s mean10ms : Nat)
  | outputLevelChange
  | thermalUpdate
  | hardThermalTrip (channel : Fin 18)
  | shutdownRearm
  /-- The thermistors, and the two external diodes (R571). -/
  | coolantSample (inlet outlet : Reading) (external : List Reading)
  -- pair
  | heartbeat (port : Fin 4)
  | heartbeatSilent
  | pairOkIn (asserted : Bool)
  | mirror (m : MirrorMsg)
  | mirrorAcknowledgement (lane : LaneId)
  | pairConfigureTimeout
  | portTrainingTimeout (port : PortId)
  /-- A received flit, codewords the FEC corrected since the last one, and whether the flit lies in one it could not. -/
  | hachateFlit (port : PortId) (flit : Bytes) (corrected : Nat) (uncorrectable : Bool)
  | negativeAcknowledgement (port : PortId) (sequence : BitVec 24)
  | retrainTimeout (port : PortId)
  | laneFailure (port : PortId)
  /-- A UDP payload from an address. -/
  | datagram (port : PortId) (source : BitVec 128) (payload : Bytes)
  | refusal (port : PortId) (source : BitVec 128) (payload : Bytes)
  | datagramResend (port : PortId)
  | fabricPortUp (port : PortId) (backplane : Bool) (lanes : Fin 5)
  /-- A router-advertised network part, or a neighbour's address and MAC. -/
  | neighbourDiscoveryMessage (port : PortId) (network : Option (BitVec 64)) (neighbour : Option (BitVec 128 × BitVec 48))
  | dynamicAddressAssignment (address : BitVec 7)
  deriving DecidableEq, Repr

end Sys2Proof
end

