-- ==== Sys2Proof/Decode.lean ====
section
/-! DEFINITION. The command a word spells: the opcode table of this block gives no row any bits, so no word spells one. -/

namespace Sys2Proof

/-- The command that a word of `nbits` bits spells by the bits of the opcode table: the table's rows have no bits, since
a command is a packet, a message, a register write or an event with operands of its own. -/
def decodeTableWord (_nbits _w : Nat) : Option Instr := none

end Sys2Proof
end

