-- ==== Sys2Proof/Config.lean ====
section
/-! DEFINITION. What an implementation fixes and the manual leaves open: opaque constants, and the free values.
No constant here has a body, so no proof can see its value; notes/assumptions/ names each. -/

namespace Sys2Proof.Config

/-- A byte the manual leaves open: applied to the counter State.freeIdx (log entry 4). -/
opaque freeByte : Nat → Byte

/-- A FP32 value the manual leaves open: applied to the counter State.freeIdx (log entry 4). -/
opaque freeF32 : Nat → F32

/-- The exponential of FP32 arithmetic in attention and softmax (R312, R313): the manual states no rounding. -/
opaque exp32 : F32 → F32

/-- Cosine of an FP32 angle (R308): the manual states no rounding. -/
opaque cos32 : F32 → F32

/-- Sine of an FP32 angle (R308): the manual states no rounding. -/
opaque sin32 : F32 → F32

/-- The FP32 power base^x of R308 and of the linear bias of R309: the manual states no rounding. -/
opaque pow32 : F32 → F32 → F32

/-- The rate of R397 fitted to the accepted marks of the last 10 s, in 2^-32 host ns per elapsed ns.
The manual does not state the fit; a mark is (elapsed ns, host ns). -/
opaque fittedRate : List (Nat × Nat) → Nat

/-- The voltage in mV the Lodge measures on a rail at an instant (R609). -/
opaque railMillivolts : Nat → Nat → Nat

/-- The tracking factor of R130, as its field, where the sums' quotient is no value of the field (a measured sum of 0, a
negative or too large quotient): a function of the predicted and the measured sum. -/
opaque tauUnstated : Int → Int → Nat

/-- The SHA-256 over a whole plan (R289), by the counter State.freeIdx: the manual gives the plan no byte form. -/
opaque planDigest : Nat → BitVec 256

/-- The FP16 scale of a pair whose largest weight is too large for one (R51): R211 has it finite, and the manual states no value. -/
opaque scaleOverflow : F32 → BitVec 16

/-- Silicon stepping of COMPAT bits 15..8 (R418). -/
opaque stepping : BitVec 8

/-- The SHA-256 of Coerelo's vendor public key as fused at manufacture (R536). -/
opaque vendorKeyHash : BitVec 256

/-- MAC base address fused at manufacture (R536, R478). -/
opaque macBase : BitVec 48

/-- Serial number fused at manufacture (R536). -/
opaque serialNumber : BitVec 64

/-- Device secret fused at manufacture (R536). -/
opaque deviceSecret : BitVec 256

/-- Variant fuse: 0 -S, 1 -X, 2 -D (R1, R536). -/
opaque variantFuse : Fin 3

/-- SHA-256 of the module's SPDM identity public key (R485, R549): the manual does not state the derivation. -/
opaque identityKeyHash : BitVec 256

/-- Digest measurements 2, 3 and 5 show while nothing runs, or no plan is ready, to be measured (R550), by index. -/
opaque absentDigest : Nat → BitVec 256

/-- Security version measurement 4 shows while no bundle runs (R550). -/
opaque absentVersion : Byte

/-- Boot ROM code digest, measurement 1 (R550). -/
opaque bootRomDigest : BitVec 256

/-- The Lodge image region of the module flash as shipped (R545). -/
opaque shippedLodgeImage : Bytes

end Sys2Proof.Config
end

