-- ==== Sys2Proof/Machine/State.lean ====
section
/-! DEFINITION. The state of the module: everything the manual gives it, as plain data, with its reset values as the
fields' defaults; the reasons a step can stop; the state after reset. -/

namespace Sys2Proof.Machine

/-- Why the block could stop. No command of this block raises one: the manual gives every command an effect, and a
command whose condition does not hold leaves the state as it is. -/
inductive Fault where
  /-- Raised by no meaning; kept so that the type has a name to print. Safe. -/
  | stopped
  deriving DecidableEq, Repr

/-- Why a command could be turned away without a meaning. -/
inductive Refusal where
  /-- Raised by Dispatch.lean alone, for a row that has no meaning yet. Safe. -/
  | notModelled (mnemonic : String)
  deriving DecidableEq, Repr

/-- What a step answers. -/
abbrev Out (σ : Type) := Host.Outcome σ Fault Refusal

/-! ### Status values and small enumerations -/

/-- Status values (R471). -/
inductive Status where
  | ok | deferred
  | late | stale | replayed | fallbackWide | splitPass | emptyAttention | keyWidened | preempted | resumed
  | timeStale | cornerExcursion
  | deadlineExpired | generationRetired
  | refusedBudget | refusedCapacity | refusedClassFull
  | busy | invalid | notFound | integrityFail | authFail | counterRejected | calFailed
  deriving DecidableEq, Repr

/-- Power states (R565). -/
inductive PowerState where
  | active | idle | dormant | standby | off
  deriving DecidableEq, Repr

/-- Where the power-up sequence of R588 stands. `lodgeRom`: from event A to B; `recovery`: R547; `waitRails`: at event C;
`railsUp`: event D done; `released`: event E done, the link not yet trained (F, G); `up`: event G passed. -/
inductive Sequence where
  | unpowered | lodgeRom | recovery | waitRails | railsUp | released | up
  deriving DecidableEq, Repr

/-- BOOT_STATE bits 31..28 (R419). -/
inductive BootState where
  | waiting | fetching | verifying | starting | running | chipReset | halted
  deriving DecidableEq, Repr

/-! ### Memory held as cells -/

/-- An addressed memory: cells at strictly rising addresses, no cell zero; an unlisted address reads 0 (log entry 5). -/
structure Memory where
  cells : List Host.Cell := []
  deriving DecidableEq, Repr

/-! ### Fuses, boot, resets -/

/-- The fuse block (R536). -/
structure Fuses where
  vendorKeyHash : BitVec 256 := Config.vendorKeyHash
  ownerKeyHash : BitVec 256 := 0
  /-- Thermometer counter: bit i is fuse bit 448 + i. -/
  securityVersion : BitVec 64 := 0
  macBase : BitVec 48 := Config.macBase
  serial : BitVec 64 := Config.serialNumber
  variant : Fin 3 := Config.variantFuse
  debugDisabled : Bool := decide (Config.variantFuse ≠ 2)
  deviceSecret : BitVec 256 := Config.deviceSecret
  deriving DecidableEq, Repr

/-- Who sent a packet and where its reply goes. -/
structure Origin where
  fn : Nat
  queue : Nat
  ring : Nat
  /-- The Lodge SPDM session that carried it, if any. -/
  via : Option Nat := none
  /-- Sequence of the PACKET message that carried it. -/
  mgmtSeq : BitVec 16 := 0
  opcode : Nat
  tag : BitVec 64
  deriving DecidableEq, Repr

/-- A packet that has passed R452, with what its body needs. -/
structure Ctx where
  origin : Origin
  session : Nat := 0xFFFF
  chain : Bytes
  data : Fetched := {}
  /-- Ezjor's answer to R361: the free arrays hold the new generation. -/
  arraysFit : Bool := true
  /-- The partner's report while a pair is formed. -/
  partner : Option PartnerInfo := none
  deriving DecidableEq, Repr

/-- Firmware, boot and reset state: BOOT_STATE, the mailbox, RESET_CTL, FATAL, the bundles (R418–R424, R438, R543). -/
structure Boot where
  sequence : Sequence := .lodgeRom
  state : BootState := .waiting
  /-- 0 none, 1 host mailbox, 2 Lodge. -/
  source : Nat := 0
  mbxAddr : BitVec 64 := 0
  mbxLen : Word := 0
  mbxStatus : Nat := 0
  /-- The bundle accepted and not yet running. -/
  accepted : Option Bytes := none
  /-- The running bundle. -/
  running : Option Bytes := none
  /-- The two copies of the running bundle in the preserved region (R356, R540). -/
  copies : List Bytes := []
  /-- The two copies of a staged bundle there (R356, R543). -/
  staged : List Bytes := []
  lastReset : Nat := 0
  chipResets : Nat := 0
  fatal : Bool := false
  fatalCause : Nat := 0
  fatalCount : Nat := 0
  fatalUid : Word := 0
  /-- The firmware has stopped signalling (R424). -/
  kioskHung : Bool := false
  /-- Elapsed time FATAL cause 3 was set (R511). -/
  watchdogAt : Option Nat := none
  /-- Elapsed times at which containment chip resets began (R515). -/
  containments : List Nat := []
  /-- Kind code of the record that reported the cause of the chip reset in progress, when it began, requests ended. -/
  resetCause : Nat := 0
  resetAt : Nat := 0
  resetEnded : Nat := 0
  /-- The chip reset in progress ends halted (R506). -/
  endsHalted : Bool := false
  /-- DMA is stopped (R424, R512). -/
  dmaStopped : Bool := true
  /-- The Lodge finds the Gatehouse silent; the Gatehouse finds the Lodge silent (R535). -/
  gatehouseSilent : Bool := false
  /-- AER Uncorrectable Internal Errors reported (R424). -/
  aerReports : Nat := 0
  deriving DecidableEq, Repr

/-! ### Supplies, rails, thermal protection -/

/-- Supplies, power state and pins (R561–R566, R595, R597). -/
structure Power where
  state : PowerState := .standby
  mainMillivolts : Nat := 54000
  standbyMillivolts : Nat := 12000
  railsOn : Bool := false
  /-- HBM in self-refresh and quarters gated (R566). -/
  hbmSelfRefresh : Bool := false
  quartersGated : Bool := false
  refClock : Bool := true
  modResetL : Bool := true
  perstAsserted : Bool := false
  /-- I3C target address: static 0x5A until dynamic assignment (R595). -/
  i3cAddress : BitVec 7 := 0x5A
  i3cDynamic : Bool := false
  lastStandbyRecord : Option Nat := none
  /-- Why the main rails are off: 0 they are not, or the module has not powered up yet; 1 main input (R562), 2 thermal
  shutdown (R582), 3 a Lodge command (R525). -/
  offReason : Nat := 0
  deriving DecidableEq, Repr

/-- One diode channel: its last reading and whether R572 regards it as failed. -/
structure Channel where
  last : Reading := .temp 0
  sampled : Bool := false
  failed : Bool := false
  deriving DecidableEq, Repr

/-- Temperature sensing, thresholds and output level (R571–R583). Temperatures in 0.125 °C. -/
structure Thermal where
  channels : List Channel := List.replicate 18 {}
  inlet : Reading := .temp 0
  outlet : Reading := .temp 0
  /-- External diodes 0 and 1: only reported (R571). -/
  external : List Reading := List.replicate 2 (.temp 0)
  /-- Warning, warning clear, throttle, throttle clear, shutdown, shutdown re-arm. -/
  warning : Int := 760
  warningClear : Int := 720
  throttle : Int := 800
  throttleClear : Int := 768
  shutdown : Int := 896
  rearm : Int := 800
  inWarning : Bool := false
  inThrottle : Bool := false
  inShutdown : Bool := false
  thermalLevel : Nat := 100
  powerLevel : Nat := 100
  /-- The output level in force in silicon (R581): firing budget and VDD_CORE. -/
  appliedLevel : Nat := 100
  lowestLevel : Nat := 100
  throttleAt : Nat := 0
  /-- Elapsed time from which the next rise of the thermal level counts (R579). -/
  lastRiseAt : Nat := 0
  /-- THERMAL as the Lodge last wrote it (R422). -/
  register : Word := 0
  /-- Elapsed times of thermal shutdowns within the hour (R583), and whether the Lodge waits for a command. -/
  shutdowns : List Nat := []
  holdOff : Bool := false
  /-- The shutdown threshold acts again only after T has been below re-arm. -/
  armed : Bool := true
  /-- Comparator latch of R577. -/
  tripLatch : Option Nat := none
  mean1s : Nat := 0
  coolantRecordAt : Option Nat := none
  /-- Since when the output level has stood at or above each higher variant level (R297): level code and host time. -/
  raiseSince : List (Nat × Nat) := []
  deriving DecidableEq, Repr

/-! ### Records -/

/-- The plan node that was running on a unit (R516 word 5). -/
structure OpInfo where
  graph : Nat
  node : Nat
  step : Nat
  deriving DecidableEq, Repr

/-- An error record (R516) before it is laid out in bytes. -/
structure ErrorRecord where
  kind : Nat
  severity : Nat
  stale : Bool
  fn : Nat
  uid : Word
  lastMark : BitVec 64
  elapsed : Nat
  op : Option OpInfo
  temperature : Int
  count : Nat
  voltage : Nat
  detail : Bytes
  deriving DecidableEq, Repr

/-- Count and hold of one pair of kind and UID (R516 word 6, R519). -/
structure RecordCount where
  kind : Nat
  uid : Word
  count : Nat
  lastIssued : Nat
  held : Option ErrorRecord
  deriving DecidableEq, Repr

/-- A record the Lodge holds (R521), with its datagram sequence number (R522). -/
structure LodgeRecord where
  sequence : Nat
  record : ErrorRecord
  sentAt : Nat
  deriving DecidableEq, Repr

/-- A response of the Lodge to a management message (R524). -/
structure MgmtResponse where
  spdm : Nat
  sequence : BitVec 16
  command : Nat
  status : Status
  payload : Bytes
  deriving DecidableEq, Repr

/-- The Lodge: settings, held records, log, violation counts, images, nonce, debug unlock. -/
structure Lodge where
  /-- The Lodge firmware runs: from event B of R588 on, until it falls silent. -/
  alive : Bool := false
  /-- Flash image region (R545), and the image that runs. -/
  flashImage : Bytes := Config.shippedLodgeImage
  runningImage : Option Bytes := none
  /-- Scrub periods in s, in target order (R508). -/
  scrubPeriods : List Nat := [10, 10, 28800, 86400]
  setpointMv : Nat := 720
  powerLimit : Nat := 2400
  /-- Collector address, UDP port (R525). -/
  collector : Option (BitVec 128 × BitVec 16) := none
  eventReceiver : Option (BitVec 8) := none
  nextSequence : Nat := 1
  held : List LodgeRecord := []
  discarded : Nat := 0
  /-- Flash log of records of severity 3 or above, newest first (R521). -/
  flashLog : List ErrorRecord := []
  /-- Violation counts of functions 0–63, then internal sources (R556). -/
  violations : List Word := List.replicate 65 0
  nonce : Option Bytes := none
  debugUnlocked : Bool := false
  responses : List MgmtResponse := []
  /-- Records sent, as (route 0 MCTP / 1 management port, sequence), newest first. -/
  sent : List (Nat × Nat) := []
  deriving DecidableEq, Repr

/-! ### Functions, queues, rings -/

/-- One MSI-X table entry. -/
structure MsixEntry where
  address : BitVec 64 := 0
  data : Word := 0
  masked : Bool := true
  deriving DecidableEq, Repr

/-- What each function owns: its event queue, bootstrap registers, MSI-X table and D-state (R412–R436). -/
structure FnState where
  /-- A virtual function that VF Enable has given its slice. -/
  enabled : Bool := false
  d3hot : Bool := false
  eqBase : BitVec 64 := 0
  eqEnable : Bool := false
  eqOverflow : Bool := false
  eqSize : Nat := 0
  eqDropped : Nat := 0
  eqProducer : Nat := 0
  eqConsumer : Nat := 0
  bsqBase : BitVec 64 := 0
  bsqEnable : Bool := false
  bsqDepth : Nat := 0
  brplBase : BitVec 64 := 0
  brplEnable : Bool := false
  brplVector : Nat := 0
  brplDepth : Nat := 0
  msix : Store MsixEntry := []
  /-- Pending-bit array. -/
  pba : List Nat := []
  /-- Records held for the event queue until it is enabled again (R608), oldest first; whether it is holding, and how
  many were dropped meanwhile. -/
  holding : Bool := false
  heldRecords : List ErrorRecord := []
  heldDropped : Nat := 0
  /-- Last interrupt messages sent: (vector, address, data), newest first. -/
  signals : List (Nat × BitVec 64 × Word) := []
  deriving DecidableEq, Repr

/-- A submission queue (R426, R427). Counts are modulo 65,536. -/
structure SubQueue where
  base : BitVec 64
  depth : Nat
  priority : Nat
  ring : Nat
  producer : Nat := 0
  consumed : Nat := 0
  deriving DecidableEq, Repr

/-- An entry waiting for a reply ring: its bytes, and the request whose record it is (R400). -/
structure RingEntry where
  bytes : Bytes
  request : Option Nat := none
  /-- A result that goes to host memory before the entry (R402): where, and its bytes. -/
  dataAt : Nat := 0
  data : Bytes := []
  /-- It is the last record of its request, which is open until it is written (R374). -/
  ends : Bool := false
  deriving DecidableEq, Repr

/-- A reply ring (R432–R435). -/
structure ReplyRing where
  base : BitVec 64
  depth : Nat
  vector : Nat
  modCount : Nat
  modDelay : Nat
  producer : Nat := 0
  consumer : Nat := 0
  held : List RingEntry := []
  unsignalled : Nat := 0
  oldestAt : Nat := 0
  deriving DecidableEq, Repr

/-- An SPDM session (R548, R552): its exported master secret and generation of data keys. -/
structure Spdm where
  /-- none: with the Lodge. -/
  fn : Option Nat
  id : BitVec 32
  secret : Bytes
  dataKeys : Nat := 0
  /-- The counter of R448 for packets the Lodge carries. -/
  counter : Nat := 0
  deriving DecidableEq, Repr

/-- A host session (R448–R451). -/
structure Session where
  fn : Nat
  /-- The SPDM session it is bound to. -/
  spdm : Option (BitVec 32)
  key : Option Bytes
  counter : Nat := 0
  closing : Bool := false
  deriving DecidableEq, Repr

/-- A long opcode at work (R455, R456). -/
inductive Work where
  | closeSession (h : Nat)
  | load (kind : ObjKind) (handle : Nat)
  | replace (kind : ObjKind) (handle : Nat) (gen : Nat) (whenPlaced : Bool)
  /-- An image and the length the packet names. -/
  | graphSubmit (image : Bytes) (len : Nat)
  /-- Accepted under a handle, waiting for its plan to be ready. -/
  | graphReady (g : Nat)
  | graphRetire (g : Nat)
  | kvPool (gib : Nat)
  /-- A calibration asked for, and whether it has started (R141). -/
  | arrayCal (a : Nat) (started : Bool)
  | siteDiag (n : Nat)
  | checkFraction (previous code : Nat)
  | pair (hash : BitVec 256)
  deriving DecidableEq, Repr

structure Job where
  origin : Origin
  work : Work
  deriving DecidableEq, Repr

/-! ### Time -/

/-- Host time (R396–R399). -/
structure HostTime where
  /-- A mark has been accepted since the last reset that empties the request table. -/
  set : Bool := false
  /-- The anchor: host time of the last accepted mark, and elapsed time then. -/
  mark : Nat := 0
  markAt : Nat := 0
  /-- Fitted rate, 2^-32 host ns per elapsed ns. -/
  rate : Nat := 4294967296
  /-- Host time never runs below this (R398). -/
  floor : Nat := 0
  /-- Accepted marks of the last 10 s: (elapsed, host), newest first. -/
  marks : List (Nat × Nat) := []
  stale : Bool := false
  deriving DecidableEq, Repr

/-! ### Accounts, objects, graphs -/

/-- One token bucket of an account (R377, R378): level in 1/1,024 budget token. -/
structure Bucket where
  rate : Nat := 0
  burst : Nat := 0
  limit : Nat := 0
  level : Int := 0
  updatedAt : Nat := 0
  /-- The first update after a chip reset uses Δt = 0 (R587). -/
  fresh : Bool := false
  /-- The partner's last mirrored level (R496). -/
  mirrored : Int := 0
  deriving DecidableEq, Repr

/-- An account (R377). -/
structure Account where
  owner : Nat
  closing : Bool := false
  buckets : List Bucket
  deriving DecidableEq, Repr

/-- One shard of a generation (R344, R348). -/
structure Shard where
  length : Nat
  source : Nat
  slot : Nat
  address : BitVec 64
  digest : BitVec 256
  /-- Arrived and verified. -/
  verified : Bool := false
  /-- Its first fetch did not match (R348). -/
  failedOnce : Bool := false
  bytes : Bytes := []
  /-- It lies in the memory tier; there it lies wholly in one stack: quarter × 4 + stack (R357). -/
  inMemoryTier : Bool := false
  stack : Nat := 0
  /-- The newest plan puts it in the memory tier (R357, R358); and the re-hash pass under way has read it (R350). -/
  home : Bool := false
  rehashed : Bool := false
  deriving DecidableEq, Repr

/-- One held generation of an object (R342, R360). -/
structure Generation where
  number : Nat
  manifest : Bytes
  digest : BitVec 256
  /-- Host address the manifest was read from (R356). -/
  address : BitVec 64
  mode : Nat
  keyWidth : Nat := 0
  base : Nat := 0xFFFF
  baseGen : Nat := 0
  shards : List Shard
  /-- 1 loading, 2 servable wide, 3 placed (R372). -/
  state : Nat
  /-- 0 no pass completed, 1 passed, 2 transient mismatch. -/
  rehash : Nat := 0
  /-- A transient mismatch was met in the pass under way (R351), and host time when that pass began (R350). -/
  rehashTransient : Bool := false
  passFrom : Nat := 0
  /-- The two copies of the manifest in the preserved region (R356). -/
  copies : List Bytes := []
  /-- An adapter's: it found no room in the memory tier, and waits for the plan whose build makes some (R369). -/
  awaitsPlan : Bool := false
  /-- It serves only when placed (R361). -/
  whenPlaced : Bool := false
  deriving DecidableEq, Repr

/-- A loaded object (R340): generations older first, at most two (R363, R371). -/
structure LoadedObject where
  kind : ObjKind
  handle : Nat
  gens : List Generation
  refs : Nat := 1
  retiring : Bool := false
  /-- Loading of the first generation is still under way. -/
  lastGen : Nat := 1
  deriving DecidableEq, Repr

/-- What the engine keeps of a graph's image (R272). -/
structure GraphSettings where
  cls : Nat
  latency : Nat
  corner : Nat
  hold : Bool
  perVector : Bool
  slots : Nat
  replan : Nat
  jump : Nat
  theta : Nat
  threshold : Nat
  nominalLimit : Nat
  worstLimit : Nat
  batch : Nat
  chunk : Nat
  /-- Largest context limit of its cached nodes, 0 if none (R318). -/
  context : Nat := 0
  /-- Row length, rows per step of its packed nodes, 0 if none. -/
  rowLength : Nat := 0
  rows : Nat := 0
  cached : Bool := false
  /-- Models and shards its tensors name. -/
  owners : List (ObjKind × Nat) := []
  /-- Sealed format of its cached nodes, widest first. -/
  sealed : Nat := 0
  /-- Ends in a TOPK node. -/
  topK : Bool := false
  /-- The node whose output that TOPK node ranks, how many entries it keeps, and whether the smallest (R229). -/
  topSource : Option (Nat × Nat × Bool) := none
  /-- Size in bytes of the input tensor of a retrieval graph. -/
  inputBytes : Nat := 0
  deriving DecidableEq, Repr

/-- An accepted graph (R268–R271). -/
structure Graph where
  fn : Nat
  image : Bytes
  settings : GraphSettings
  /-- SHA-256 of the image (R488). -/
  digest : BitVec 256
  retiring : Bool := false
  /-- Its place in the order of acceptance (R284). -/
  accepted : Nat := 0
  deriving DecidableEq, Repr

/-! ### Requests -/

/-- States of R375. -/
inductive ReqState where
  | deferred | prefill | running | preempted
  deriving DecidableEq, Repr

/-- A KV page in the sealed or open form of R319–R325: codes of K and V, element order. -/
structure Page where
  node : Nat
  group : Nat
  format : Nat := 3
  tokens : Nat := 0
  nonFinite : Bool := false
  kScale : BitVec 16 := 0x3C00
  vScale : BitVec 16 := 0x3C00
  first : Nat
  generation : Nat
  k : List Nat := []
  v : List Nat := []
  /-- Block scales of G4 bursts, K part then V part. -/
  kBlocks : List Nat := []
  vBlocks : List Nat := []
  /-- The 64-byte header as it stands in the page (R321). -/
  header : Bytes := []
  deriving DecidableEq, Repr

/-- Where a block lies (R328). -/
inductive Location where
  | memoryTier | hostSwap | partner | peer | leaving | returning | unallocated
  deriving DecidableEq, Repr

/-- A KV block (R326) and its descriptor (R328). -/
structure Block where
  location : Location := .memoryTier
  /-- In 4 KiB units. -/
  address : Nat := 0
  fill : Nat := 0
  open_ : Bool := false
  port : Nat := 0
  generation : Nat := 0
  bytes : Nat := 0
  /-- Destination chosen for a leaving block, or where a returning one comes from; and its address there, in 4 KiB units. -/
  dest : Location := .unallocated
  destAt : Nat := 0
  pages : List Page := []
  deriving DecidableEq, Repr

/-- The stages of a chain that remain (R390, R464). -/
structure Chain where
  stage : Nat
  stages : List Nat
  store : Nat
  candidates : Nat
  passages : Nat
  passageLimit : Nat
  genAdapter : Nat
  query : List Nat
  lead : List Nat
  tail : List Nat
  /-- Output address and length of each stage. -/
  outputs : List (Nat × Nat)
  outLimit : Nat
  stop : Option Nat
  /-- Document tokens of each candidate of the rank stage (R391). -/
  documents : List (List Nat) := []
  deriving DecidableEq, Repr

/-- The correction summary of R192 while a step runs. -/
structure Summary where
  wide : Bool := false
  replayed : Bool := false
  split : Bool := false
  stale : Bool := false
  excursion : Bool := false
  sentinel : Bool := false
  stretched : Bool := false
  nWide : Nat := 0
  nReplayed : Nat := 0
  nSplit : Nat := 0
  /-- A slowed outer-tier read or a re-read of R610 (R193). -/
  beyond : Bool := false
  stretch : Nat := 0
  saturations : Nat := 0
  outliers : Nat := 0
  /-- Running means μ of the layers watched for this sequence are kept by the request. -/
  emptyAttention : Bool := false
  keyWidened : Bool := false
  deriving DecidableEq, Repr

/-- An open request (R373–R375). -/
structure Request where
  fn : Nat
  session : Nat
  queue : Nat
  graph : Nat
  cls : Nat
  account : Nat
  adapter : Option (Nat × Nat)
  ring : Nat
  tag : BitVec 64
  deadline : Nat
  pinGen : Bool
  cont : Bool
  chain : Option Chain := none
  input : Bytes := []
  outAddr : BitVec 64 := 0
  outLen : Nat := 0
  outLimit : Nat := 0
  stop : Option Nat := none
  state : ReqState
  /-- Order of admission or deferral. -/
  order : Nat
  /-- Prompt tokens, and how many prefill steps have taken. -/
  prompt : Nat := 0
  prefilled : Nat := 0
  /-- Outputs delivered so far. -/
  outputs : Nat := 0
  /-- Length of the sequence so far. -/
  length : Nat := 0
  charge : Nat := 0
  ran : Bool := false
  cancelled : Bool := false
  /-- To end at the boundary without records: closed session, function-level reset. -/
  closing : Bool := false
  /-- Its end record waits for the ring; it takes no further part in steps (R374, R400). -/
  ended : Bool := false
  budgetHold : Bool := false
  resumed : Bool := false
  lastStepEnd : Nat := 0
  preemptedAt : Nat := 0
  blocks : List Block := []
  /-- Sealed blocks allocated at the boundary for the step under way (R335). -/
  reserved : List Block := []
  /-- Running means μ by node (R171). -/
  means : List (Nat × F32) := []
  /-- RMS values accepted in a prefill step, by node (R171). -/
  accepted : List (Nat × F32) := []
  summary : Summary := {}
  /-- Carried tensors as the last step left them: number and elements (R279). -/
  carried : List (Nat × List F32) := []
  /-- Outputs of the step's attention queries. -/
  attention : List (List F32) := []
  /-- Records kept until the partner acknowledges the mirror (R491). -/
  awaiting : List RingEntry := []
  /-- Mirrored from the partner, not yet taken over; or taken over from it, so that it holds a reserved slot (R496). -/
  mirrored : Bool := false
  takenOver : Bool := false
  /-- A stage of a chain that has ended OK and whose hand-off has not been formed yet (R391), with its result. -/
  handoff : Bool := false
  result : Bytes := []
  /-- Sits out the next step under R335, R380 or R400. -/
  satOut : Bool := false
  deriving DecidableEq, Repr

/-! ### Plans and lanes -/

/-- A sequence placed in the rows of a packed step (R339): request, its number within the request, row, first position in the row, segment,
length. -/
structure PackedSeq where
  request : Nat
  index : Nat
  row : Nat
  start : Nat
  segment : Nat
  length : Nat
  deriving DecidableEq, Repr

/-- A step in progress in a lane (R285). -/
structure LaneStep where
  prefill : Bool
  batch : List Nat
  startedAt : Nat
  epoch : Nat
  /-- Lowest output level seen during the step (R298). -/
  lowest : Nat := 100
  excursion : Bool := false
  /-- Requests the step computes (R401 word 11). -/
  fill : Nat := 0
  /-- Sequences whose step must be computed again (R188). -/
  recompute : List Nat := []
  /-- Recomputations so far, and the extras of the sequences released before them: whether any, planned stretch (R188, R192). -/
  attempt : Nat := 0
  released : Bool × Nat := (false, 0)
  /-- Where the sequences of a packed step stand (R339). -/
  packed : List PackedSeq := []
  /-- Time by which windows closed later than planned, in ns: excursion stretch if the step runs in an excursion (R247). -/
  waited : Nat := 0
  deriving DecidableEq, Repr

/-- A lane (R282) with its deferral queue (R386). -/
structure Lane where
  plan : LanePlan
  /-- Epoch the lane runs under, and the level code of the variant it runs. -/
  epoch : Nat
  level : Nat := 0
  /-- Check fraction its plan carries (R183, R289). -/
  checkCode : Nat := 0
  step : Option LaneStep := none
  stepNo : Nat := 0
  lastMain : Bool := false
  deferral : List Nat := []
  limitsMissed : Bool := false
  /-- Readiness epoch of the build whose plan it runs, when it switched to that plan (R300), and its last switch of all. -/
  built : Nat := 0
  switchedAt : Nat := 0
  lastSwitch : Nat := 0
  switchWait : Nat := 0
  /-- It has switched and run no step since (R293); host time since when its first step has waited for a resource. -/
  switching : Bool := false
  waitFrom : Option Nat := none
  /-- Objects whose generation its last switch changed, until its next boundary has ended what retires with them (R337, R365). -/
  changed : List (ObjKind × Nat) := []
  /-- Requests that left the batch in each of the last 256 main steps, newest first (R387). -/
  left : List Nat := []
  leftNow : Nat := 0
  generation : List (ObjKind × Nat × Nat) := []
  /-- Lane waits for a new plan after a quarter was lost (R533) or recovery (R513). -/
  sitsOut : Bool := false
  /-- Layers on the wide path: nodes served from golden copies (R132, R136, R155, R177). -/
  wideNodes : List Nat := []
  /-- Layers that join them at the next boundary (R136). -/
  wideNext : List Nat := []
  /-- The partner holds the same lane (R488). -/
  protected_ : Bool := false
  /-- Planned at twice the declared batch (R487). -/
  doubled : Bool := false
  deriving DecidableEq, Repr

/-- A plan that has been built (R289–R294). -/
structure Plan where
  epoch : Nat
  lanes : List LanePlan
  digest : BitVec 256
  checkCode : Nat
  ready : Bool := false
  programs : List Programming := []
  causes : List BuildCause := []
  /-- Its lanes are planned at twice the declared batch (R487). -/
  doubled : Bool := false
  /-- The plan again, complete, at full level and at each derated level (R289, R296). -/
  variants : List (List LanePlan) := []
  /-- Its master copy stands in Gatehouse SRAM, and the quarters whose firmware regions hold their part (R289, R292). -/
  master : Bool := true
  parts : List Nat := []
  /-- Retired graphs whose lanes its build removes (R271). -/
  removes : List Nat := []
  /-- Generations that were verified when its build decided: those it places and switches to (R360, R361). -/
  gens : List (ObjKind × Nat × Nat) := []
  deriving DecidableEq, Repr

/-- Ezjor's build at work (R270, R301). -/
structure Build where
  startedAt : Nat
  /-- The same in elapsed time, which marks of host time do not move. -/
  begunAt : Nat := 0
  causes : List BuildCause
  /-- Submissions that waited when it started, which it takes; and the retired graphs whose last request had ended (R271). -/
  submissions : Nat := 0
  removes : List Nat := []
  deriving DecidableEq, Repr

/-- The planner (R268–R302). -/
structure Planner where
  epoch : Nat := 0
  plan : Option Plan := none
  /-- A plan that waits to become ready. -/
  waiting : Option Plan := none
  build : Option Build := none
  /-- Causes that wait for the next build. -/
  queued : List BuildCause := []
  checkCode : Nat := 1
  /-- Check fraction the next plan carries (R183). -/
  wantCheck : Option Nat := none
  /-- Level code of the installed variant: 0 full, 1–5 for 85, 70, 55, 40, 25 % (R296, R297). -/
  variant : Nat := 0
  /-- Units left out of placement (R262, R506) and quarters lost. -/
  leftOut : List Word := []
  lostQuarters : List Nat := []
  lostStacks : List (Nat × Nat) := []
  removedRegions : List Nat := []
  deriving DecidableEq, Repr

/-- KV pool and destinations (R329, R333). -/
structure KvPeer where
  capacity : Nat
  address : BitVec 128
  udp : BitVec 16
  /-- Full until the engine next frees a block there (R481). -/
  full : Bool := false
  deriving DecidableEq, Repr

structure Kv where
  poolGib : Nat := 512
  newPool : Option Nat := none
  swap : Option (BitVec 64 × Nat) := none
  peers : Store KvPeer := []
  deriving DecidableEq, Repr

/-! ### Arrays, sites, Quartz units -/

/-- A correction table (R116, R117). -/
structure CalTable where
  entries : List (Nat × Int)
  rounds : Nat
  temperature : Int
  sigma : Nat
  deriving DecidableEq, Repr

/-- States of R69 word 1. -/
inductive ArrayState where
  | erased | programmed | serving | programming | calibrating | quarantined | retired
  deriving DecidableEq, Repr

/-- A checked array step (R184, R186): the layer step, results by row phase then data pair in level-steps
over correctedUnit, drive integers, and the data pairs with a saturated conversion. -/
structure ArrayCheck where
  key : LayerKey
  values : List (List Int) := []
  ints : List Int := []
  saturated : List Nat := []
  deriving DecidableEq, Repr

/-- What a programming operation writes into an array (R28, R51–R55, R152, R153), by pair: weight levels by row, scales and level sums
by row phase. -/
structure ArrayContent where
  levels : List (List Int) := []
  scales : List (List (BitVec 16)) := []
  levelSums : List (List Int) := []
  deriving DecidableEq, Repr

/-- One Orangery array. -/
structure OrArray where
  state : ArrayState := .erased
  wearLimited : Bool := false
  wear : Nat := 0
  /-- Spare pairs assigned: (data pair, spare pair), and those assigned but not yet in effect (R29). -/
  spares : List (Nat × Nat) := []
  sparesPending : List (Nat × Nat) := []
  /-- Those of them that the last programming operation wrote (R153). -/
  sparesWritten : List (Nat × Nat) := []
  ownerKind : Nat := 0
  owner : Nat := 0
  generation : Nat := 0
  /-- SHA-256 of the manifest of the generation it was programmed from (R366). -/
  source : BitVec 256 := 0
  /-- Its contents have not been compared with the owner's golden copy since a module reset or a loss of power (R127, R366). -/
  unproven : Bool := false
  stuck : List CellReading := []
  /-- Cell levels that neighbour adjustment chose for the contents held or being programmed: pair, row, positive cell, negative cell
  (R152). -/
  adjusted : List (Nat × Nat × Nat × Nat) := []
  /-- Cells one scrub has measured more than 0.6 level off, awaiting a second (R149). -/
  suspects : List (Nat × Nat × Bool) := []
  /-- Powered time in ns when its last programming operation began (R69 word 3). -/
  programmedAt : Nat := 0
  /-- Weight levels by pair, then row (R26); reference pairs included. -/
  levels : List (List Int) := []
  /-- Per pair: scale per row phase and level sum per row phase (R54). -/
  scales : List (List (BitVec 16)) := []
  levelSums : List (List Int) := []
  active : Option CalTable := none
  staged : Option CalTable := none
  result : Nat := 0
  /-- Residual σ of the newest calibration that converged (R120), kept through programming (R151). -/
  sigma : Nat := 0
  /-- Rounds of a first attempt that timed out, while the retry is pending (R134). -/
  retry : Option Nat := none
  tau : Nat := 32768
  tableEpoch : Nat := 0
  activatedAt : Nat := 0
  due : Bool := false
  /-- Predicted and measured sums of pairs 512–519 over the last 256 array steps, newest first (R130). -/
  tracking : List (Int × Int) := []
  /-- Withdrawn from service by R132. -/
  withdrawn : Bool := false
  /-- Results of the last completed array step by row phase, then data pair, in level-steps over correctedUnit (R144). -/
  lastStep : List (List Int) := []
  /-- Array steps since the last check (R184), failed first check or failed probe pending. -/
  sinceCheck : Nat := 0
  /-- A check that has not completed yet (R187), and the layer step whose first check failed, with the computation of its lane step
  it was in (R188). -/
  checking : Option ArrayCheck := none
  checkFailed : Option (LayerKey × Nat) := none
  probeFailed : Option (Nat × Nat) := none
  /-- A calibration that began after its programming has converged (R140). -/
  calibrated : Bool := false
  /-- It has served since it was last programmed (R137). -/
  everServed : Bool := false
  /-- Gain fields of the last calibration that converged, kept through programming (R123). -/
  gains : List Nat := []
  /-- Compared with its golden copy, or programmed from it, since the last power-up or chip reset (R68). -/
  verified : Bool := false
  /-- A repair waits for the array to be programmed again (R109, R153). -/
  reprogram : Bool := false
  /-- Programming in progress, for whom, and what it writes; the generation has been freed since it began (R611). -/
  program : Option Programming := none
  content : ArrayContent := {}
  orphaned : Bool := false
  /-- ARRAY_ERASE_ALL came during the operation: the array is erased when it has ended (R600, R611). -/
  eraseAfter : Bool := false
  /-- A transient fault was found at its site: scrubbed and recalibrated, it goes to the free pool (R109). -/
  recovering : Bool := false
  /-- The calibration under way: diode temperature when it began (R117), the fit of its last round, and the zero-sweep codes of
  its first (R122). -/
  calTemp : Int := 0
  fit : List (Nat × Int) := []
  zeroCodes : List (List Int) := []
  deriving DecidableEq, Repr

/-- An array step at a site (R41–R43, R88–R91). -/
structure ArrayStep where
  key : LayerKey
  array : ArrayNo
  mode : InputMode
  phases : Nat
  gain : Fin 4
  /-- Input scale and drive integer of each row (R159, R160). -/
  scale : F32
  ints : List Int
  /-- Outlier channels of the array step (R161). -/
  outliers : Nat
  /-- Pairs 528–543 are swept too (R41). -/
  spares : Bool
  /-- Phases whose drive has begun; the last of them is being driven, or its drive has ended and armed the trigger, or its
  integrator has closed and waits for the sweep before it to end. -/
  driven : Nat := 1
  driving : Bool := true
  armed : Bool := false
  closed : Bool := false
  sweeping : Bool := false
  /-- The guard of R95 expired in it: its results are discarded. -/
  expired : Bool := false
  /-- One entry per completed sweep: code and saturation flag by pair. -/
  sweeps : List (List (Int × Bool)) := []
  deriving DecidableEq, Repr

/-- What a site does outside array steps. -/
inductive Activity where
  | none
  | calibrating (a : Nat) (round : Nat) (startedAt : Nat)
  | programming (a : Nat)
  | diagnosing (requested : Bool)
  | host (until_ : Nat)
  deriving DecidableEq, Repr

/-- A converter site (R70–R114). The manual gives its control word no reset value: besides the delay of R93 it holds the
continuous mode until the start-up calibration of R82 has ended, then the triggered mode, and tier 0 (log entries 9 and 104). -/
structure Site where
  control : Word := 0x80100000
  /-- The trigger delay of the engine's own use, in ns (R93). -/
  delay : Nat := 4
  /-- The delay from the next step boundary on (R92). -/
  nextDelay : Nat := 4
  dac : Word := 0
  /-- The DAC control word the sweep under way uses (R106). -/
  dacNow : Word := 0
  entries : List Word := List.replicate 16 0
  /-- Spare position: 0–15, 16 idle, 17 calibrating itself. -/
  spare : Nat := 16
  fixed : Bool := false
  failedSlice : Nat := 0
  rotations : Nat := 0
  /-- A stand-in that fell due within a step, made at its handover (R78). -/
  swapDue : Bool := false
  /-- Slices whose start-up calibration has not ended: the site runs in continuous mode until then (R82). -/
  starting : List Nat := List.range 17
  /-- Slices that have failed once, and may be tried again next rotation (R79). -/
  failedOnce : List Nat := []
  /-- The spare slice has failed its own calibration twice. -/
  spareFailed : Bool := false
  satData : Word := 0
  satRef : Word := 0
  activity : Activity := .none
  step : Option ArrayStep := none
  /-- The next array step, whose first drive begins with the last sweep of the one before it (R89). -/
  nextStep : Option ArrayStep := none
  /-- Guard expiries at the site by plan step (R96): lane, step number, how many. -/
  guards : List (Nat × Nat × Nat) := []
  /-- Mode halted has been written during a sweep of a continuous run, which ends with it (R98). -/
  halting : Bool := false
  /-- A continuous run of the host's waits until it fits the firing budget (R20, R50). -/
  waits : Bool := false
  /-- A diagnosis waits for the site. -/
  diagnose : Bool := false
  /-- Sweeps that the diagnosis under way has run, and what they converted (R108). -/
  tested : Nat := 0
  readings : DiagReadings := {}
  sweepsRun : Nat := 0
  /-- Codes and saturation flags of the last sweep outside an array step, by pair (R97). -/
  sweep : List (Int × Bool) := []
  /-- The corrected results of that sweep, over correctedUnit, by pair; none in an entry with Skip correction (R83, R115). -/
  corrected : List (Option Int) := []
  lastTier : Option Nat := none
  deriving DecidableEq, Repr

/-- Cumulative counts of one layer at a Quartz unit (R194, R217): outliers, splits, replays R168, R172, R95, wide,
checks, transient, lasting, NaN outputs. -/
structure LayerCounts where
  lane : Nat
  node : Nat
  counts : List Word := List.replicate 10 0
  deriving DecidableEq, Repr

/-- A tile (R223): up to 512 outputs of a layer step from a first output on, and their format. -/
structure Tile where
  key : LayerKey
  first : Nat
  format : BitVec 8
  sums : List (F32 × F32)
  deriving DecidableEq, Repr

/-- A Quartz unit (R30, R194, R223). -/
structure Quartz where
  counts : List LayerCounts := []
  /-- Which of the two accumulator sets is active, and the 512 compensated sums of each. -/
  active : Bool := false
  sets : List (List (F32 × F32)) := List.replicate 2 (List.replicate 512 (0, 0))
  /-- The tile that the other set drains. -/
  draining : Option Tile := none
  /-- Tiles held until the drain ends (R225), oldest first. -/
  held : List Tile := []
  /-- Local top-k lists: (value, index), by request (R231). -/
  topk : Store (List (F32 × Nat)) := []
  /-- Outputs drained in the steps under way: layer step, first output, codes. -/
  drained : List (LayerKey × Nat × List Nat) := []
  /-- Checks done, for the probe slots of R191. -/
  checks : Nat := 0
  deriving DecidableEq, Repr

/-- A layer step of one sequence at work (R157–R177). -/
structure LayerStep where
  key : LayerKey
  /-- The array set that drives it: 0, or a replica's number (R283). -/
  replica : Nat := 0
  inputs : List F32
  /-- Largest number of outlier channels in any array step (R166). -/
  outliers : Nat := 0
  replays : Nat := 0
  /-- This attempt takes a split pass (R166); an attempt of the layer step has taken one. -/
  split : Bool := false
  splitDone : Bool := false
  wide : Bool := false
  /-- Row phases of this attempt. -/
  phases : Nat := 1
  /-- The replay of R172 recomputes its input scales. -/
  rescaled : Bool := false
  /-- A part was delivered under R144. -/
  stale : Bool := false
  /-- Finished array steps: array, then row phase, then data pair, in level-steps over correctedUnit. -/
  results : List (Nat × List (List Int)) := []
  /-- Weight rows fetched for outlier channels (R163): column block, row block, row, weights. -/
  rows : List (Nat × Nat × Nat × List F32) := []
  /-- Partials that have arrived: column block, index, (s, c) pairs (R221). -/
  partials : List (Nat × Nat × List (F32 × F32)) := []
  outputs : List F32 := []
  done : Bool := false
  deriving DecidableEq, Repr

/-- What Ezjor has recorded of a layer (R101, R162, R170). -/
structure LayerHistory where
  lane : Nat
  node : Nat
  /-- Layer steps recorded. -/
  steps : Nat := 0
  /-- Recorded steps of the last 65,536 that R168 replayed, newest first, each with its row phases. -/
  replays : List (Nat × Nat) := []
  /-- By row block × 512 + row: the recorded steps of the last 65,536 in which the channel was a candidate, newest first. -/
  candidates : Store (List Nat) := []
  /-- Drive integers of the recorded steps of the last 65,536 by row block, newest first (R100, R152). -/
  tokens : List (List (List Int)) := []
  deriving DecidableEq, Repr

/-! ### Cores, Pergola, memories -/

/-- A window of a core (R255–R264). -/
structure Window where
  open_ : Bool := false
  /-- The other buffer's slot (R246). -/
  other : Option Nat := none
  /-- Planned spans of the openings still to come in the step, and when the next of them is made: once the core has computed from what the
  last one brought (R246). -/
  spans : List Nat := []
  reopens : Option Nat := none
  /-- How long the core computes from one opening, and when it has computed from the last one, in ns. -/
  compute : Nat := 0
  computed : Nat := 0
  /-- Openings in this plan epoch, and what each adds to the tag (R256). -/
  openings : Nat := 0
  stride : BitVec 16 := 1
  direction : Fin 3 := 0
  vc2 : Bool := false
  base : Nat := 0
  lines : Nat := 0
  tag : BitVec 16 := 0
  /-- Lines written since the last opening. -/
  written : List Nat := []
  /-- Elapsed time of the last opening, its planned span, and the length of its guard, in ns (R261). -/
  openedAt : Nat := 0
  span : Nat := 0
  guard : Nat := 0
  /-- Readers declared, and those whose marks have arrived since the last opening (R257); marks received (R264). -/
  readers : List Word := []
  marks : List Word := []
  completions : Nat := 0
  lateWrites : Nat := 0
  lateReads : Nat := 0
  /-- Epoch of the last opening, and the plan node it serves. -/
  epoch : Nat := 0
  lane : Nat := 0
  node : Nat := 0
  deriving DecidableEq, Repr

/-- A core's windows and late-access counts (R263). -/
structure Core where
  windows : List Window := List.replicate 8 {}
  lateWrites : Word := 0
  lateReads : Word := 0
  /-- Epochs in which a late access occurred, newest first (R262). -/
  lateEpochs : List Nat := []
  /-- Credits each VC2 sender holds at the core's receiving port; 64 where none is listed (R244). -/
  credits : List (Word × Nat) := []
  /-- Lines of tile memory that remote accesses have touched, and what the last remote read was answered with. -/
  tile : Store Bytes := []
  lastRead : Bytes := []
  deriving DecidableEq, Repr

/-- Counts and repairs of the memory tier and on-chip SRAM (R500–R507). -/
structure Reliability where
  /-- Corrected reads by row: (key, host times). -/
  rowCorrections : List (Nat × List Nat) := []
  /-- Scrub passes that found the row wrong, by number. -/
  rowScrubs : List (Nat × List Nat) := []
  symbolCorrections : List (Nat × List Nat) := []
  pseudoCorrections : List (Nat × Nat) := []
  /-- Rows repaired (soft), rows to repair hard at the next chip reset, spare rows used by bank key. -/
  rowRepairs : List Nat := []
  hardRepairs : List Nat := []
  laneRepairsDue : List Nat := []
  laneRepairs : List Nat := []
  /-- Spare lines used by SRAM bank, and the remap table: (bank, line). -/
  remaps : List (SramBank × Word) := []
  retiredBanks : List SramBank := []
  /-- Gatehouse spare banks left (R506). -/
  gatehouseSpares : Nat := 2
  /-- Failures of one flit at each Pergola link (R240). -/
  linkFails : List (Nat × Nat) := []
  scrubPasses : List Nat := [0, 0, 0, 0]
  /-- Re-hash period in hours (R350). -/
  rehashHours : Nat := 24
  deriving DecidableEq, Repr

/-- A repair adapter of a layer (R154). -/
structure RepairAdapter where
  lane : Nat
  node : Nat
  replica : Nat := 0
  /-- The arrays whose stuck cells it absorbs. -/
  arrays : List ArrayNo
  /-- Its layer runs on the wide path until it takes effect (R155). -/
  wide : Bool := false
  inEffect : Bool := false
  startedAt : Nat
  /-- What its training made, once accepted, and the running mean of the gradient norm (R174). -/
  trained : Option TrainedAdapter := none
  mean : F32 := 0
  /-- Iterations kept and discarded. -/
  kept : Nat := 0
  dropped : Nat := 0
  deriving DecidableEq, Repr

/-- An installed probe pack (R526–R531). -/
structure ProbePack where
  number : Nat
  vendor : Bool
  bytes : Bytes
  run : Nat := 0
  passed : Nat := 0
  failed : Nat := 0
  next : Nat := 0
  deriving DecidableEq, Repr

/-! ### Fabric and pair -/

/-- A datagram sent and not yet acknowledged (R482). -/
structure Unacked where
  sequence : Nat
  payload : Bytes
  attempts : Nat := 0
  sentAt : Nat
  destination : BitVec 128
  /-- A read request for a shard: object kind, handle, generation and shard index. -/
  fetch : Option (ObjKind × Nat × Nat × Nat) := none
  deriving DecidableEq, Repr

/-- What a message over the fabric asks for, so far as a refusal can name it (R480, R481): a shard, by object kind, handle, generation and index; or
the place of a KV block, by request and position. -/
inductive Purpose where
  | shard (fetch : ObjKind × Nat × Nat × Nat)
  | block (request index : Nat)
  deriving DecidableEq, Repr

/-- A read request or a write that a refusal may still name: the sequence of its datagram, or the number of its first flit (R479–R481). -/
structure Asked where
  sequence : Nat
  destination : BitVec 128
  purpose : Purpose
  deriving DecidableEq, Repr

/-- A fabric port (R472–R483). -/
structure Port where
  mode : Nat := 0
  /-- 0 down, 1 training, 2 up, 3 up on fewer lanes, 4 failed. -/
  state : Nat := 0
  lanes : Nat := 0
  profile : Nat := 0
  offeredBackplane : Bool := true
  corrected : Word := 0
  resends : Nat := 0
  uncorrectable : Nat := 0
  /-- Next flit expected, next flit to send, highest acknowledged; failures of the flit named last. -/
  rxNext : Nat := 0
  txNext : Nat := 0
  acked : Nat := 0
  failSeq : Nat := 0
  failCount : Nat := 0
  /-- Retry buffer: flits sent and not acknowledged, oldest first, at most 1,024. -/
  retry : List (Nat × Bytes) := []
  /-- Credits per virtual channel: flits that may still be sent. -/
  credits : List Nat := [256, 256, 256, 256]
  /-- Negative acknowledgements sent, newest first. -/
  naks : List Nat := []
  /-- Data flits taken from each virtual channel since credits were last returned. -/
  freed : List Nat := [0, 0, 0, 0]
  /-- Retraining after eight failures of one flit. -/
  retraining : Bool := false
  /-- Per counterpart: highest datagram received in order; next sequence to send (R479). -/
  dgRx : Store Nat := []
  dgTx : Store Nat := []
  unacked : List Unacked := []
  /-- Payloads of data flits that await a credit or room in the retry buffer, oldest first; the first of a message says what it asks. -/
  queued : List (Bytes × Option Purpose) := []
  /-- Read requests and writes that a refusal may still name, newest first. -/
  asked : List Asked := []
  networks : List (BitVec 64) := []
  neighbours : List (BitVec 128 × BitVec 48) := []
  lastHeartbeatIn : Nat := 0
  heartbeatsOut : Nat := 0
  /-- Datagrams and flits sent, newest first. -/
  sent : List Bytes := []
  deriving DecidableEq, Repr

/-- Pair states of R483. -/
inductive PairPhase where
  | unpaired | establishing | paired | partitioned | partnerLost
  deriving DecidableEq, Repr

/-- The pair (R484–R498). -/
structure Pair where
  configured : Bool := false
  phase : PairPhase := .unpaired
  side : Nat := 0
  partnerHash : BitVec 256 := 0
  okIn : Bool := false
  okOut : Bool := false
  startedAt : Nat := 0
  /-- What the partner reported when the pair was formed. -/
  partner : Option PartnerInfo := none
  /-- Lanes whose last step's mirror is not yet acknowledged. -/
  unacked : List Nat := []
  partnerDormant : Bool := false
  /-- Steps 1 to 3 of R485 have passed, and the build of step 4 is awaited. -/
  building : Bool := false
  deriving DecidableEq, Repr

/-- PCI Express link (R410). -/
structure Link where
  up : Bool := false
  rate : Nat := 0
  width : Nat := 0
  vfEnable : Bool := false
  numVfs : Nat := 0
  /-- Data the last read completion carried. -/
  readData : Bytes := []
  deriving DecidableEq, Repr

/-- A weight server (R470). -/
structure WeightServer where
  port : Nat
  udp : BitVec 16
  address : BitVec 128
  object : BitVec 64
  deriving DecidableEq, Repr

/-- The whole module. -/
structure State where
  /-- The commands that wait, first in, first out. -/
  pending : List Instr := []
  /-- Elapsed time in ns: reference-clock and Lodge-timer time. -/
  now : Nat := 0
  /-- The model's own counter: which free value comes next (log entry 4). -/
  freeIdx : Nat := 0
  /-- Elapsed time in ns during which the module was not Off (R69 word 3). -/
  powered : Nat := 0
  fuses : Fuses := {}
  boot : Boot := {}
  power : Power := {}
  thermal : Thermal := {}
  lodge : Lodge := {}
  counts : List RecordCount := []
  link : Link := {}
  fns : Store FnState := []
  queues : Store SubQueue := []
  rings : Store ReplyRing := []
  spdm : List Spdm := []
  sessions : Store Session := []
  jobs : List Job := []
  /-- Long opcodes that wait until Dormant ends (R567). -/
  dormantWait : List Ctx := []
  time : HostTime := {}
  accounts : Store Account := []
  objects : List LoadedObject := []
  publisherKeys : Store (BitVec 256 × BitVec 256) := []
  servers : Store WeightServer := []
  graphs : Store Graph := []
  lanes : Store Lane := []
  planner : Planner := {}
  requests : Store Request := []
  nextOrder : Nat := 0
  kv : Kv := {}
  arrays : Store OrArray := []
  sites : Store Site := []
  quartz : Store Quartz := []
  layerSteps : List LayerStep := []
  histories : List LayerHistory := []
  repairAdapters : List RepairAdapter := []
  cores : Store Core := []
  reliability : Reliability := {}
  probes : List ProbePack := []
  ports : List Port := List.replicate 16 {}
  pair : Pair := {}
  /-- How often ARRAY_ERASE_ALL has run: it adds one to the wear count of every array (R600). -/
  erases : Nat := 0
  /-- Measurements 1–7 as the last GET_MEASUREMENTS response carried them (R551). -/
  measured : List Bytes := []
  /-- Host memory as the engine's DMA has written it. -/
  hostMem : Memory := {}
  /-- Gatehouse SRAM and the firmware regions as BAR4 maps them (R558). -/
  debugMem : Memory := {}
  deriving DecidableEq, Repr

/-- The module Off: no supply, arrays erased, nothing loaded (R600). -/
def State.off : State :=
  { boot := { sequence := .unpowered }
    power := { state := .off, mainMillivolts := 0, standbyMillivolts := 0 }
    lodge := { alive := false } }

/-- The module right after a cold power-on begins (R585, event A of R588): the standby input stands, the Lodge ROM is
verifying the Lodge image, the main rails are off, RESET_CTL Last reset reads 0. -/
def State.reset : State := {}

end Sys2Proof.Machine
end

