-- ==== Sys2Proof/Machine/Bits.lean ====
section
/-! DEFINITION. Maps by number, bytes and words in the manual's byte order (R9), packed bit fields (R8), addressed memory. -/

namespace Sys2Proof.Machine

/-! ### Maps by number -/

/-- The entry of a map. -/
def sget {α : Type} : Store α → Nat → Option α
  | [], _ => none
  | (k, v) :: r, n => if k = n then some v else sget r n

/-- The entry of a map, or a default. -/
def sgetD {α : Type} (m : Store α) (n : Nat) (d : α) : α := (sget m n).getD d

/-- Sets an entry, keeping the keys rising. -/
def sput {α : Type} : Store α → Nat → α → Store α
  | [], n, v => [(n, v)]
  | (k, w) :: r, n, v =>
    if n < k then (n, v) :: (k, w) :: r
    else if n = k then (n, v) :: r
    else (k, w) :: sput r n v

/-- Removes an entry. -/
def sdel {α : Type} (m : Store α) (n : Nat) : Store α := m.filter (fun e => e.1 ≠ n)

/-- Changes an entry if it is there. -/
def smod {α : Type} (m : Store α) (n : Nat) (f : α → α) : Store α :=
  m.map (fun e => if e.1 = n then (e.1, f e.2) else e)

/-- Changes every entry. -/
def smapAll {α : Type} (m : Store α) (f : Nat → α → α) : Store α := m.map (fun e => (e.1, f e.1 e.2))

/-- Whether an entry is there. -/
def shas {α : Type} (m : Store α) (n : Nat) : Bool := (sget m n).isSome

/-- The lowest number from `n` on, below `n + fuel`, that a map does not hold. -/
def firstFree {α : Type} (m : Store α) : Nat → Nat → Option Nat
  | _, 0 => none
  | n, fuel + 1 => if shas m n then firstFree m (n + 1) fuel else some n

/-- Element of a list, or a default. -/
def lgetD {α : Type} (l : List α) (i : Nat) (d : α) : α := (l[i]?).getD d

/-- Changes an element of a list if it is there. -/
def lmod {α : Type} (l : List α) (i : Nat) (f : α → α) : List α := l.modify i f

/-! ### Numbers, bytes and words -/

/-- Adds one to a count that stops at `top`. -/
def satSucc (top n : Nat) : Nat := if n < top then n + 1 else n

/-- Adds to a 32-bit count that stops at 0xFFFF_FFFF (R104, R194, R217, R263). -/
def satAdd32 (w : Word) (n : Nat) : Word :=
  BitVec.ofNat 32 (min (w.toNat + n) 0xFFFFFFFF)

/-- The least of a number and the largest a field holds. -/
def clip (top n : Nat) : Nat := min n top

/-- The low bits of a two's-complement number. -/
def twos (width : Nat) (i : Int) : Nat := (BitVec.ofInt width i).toNat

/-- `n` bytes of a number, least significant first (R9). -/
def leBytes : Nat → Nat → Bytes
  | 0, _ => []
  | n + 1, v => BitVec.ofNat 8 v :: leBytes n (v / 256)

/-- The number little-endian bytes stand for. -/
def leNat : Bytes → Nat
  | [] => 0
  | b :: r => b.toNat + 256 * leNat r

/-- `n` bytes of a number, most significant first (keys, nonces and signatures, R524). -/
def beBytes (n v : Nat) : Bytes := (leBytes n v).reverse

/-- The number big-endian bytes stand for. -/
def beNat (b : Bytes) : Nat := leNat b.reverse

/-- `len` bytes from an offset. -/
def slice (b : Bytes) (off len : Nat) : Bytes := (b.drop off).take len

/-- The little-endian number in `len` bytes from an offset. -/
def leAt (b : Bytes) (off len : Nat) : Nat := leNat (slice b off len)

/-- The big-endian number in `len` bytes from an offset. -/
def beAt (b : Bytes) (off len : Nat) : Nat := beNat (slice b off len)

/-- Bits `hi..lo` of a number (R8). -/
def fld (w hi lo : Nat) : Nat := w / 2 ^ lo % 2 ^ (hi + 1 - lo)

/-- A word made of fields, each given as (lowest bit, width, value). -/
def packW (fs : List (Nat × Nat × Nat)) : Nat :=
  fs.foldl (fun acc f => acc + f.2.2 % 2 ^ f.2.1 * 2 ^ f.1) 0

/-- 32-bit words as bytes, each little-endian (R9). -/
def wordBytes (ws : List Nat) : Bytes := ws.flatMap (leBytes 4)

/-- Writes bytes into a run of bytes at an offset. -/
def patch (b : Bytes) (off : Nat) (new : Bytes) : Bytes :=
  b.take off ++ new ++ b.drop (off + new.length)

/-- Pads or cuts a run of bytes to a length. -/
def padTo (n : Nat) (b : Bytes) : Bytes := (b ++ List.replicate (n - b.length) 0).take n

/-- Whether every byte is zero. -/
def allZero (b : Bytes) : Bool := b.all (fun x => x = 0)

/-- Offset of the first non-zero byte of a range, if there is one. -/
def firstNonZero (b : Bytes) (off : Nat) : Nat → Option Nat
  | 0 => none
  | n + 1 => if lgetD b off 0 = 0 then firstNonZero b (off + 1) n else some off

/-! ### Addressed memory -/

/-- Reads one byte; an unlisted address reads 0 (log entry 5). -/
def cellsRead : List Host.Cell → Nat → Byte
  | [], _ => 0
  | (k, v) :: r, a => if k = a then v else cellsRead r a

/-- Writes one byte, keeping addresses rising and listing no zero. -/
def cellsWrite : List Host.Cell → Nat → Byte → List Host.Cell
  | [], a, v => if v = 0 then [] else [(a, v)]
  | (k, w) :: r, a, v =>
    if a < k then (if v = 0 then (k, w) :: r else (a, v) :: (k, w) :: r)
    else if a = k then (if v = 0 then r else (a, v) :: r)
    else (k, w) :: cellsWrite r a v

/-- The byte at an address. -/
def memRead (m : Memory) (a : Nat) : Byte := cellsRead m.cells a

/-- Writes the byte at an address. -/
def memWrite (m : Memory) (a : Nat) (v : Byte) : Memory := ⟨cellsWrite m.cells a v⟩

/-- Writes bytes at rising addresses. -/
def memWriteBytes (m : Memory) (a : Nat) : Bytes → Memory
  | [] => m
  | b :: r => memWriteBytes (memWrite m a b) (a + 1) r

/-- Reads `n` bytes from an address. -/
def memReadBytes (m : Memory) (a : Nat) : Nat → Bytes
  | 0 => []
  | n + 1 => memRead m a :: memReadBytes m (a + 1) n

/-- The canonical form: addresses strictly rising, no cell zero. -/
def Memory.wf (m : Memory) : Bool :=
  decide ((m.cells.map (·.1)).Pairwise (· < ·)) && m.cells.all (fun c => c.2 ≠ 0)

end Sys2Proof.Machine
end

