-- ==== Sys2Proof/Machine/Crypto.lean ====
section
/-! DEFINITION. The check codes the manual names: CRC-32C (R203), SHA-256, HMAC-SHA-256, HKDF-Expand (R553), and ECDSA P-256
verification (R345, R538, R557). SHA-256, HMAC, HKDF and P-256 are the published standards the manual names
(PRESUMED, log entry 6). -/

namespace Sys2Proof.Machine

/-! ### CRC-32C -/

/-- One reflected step of the Castagnoli polynomial 0x1EDC_6F41 (R203). -/
def crcStep (c : BitVec 32) : BitVec 32 :=
  if c.getLsbD 0 then (c >>> 1) ^^^ 0x82F63B78#32 else c >>> 1

/-- Eight steps for one byte. -/
def crcByte (c : BitVec 32) (b : Byte) : BitVec 32 :=
  let x := c ^^^ b.zeroExtend 32
  crcStep (crcStep (crcStep (crcStep (crcStep (crcStep (crcStep (crcStep x)))))))

/-- CRC-32C: initial value and final exclusive-or 0xFFFF_FFFF (R203). -/
def crc32c (bs : Bytes) : BitVec 32 := (bs.foldl crcByte 0xFFFFFFFF#32) ^^^ 0xFFFFFFFF#32

/-! ### SHA-256 -/

/-- The 32-bit digits of a number, most significant first. -/
def digits32 : Nat → Nat → List Nat
  | 0, _ => []
  | n + 1, v => Nat.mod (Nat.shiftRight v (Nat.mul 32 n)) 4294967296 :: digits32 n v

/-- The round constants of FIPS 180-4, sixteen to a number. -/
def shaK : List Nat :=
  digits32 16 0x428a2f9871374491b5c0fbcfe9b5dba53956c25b59f111f1923f82a4ab1c5ed5d807aa9812835b01243185be550c7dc372be5d7480deb1fe9bdc06a7c19bf174 ++
  digits32 16 0xe49b69c1efbe47860fc19dc6240ca1cc2de92c6f4a7484aa5cb0a9dc76f988da983e5152a831c66db00327c8bf597fc7c6e00bf3d5a7914706ca635114292967 ++
  digits32 16 0x27b70a852e1b21384d2c6dfc53380d13650a7354766a0abb81c2c92e92722c85a2bfe8a1a81a664bc24b8b70c76c51a3d192e819d6990624f40e3585106aa070 ++
  digits32 16 0x19a4c1161e376c082748774c34b0bcb5391c0cb34ed8aa4a5b9cca4f682e6ff3748f82ee78a5636f84c878148cc7020890befffaa4506cebbef9a3f7c67178f2

/-- The initial hash value of FIPS 180-4. -/
def shaInit : List Nat := digits32 8 0x6a09e667bb67ae853c6ef372a54ff53a510e527f9b05688c1f83d9ab5be0cd19

/-! Words of 32 bits are numbers below 2^32; the functions of the standard are written with the functions of Nat themselves,
which the kernel evaluates at once. -/

def add32 (a b : Nat) : Nat := Nat.mod (Nat.add a b) 4294967296

/-- Rotation to the right. -/
def rotr (x n : Nat) : Nat := Nat.lor (Nat.shiftRight x n) (Nat.mod (Nat.shiftLeft x (Nat.sub 32 n)) 4294967296)

def xor3 (a b c : Nat) : Nat := Nat.xor (Nat.xor a b) c

/-- The word of the message schedule 16 places after w0. -/
def shaNext (w0 w1 w9 w14 : Nat) : Nat :=
  add32 (add32 w0 (xor3 (rotr w1 7) (rotr w1 18) (Nat.shiftRight w1 3)))
    (add32 w9 (xor3 (rotr w14 17) (rotr w14 19) (Nat.shiftRight w14 10)))

/-- The message schedule from its first 16 words on, one more for each element of the first list. -/
def shaSchedule : List Nat → List Nat → List Nat
  | [], w => w
  | _ :: n, [a, b, c, d, e, f, g, h, i, j, k, l, m, o, p, q] =>
    a :: shaSchedule n [b, c, d, e, f, g, h, i, j, k, l, m, o, p, q, shaNext a b j p]
  | _ :: _, w => w

/-- One round over the eight working words. -/
def shaRound (h : List Nat) (kw : Nat × Nat) : List Nat :=
  match h with
  | [a, b, c, d, e, f, g, x] =>
    let s1 := xor3 (rotr e 6) (rotr e 11) (rotr e 25)
    let ch := Nat.xor (Nat.land e f) (Nat.land (Nat.sub 4294967295 e) g)
    let t1 := add32 (add32 (add32 x s1) ch) (add32 kw.1 kw.2)
    let s0 := xor3 (rotr a 2) (rotr a 13) (rotr a 22)
    let mj := xor3 (Nat.land a b) (Nat.land a c) (Nat.land b c)
    [add32 t1 (add32 s0 mj), a, b, c, add32 d t1, e, f, g]
  | other => other

/-- Big-endian words of a message. -/
def shaWords : Bytes → List Nat
  | a :: b :: c :: d :: r =>
    Nat.add (Nat.mul a.toNat 16777216) (Nat.add (Nat.mul b.toNat 65536) (Nat.add (Nat.mul c.toNat 256) d.toNat)) :: shaWords r
  | _ => []

/-- Compresses one block of 16 words. -/
def shaBlock (h w : List Nat) : List Nat :=
  List.zipWith add32 h ((shaK.zip (shaSchedule (shaK.drop 16) w)).foldl shaRound h)

/-- The blocks of a padded message; `fuel` bounds their number. -/
def shaBlocks : Nat → List Nat → List Nat → List Nat
  | 0, h, _ => h
  | n + 1, h, m => if m.isEmpty then h else shaBlocks n (shaBlock h (m.take 16)) (m.drop 16)

/-- The padding of a message of `n` bytes. -/
def shaPad (n : Nat) : Bytes :=
  (0x80#8) :: List.replicate ((119 - n % 64) % 64) 0 ++ beBytes 8 (8 * n)

/-- SHA-256, as a number read big-endian. -/
def sha256 (m : Bytes) : BitVec 256 :=
  let padded := m ++ shaPad m.length
  let h := shaBlocks (padded.length / 64 + 1) shaInit (shaWords padded)
  BitVec.ofNat 256 (h.foldl (fun acc w => acc * 4294967296 + w) 0)

/-- The 32 bytes of a SHA-256 digest. -/
def digestBytes (d : BitVec 256) : Bytes := beBytes 32 d.toNat

/-- HMAC-SHA-256 with a key of at most 64 bytes. -/
def hmac (key m : Bytes) : Bytes :=
  let k := padTo 64 key
  let inner := sha256 (k.map (fun b => b ^^^ 0x36#8) ++ m)
  digestBytes (sha256 (k.map (fun b => b ^^^ 0x5C#8) ++ digestBytes inner))

/-- "G9 host cmd" in ASCII (R553). -/
def hostCmdLabel : Bytes := [0x47, 0x39, 0x20, 0x68, 0x6F, 0x73, 0x74, 0x20, 0x63, 0x6D, 0x64]

/-- The key of a host session: HKDF-Expand of the exported master secret, 32 bytes, one HMAC block (R553). -/
def sessionKey (secret : Bytes) (h : Nat) : Bytes :=
  hmac secret (hostCmdLabel ++ leBytes 2 h ++ [0x01])

/-! ### ECDSA P-256 -/

def p256p : Nat := 0xffffffff00000001000000000000000000000000ffffffffffffffffffffffff
def p256n : Nat := 0xffffffff00000000ffffffffffffffffbce6faada7179e84f3b9cac2fc632551
def p256b : Nat := 0x5ac635d8aa3a93e7b3ebbd55769886bc651d06b0cc53b0f63bce3c3e27d2604b

/-- A point in Jacobian coordinates: (X / Z², Y / Z³), at infinity where Z is 0. -/
abbrev Point := Nat × Nat × Nat

def infinity : Point := (1, 1, 0)

/-- The base point. -/
def p256g : Point :=
  (0x6b17d1f2e12c4247f8bce6e563a440f277037d812deb33a0f4a13945d898c296,
   0x4fe342e2fe1a7f9b8ee7eb4a7c0f9e162bce33576b315ececbb6406837bf51f5, 1)

/-- Power modulo m by squaring; `fuel` bits of the exponent. -/
def powMod (m : Nat) : Nat → Nat → Nat → Nat
  | 0, _, _ => 1 % m
  | fuel + 1, b, e =>
    let r := powMod m fuel (b * b % m) (e / 2)
    if e % 2 = 1 then b * r % m else r

/-- Inverse modulo a prime. -/
def invMod (m a : Nat) : Nat := powMod m 256 (a % m) (m - 2)

/-- Whether a point lies on the curve, its coordinates below the field's prime. -/
def onCurve (x y : Nat) : Bool :=
  decide (x < p256p) && decide (y < p256p) &&
  decide (y * y % p256p = (x * x % p256p * x + (p256p - 3) * x + p256b) % p256p)

/-- Difference and product in the field. -/
def fieldSub (a b : Nat) : Nat := (a + p256p - b) % p256p
def fieldMul (a b : Nat) : Nat := a * b % p256p

/-- Twice a point, on the curve with a = -3. -/
def ecDouble : Point → Point
  | (x, y, z) =>
    let yy := fieldMul y y
    let zz := fieldMul z z
    let s := fieldMul 4 (fieldMul x yy)
    let m := fieldMul 3 (fieldMul (fieldSub x zz) (x + zz))
    let x3 := fieldSub (fieldMul m m) (2 * s % p256p)
    (x3, fieldSub (fieldMul m (fieldSub s x3)) (fieldMul 8 (fieldMul yy yy)), fieldMul 2 (fieldMul y z))

/-- Addition of points. -/
def ecAdd : Point → Point → Point
  | (x1, y1, z1), (x2, y2, z2) =>
    if z1 = 0 then (x2, y2, z2)
    else if z2 = 0 then (x1, y1, z1)
    else
      let a := fieldMul z1 z1
      let b := fieldMul z2 z2
      let u := fieldMul x1 b
      let h := fieldSub (fieldMul x2 a) u
      let s := fieldMul y1 (fieldMul z2 b)
      let r := fieldSub (fieldMul y2 (fieldMul z1 a)) s
      if h = 0 then (if r = 0 then ecDouble (x1, y1, z1) else infinity)
      else
        let hh := fieldMul h h
        let v := fieldMul u hh
        let w := fieldMul h hh
        let x3 := fieldSub (fieldMul r r) ((w + 2 * v) % p256p)
        (x3, fieldSub (fieldMul r (fieldSub v x3)) (fieldMul s w), fieldMul h (fieldMul z1 z2))

/-- Multiple of a point, by doubling; `fuel` bits of the factor. -/
def ecMul : Nat → Nat → Point → Point
  | 0, _, _ => infinity
  | fuel + 1, k, p =>
    let r := ecMul fuel (k / 2) (ecDouble p)
    if k % 2 = 1 then ecAdd p r else r

/-- Whether (r, s) is a signature of a digest under the public key (x, y). -/
def ecdsaVerify (x y : Nat) (digest : BitVec 256) (r s : Nat) : Bool :=
  if onCurve x y && decide (0 < r) && decide (r < p256n) && decide (0 < s) && decide (s < p256n) then
    let w := invMod p256n s
    match ecAdd (ecMul 256 (digest.toNat * w % p256n) p256g) (ecMul 256 (r * w % p256n) (x, y, 1)) with
    | (px, _, pz) => decide (pz ≠ 0) && decide (fieldMul px (invMod p256p (fieldMul pz pz)) % p256n = r)
  else false

end Sys2Proof.Machine
end

