-- ==== Sys2Proof/Machine/Numerics.lean ====
section
/-! DEFINITION. Number formats and accumulation: layouts, conversions, narrow bursts, compensated sums, top-k (R195–R231),
weights on levels (R26–R55), column conversion (R71, R72), drive integers (R159–R161), KV quantisation (R324),
attention (R312–R314). Exact values are integers times powers of two; every rounding is to nearest, ties to even. -/

namespace Sys2Proof.Machine

/-! ### Values -/

/-- The value of a floating-point code: fin is (−1)^neg × num × 2^e. -/
inductive FVal where
  | nan
  | inf (neg : Bool)
  | fin (neg : Bool) (num : Nat) (e : Int)
  deriving DecidableEq, Repr

/-- A scalar floating-point layout (R196): exponent bits, mantissa bits, bias, and how its top codes read. -/
structure FFmt where
  expBits : Nat
  manBits : Nat
  bias : Nat
  /-- 0: infinities and NaNs as FP32; 1: one NaN, no infinity (E4M3); 2: neither. -/
  top : Nat
  deriving DecidableEq, Repr

def fmtF32 : FFmt := ⟨8, 23, 127, 0⟩
def fmtF16 : FFmt := ⟨5, 10, 15, 0⟩
def fmtBF16 : FFmt := ⟨8, 7, 127, 0⟩
def fmtE4M3 : FFmt := ⟨4, 3, 7, 1⟩
def fmtE5M2 : FFmt := ⟨5, 2, 15, 0⟩
def fmtE2M3 : FFmt := ⟨2, 3, 1, 2⟩
def fmtE3M2 : FFmt := ⟨3, 2, 3, 2⟩
def fmtE2M1 : FFmt := ⟨2, 1, 1, 2⟩

/-- Division rounded to nearest, ties to even. -/
def rne (num den : Nat) : Nat :=
  let d := num / den
  let r := num % den
  if 2 * r < den then d else if den < 2 * r then d + 1 else if d % 2 = 0 then d else d + 1

/-- Signed division rounded to nearest, ties to even. -/
def rneInt (num : Int) (den : Nat) : Int :=
  if num < 0 then -(Int.ofNat (rne num.natAbs den)) else Int.ofNat (rne num.natAbs den)

/-- num × 2^e over den, as a fraction. -/
def scaled (num den : Nat) (e : Int) : Nat × Nat :=
  if 0 ≤ e then (num * 2 ^ e.toNat, den) else (num, den * 2 ^ (-e).toNat)

/-- The value of a code in a format (R196); subnormals have exponent field zero. -/
def fDecode (f : FFmt) (c : Nat) : FVal :=
  let man := c % 2 ^ f.manBits
  let exp := c / 2 ^ f.manBits % 2 ^ f.expBits
  let neg := decide (c / 2 ^ (f.manBits + f.expBits) % 2 = 1)
  let q : Int := 1 - Int.ofNat f.bias - Int.ofNat f.manBits
  if f.top = 0 ∧ exp = 2 ^ f.expBits - 1 then (if man = 0 then .inf neg else .nan)
  else if f.top = 1 ∧ exp = 2 ^ f.expBits - 1 ∧ man = 2 ^ f.manBits - 1 then .nan
  else if exp = 0 then .fin neg man q
  else .fin neg (man + 2 ^ f.manBits) (q + Int.ofNat (exp - 1))

/-- Largest finite magnitude as a code without sign. -/
def fMax (f : FFmt) : Nat :=
  if f.top = 0 then 2 ^ (f.manBits + f.expBits) - 2 ^ f.manBits - 1
  else if f.top = 1 then 2 ^ (f.manBits + f.expBits) - 2
  else 2 ^ (f.manBits + f.expBits) - 1

/-- The exponent of the leading bit of num/den. -/
def leadExp (num den : Nat) : Int :=
  let l : Int := Int.ofNat num.log2 - Int.ofNat den.log2
  let s := scaled 1 1 l
  if num * s.2 < den * s.1 then l - 1 else l

/-- Magnitude code nearest to num/den, as if the exponent range were unbounded upward (R212). -/
def fRound (f : FFmt) (num den : Nat) : Nat :=
  if num = 0 then 0
  else
    let qmin : Int := 1 - Int.ofNat f.bias - Int.ofNat f.manBits
    let q := max qmin (leadExp num den - Int.ofNat f.manBits)
    let s := scaled num den (-q)
    let m := rne s.1 s.2
    m + (q - qmin).toNat * 2 ^ f.manBits

/-- The sign bit of a format. -/
def fSign (f : FFmt) (neg : Bool) : Nat := if neg then 2 ^ (f.manBits + f.expBits) else 0

/-- Canonical NaN codes of R212. -/
def fNaN (f : FFmt) : Nat :=
  if f = fmtF32 then 0x7FC00000 else if f = fmtF16 then 0x7E00 else if f = fmtBF16 then 0x7FC0
  else if f = fmtE5M2 then 0x7E else if f = fmtE4M3 then 0x7F else fMax f

/-- Conversion of an exact value to a format (R212). -/
def fEncode (f : FFmt) : FVal → Nat
  | .nan => fNaN f
  | .inf neg => if f = fmtE4M3 then 0x7F else if f.top = 0 then fSign f neg + (fMax f + 1) else fSign f neg + fMax f
  | .fin neg num e =>
    let s := scaled num 1 e
    let m := fRound f s.1 s.2
    if m ≤ fMax f then fSign f neg + m
    else if f.top = 0 ∧ f ≠ fmtE5M2 then fSign f neg + (fMax f + 1)
    else fSign f neg + fMax f

/-- Conversion to INT8 (R212): rounded to an integer, clamped; NaN gives 0. -/
def toInt8 : FVal → Int
  | .nan => 0
  | .inf neg => if neg then -128 else 127
  | .fin neg num e =>
    let s := scaled num 1 e
    let m := Int.ofNat (rne s.1 s.2)
    max (-128) (min 127 (if neg then -m else m))

/-! ### FP32 arithmetic -/

def f32 (v : FVal) : F32 := BitVec.ofNat 32 (fEncode fmtF32 v)

def f32v (x : F32) : FVal := fDecode fmtF32 x.toNat

def f32NaN : F32 := 0x7FC00000#32

def f32Inf (neg : Bool) : F32 := if neg then 0xFF800000#32 else 0x7F800000#32

def f32isFinite (x : F32) : Bool := match f32v x with | .fin _ _ _ => true | _ => false

def f32isNaN (x : F32) : Bool := match f32v x with | .nan => true | _ => false

def f32neg (x : F32) : F32 := x ^^^ 0x80000000#32

def f32abs (x : F32) : F32 := x &&& 0x7FFFFFFF#32

/-- num/den with a sign, rounded to FP32. -/
def f32frac (neg : Bool) (num den : Nat) : F32 :=
  let m := fRound fmtF32 num den
  BitVec.ofNat 32 (fSign fmtF32 neg + (if m ≤ fMax fmtF32 then m else fMax fmtF32 + 1))

/-- An integer as FP32. -/
def f32int (i : Int) : F32 := f32 (.fin (decide (i < 0)) i.natAbs 0)

/-- Exact signed integer of a finite value at a common exponent. -/
def atExp (neg : Bool) (num : Nat) (e base : Int) : Int :=
  let m := Int.ofNat (num * 2 ^ (e - base).toNat)
  if neg then -m else m

/-- IEEE 754 addition, rounding to nearest, ties to even. -/
def f32add (x y : F32) : F32 :=
  match f32v x, f32v y with
  | .nan, _ => f32NaN
  | _, .nan => f32NaN
  | .inf a, .inf b => if a = b then f32Inf a else f32NaN
  | .inf a, _ => f32Inf a
  | _, .inf b => f32Inf b
  | .fin a m e, .fin b n g =>
    let base := min e g
    let t := atExp a m e base + atExp b n g base
    if t = 0 then (if a && b then 0x80000000#32 else 0)
    else f32 (.fin (decide (t < 0)) t.natAbs base)

def f32sub (x y : F32) : F32 := f32add x (f32neg y)

/-- IEEE 754 multiplication. -/
def f32mul (x y : F32) : F32 :=
  match f32v x, f32v y with
  | .nan, _ => f32NaN
  | _, .nan => f32NaN
  | .inf a, .inf b => f32Inf (a != b)
  | .inf a, .fin b n _ => if n = 0 then f32NaN else f32Inf (a != b)
  | .fin a m _, .inf b => if m = 0 then f32NaN else f32Inf (a != b)
  | .fin a m e, .fin b n g => f32 (.fin (a != b) (m * n) (e + g))

/-- IEEE 754 division. -/
def f32div (x y : F32) : F32 :=
  match f32v x, f32v y with
  | .nan, _ => f32NaN
  | _, .nan => f32NaN
  | .inf _, .inf _ => f32NaN
  | .inf a, .fin b _ _ => f32Inf (a != b)
  | .fin a _ _, .inf b => if a != b then 0x80000000#32 else 0
  | .fin a m e, .fin b n g =>
    if n = 0 then (if m = 0 then f32NaN else f32Inf (a != b))
    else let s := scaled m n (e - g); f32frac (a != b) s.1 s.2

/-- Order of FP32 values; NaN compares with nothing, −0 equals +0 (R227). -/
def f32lt (x y : F32) : Bool :=
  match f32v x, f32v y with
  | .nan, _ => false
  | _, .nan => false
  | .inf a, .inf b => a && !b
  | .inf a, _ => a
  | _, .inf b => !b
  | .fin a m e, .fin b n g =>
    let base := min e g
    decide (atExp a m e base < atExp b n g base)

def f32eqv (x y : F32) : Bool := !f32isNaN x && !f32isNaN y && !f32lt x y && !f32lt y x

def f32le (x y : F32) : Bool := f32lt x y || f32eqv x y

def f32max (x y : F32) : F32 := if f32lt x y then y else x

/-- Square root to nearest of a non-negative num/den, as FP32. -/
def f32sqrtFrac (num den : Nat) : F32 :=
  if num = 0 then 0
  else
    -- 64 guard bits beyond the leading bit make the integer root exact enough to round
    let sh := 160 + 2 * den.log2
    f32frac false (Nat.sqrt (num * den * 4 ^ sh)) (den * 2 ^ sh)

/-- Exact sum of squares of the finite values of a list, as a fraction over 2^298. -/
def sumSquares (xs : List F32) : Nat :=
  xs.foldl (fun acc x => match f32v x with
    | .fin _ m e => acc + (m * 2 ^ (e + 149).toNat) ^ 2
    | _ => acc) 0

/-- How many values are finite. -/
def finiteCount (xs : List F32) : Nat := (xs.filter f32isFinite).length

/-- RMS of the finite values, FP32 (R160, R171). -/
def rms32 (xs : List F32) : F32 :=
  let n := finiteCount xs
  if n = 0 then 0 else f32sqrtFrac (sumSquares xs) (n * 2 ^ 298)

/-! ### Formats by code (R195) -/

/-- Whether a code names a format (R195). -/
def formatKnown (c : Nat) : Bool :=
  [0x01, 0x02, 0x03, 0x04, 0x05, 0x06, 0x10, 0x11, 0x12, 0x13, 0x14, 0x15, 0x20, 0x21, 0x22].contains c

/-- MX formats need rows of whole 32-element blocks (R199, R200). -/
def formatIsMx (c : Nat) : Bool := decide (0x10 ≤ c) && decide (c ≤ 0x15)

/-- Narrow formats, stored as bursts (R201). -/
def formatIsNarrow (c : Nat) : Bool := decide (0x20 ≤ c) && decide (c ≤ 0x22)

/-- Bits of one element; narrow formats are stored as bursts (R202). -/
def elementBits (c : Nat) : Nat :=
  if c = 0x01 then 32 else if c = 0x02 ∨ c = 0x03 then 16
  else if c = 0x04 ∨ c = 0x05 ∨ c = 0x06 ∨ c = 0x10 ∨ c = 0x11 ∨ c = 0x15 then 8
  else if c = 0x12 ∨ c = 0x13 then 6 else if c = 0x14 ∨ c = 0x20 then 4 else 2

/-- Converts FP32 to a scalar output format (R210, R212), as its code. -/
def toFormat (c : Nat) (x : F32) : Nat :=
  let v := f32v x
  if c = 0x02 then fEncode fmtF16 v else if c = 0x03 then fEncode fmtBF16 v
  else if c = 0x04 then fEncode fmtE4M3 v else if c = 0x05 then fEncode fmtE5M2 v
  else if c = 0x06 then twos 8 (toInt8 v)
  else if f32isNaN x then 0x7FC00000 else x.toNat

/-- Decodes a scalar code to FP32: widening conversions are exact (R212). -/
def ofFormat (c code : Nat) : F32 :=
  if c = 0x02 then f32 (fDecode fmtF16 code) else if c = 0x03 then f32 (fDecode fmtBF16 code)
  else if c = 0x04 then f32 (fDecode fmtE4M3 code) else if c = 0x05 then f32 (fDecode fmtE5M2 code)
  else if c = 0x06 then f32int (BitVec.ofNat 8 code).toInt
  else BitVec.ofNat 32 code

/-- E8M0 scale (R197): 2^(e − 127), 0xFF is NaN. -/
def e8m0 (e : Nat) : FVal := if e = 0xFF then .nan else .fin false 1 (Int.ofNat e - 127)

/-- Element formats and the constant m of R213. -/
def mxElement (c : Nat) : FFmt × Nat :=
  if c = 0x10 then (fmtE4M3, 8) else if c = 0x11 then (fmtE5M2, 15) else if c = 0x12 then (fmtE2M3, 2)
  else if c = 0x13 then (fmtE3M2, 4) else (fmtE2M1, 2)

/-- Largest magnitude of a list of finite FP32 values. -/
def maxAbs (xs : List F32) : F32 := xs.foldl (fun m x => f32max m (f32abs x)) 0

/-- Largest magnitude among the finite values only. -/
def maxAbsFinite (xs : List F32) : F32 := maxAbs (xs.filter f32isFinite)

/-- Converts a block of 32 values to an MX format (R213): scale code and element codes. A block with an infinity or
NaN gets block scale 0xFF (R212). -/
def toMx (c : Nat) (xs : List F32) : Nat × List Nat :=
  if !xs.all f32isFinite then (0xFF, xs.map (fun _ => 0))
  else match f32v (maxAbs xs) with
    | .fin _ 0 _ => (0, xs.map (fun _ => 0))
    | .fin _ m e =>
      let mx := mxElement c
      let off : Int := if c = 0x15 then 0 else Int.ofNat mx.2
      let sc := max 0 (min 254 ((leadExp m 1 + e - off) + 127))
      let ex : Int := 127 - sc
      (sc.toNat, xs.map (fun x => match f32v x with
        | .fin neg n g =>
          if c = 0x15 then
            let s := scaled n 1 (g + ex + 6)
            let q := Int.ofNat (min (if neg then 128 else 127) (rne s.1 s.2))
            twos 8 (if neg then -q else q)
          else
            let s := scaled n 1 (g + ex)
            let code := fRound mx.1 s.1 s.2
            fSign mx.1 neg + min code (fMax mx.1)
        | _ => 0))
    | _ => (0xFF, xs.map (fun _ => 0))

/-- The value of an element code of an MX format, before its block scale (R196, R197). -/
def mxValue (c code : Nat) : FVal :=
  if c = 0x15 then
    let v := (BitVec.ofNat 8 code).toInt
    .fin (decide (v < 0)) v.natAbs (-6)
  else fDecode (mxElement c).1 code

/-- A value times a power of two. -/
def shiftVal (k : Int) : FVal → FVal
  | .fin neg m e => .fin neg m (e + k)
  | v => v

/-- An MX element as FP32: its own value times the block scale (R197, R198). -/
def ofMx (c scale code : Nat) : F32 :=
  if scale = 0xFF then f32NaN else f32 (shiftVal (Int.ofNat scale - 127) (mxValue c code))

/-- Code `i` of elements of 4, 6, 8, 16 or 32 bits, packed least significant first (R198): element 2j of FP4 in bits 3..0 of byte
j, element 4j + i of FP6 in bits 6i + 5..6i of the 24-bit group j. -/
def packedCode (bits : Nat) (b : Bytes) (i : Nat) : Nat :=
  if bits = 4 then leAt b (i / 2) 1 / 16 ^ (i % 2) % 16
  else if bits = 6 then leAt b (3 * (i / 4)) 3 / 64 ^ (i % 4) % 64
  else leAt b (bits / 8 * i) (bits / 8)

/-! ### Narrow bursts (R201–R209) -/

/-- Elements of one block, and of one burst (R202). -/
def blockElems (fmt : Nat) : Nat := if fmt = 0x20 then 32 else if fmt = 0x21 then 64 else 80
def burstElems (fmt : Nat) : Nat := 7 * blockElems fmt

/-- Element values of block `j` of a burst's payload (R201). -/
def burstElements (code : Nat) (b : Bytes) (j : Nat) : List Int :=
  (slice b (16 * j) 16).flatMap (fun byte =>
    let n := byte.toNat
    if code = 0x20 then [(BitVec.ofNat 4 n).toInt, (BitVec.ofNat 4 (n / 16)).toInt]
    else if code = 0x21 then (List.range 4).map (fun i => 2 * Int.ofNat (n / 4 ^ i % 4) - 3)
    else (List.range 5).map (fun i => Int.ofNat (n / 3 ^ i % 3) - 1))

/-- One decoded element: v × 2^(e − 127) × S, formed in FP32 (R204). -/
def burstDecode (v : Int) (e : Nat) (super : Nat) : F32 :=
  match fDecode fmtF16 super with
  | .fin neg m x => f32 (.fin (neg != decide (v < 0)) (v.natAbs * m) (x + Int.ofNat e - 127))
  | _ => f32NaN

/-- Elements of a burst, decoded (R204). -/
def burstValues (b : Bytes) : List F32 :=
  (List.range 7).flatMap (fun j =>
    (burstElements (leAt b 119 1) b j).map (fun v => burstDecode v (leAt b (112 + j) 1) (leAt b 120 2)))

/-- Whether a burst's check holds (R202, R203). -/
def burstCheckOk (b : Bytes) : Bool := decide ((crc32c (slice b 0 124)).toNat = leAt b 124 4)

/-- Whether a burst whose first `count` elements lie within its row is malformed for any other reason of R205; the codes of
elements beyond the row are ignored (R208). -/
def burstMalformed (declared count : Nat) (b : Bytes) : Bool :=
  let code := leAt b 119 1
  !(formatIsNarrow code) || decide (code ≠ declared) || decide (leAt b 122 2 ≠ 0)
    || (List.range 7).any (fun j => decide (leAt b (112 + j) 1 = 0xFF))
    || (match fDecode fmtF16 (leAt b 120 2) with | .fin _ _ _ => false | _ => true)
    || (decide (code = 0x22) && (slice b 0 ((count + 4) / 5)).any (fun x => decide (242 < x.toNat)))
    || !(((burstValues b).take count).all f32isFinite)

/-- The code of a value in G4 under a super-scale sm × 2^se and a block scale 2^k (R209, R325). -/
def g4Code (sm : Nat) (se k : Int) (x : F32) : Nat :=
  match f32v x with
  | .fin neg n g =>
    let r := scaled n sm (g - se - k)
    let q := Int.ofNat (min 7 (rne r.1 r.2))
    if sm = 0 then 0 else twos 4 (if neg then -q else q)
  | .inf neg => twos 4 (if neg then -7 else 7)
  | .nan => 0

/-- G4 block scale and codes of up to 32 values under a super-scale: the scale follows from the finite values (R209), an infinity
becomes +7 or −7 and a NaN 0 (R325). -/
def toG4Block (super : Nat) (xs : List F32) : Nat × List Nat :=
  match fDecode fmtF16 super, f32v (maxAbsFinite xs) with
  | .fin _ sm se, .fin _ m e =>
    if m = 0 ∨ sm = 0 then (0, xs.map (g4Code sm se (-127)))
    else
      -- smallest exponent with max / (2^(k) S) ≤ 7
      let s := scaled m (7 * sm) (e - se)
      let l := leadExp s.1 s.2
      let p := scaled 1 1 l
      let k := if s.1 * p.2 ≤ s.2 * p.1 then l else l + 1
      let code := max 0 (min 254 (k + 127))
      (code.toNat, xs.map (g4Code sm se (code - 127)))
  | _, _ => (0, xs.map (fun _ => 0))

/-! ### Weights on levels -/

/-- Reference pair contents: (positive level, negative level) of pair 512 + i in row r (R28). -/
def referenceLevels (pair row : Nat) : Nat × Nat :=
  let enc (w : Int) : Nat × Nat := if 0 ≤ w then (w.toNat, 0) else (0, (-w).toNat)
  match pair with
  | 512 => (15, 0) | 513 => (0, 15) | 514 => (8, 0) | 515 => (0, 8)
  | 516 => (4, 0) | 517 => (0, 4) | 518 => (1, 0) | 519 => (0, 1)
  | 520 => (0, 0) | 521 => (15, 15)
  | 522 => if row % 2 = 0 then (15, 0) else (0, 15)
  | 523 => if row % 2 = 0 then (0, 15) else (15, 0)
  | 524 => enc (Int.ofNat (row % 31) - 15)
  | 525 => enc (15 - Int.ofNat (row % 31))
  | 526 => if row < 256 then (15, 0) else (0, 0)
  | 527 => if row < 256 then (0, 0) else (15, 0)
  | _ => (0, 0)

/-- The weight a pair holds in a row: positive less negative level (R26). -/
def referenceWeight (pair row : Nat) : Int :=
  Int.ofNat (referenceLevels pair row).1 - Int.ofNat (referenceLevels pair row).2

/-- Cell levels of a data pair's weight level (R26). -/
def cellLevels (w : Int) : Nat × Nat := if 0 ≤ w then (w.toNat, 0) else (0, (-w).toNat)

/-- A pair scale in FP16 (R51). R211 has every one finite: where the quotient is too large for the format, a free finite value (log entry 113). -/
def scaleF16 (q : F32) : BitVec 16 :=
  let c := fEncode fmtF16 (f32v q)
  if c / 1024 % 32 = 31 then Config.scaleOverflow q &&& 0x7BFF#16 else BitVec.ofNat 16 c

/-- Scale of a pair: largest magnitude / 15 in FP32, rounded to FP16 (R51). -/
def pairScale (ws : List F32) : BitVec 16 := scaleF16 (f32div (maxAbs ws) (f32int 15))

/-- The level of a weight under a scale (R51, R52). -/
def weightLevel (scale : BitVec 16) (w : F32) : Int :=
  match fDecode fmtF16 scale.toNat, f32v w with
  | .fin _ sm se, .fin neg m e =>
    if sm = 0 then 0
    else
      let s := scaled m sm (e - se)
      let q := Int.ofNat (min 15 (rne s.1 s.2))
      if neg then -q else q
  | _, _ => 0

/-- Splits a list into pieces of `n`; `fuel` bounds their number. -/
def chunks {α : Type} (n : Nat) : Nat → List α → List (List α)
  | 0, _ => []
  | fuel + 1, l => if l.isEmpty then [] else l.take n :: chunks n fuel (l.drop n)

/-- Scales of a pair: one in SUM mode, one per row phase in SEPARATE mode (R53). -/
def pairScales (sum : Bool) (phases : Nat) (ws : List F32) : List (BitVec 16) :=
  if sum then [pairScale ws] else (chunks (512 / phases) phases ws).map pairScale

/-- Levels of a pair's rows (R51–R53). -/
def pairLevels (sum : Bool) (phases : Nat) (ws : List F32) : List Int :=
  if sum then ws.map (weightLevel (pairScale ws))
  else (chunks (512 / phases) phases ws).flatMap (fun c => c.map (weightLevel (pairScale c)))

/-- Level sums of a pair per row phase (R54). -/
def pairLevelSums (phases : Nat) (levels : List Int) : List Int :=
  (chunks (512 / phases) phases levels).map (fun c => c.foldl (· + ·) 0)

/-- High and low nibble of an 8-bit weight integer (R55). -/
def nibbles (q : Int) : Int × Int :=
  let h := Int.ofNat (q.natAbs / 16)
  let l := Int.ofNat (q.natAbs % 16)
  if q < 0 then (-h, -l) else (h, l)

/-- Scale of a pair of an 8-bit layer: largest magnitude / 127, rounded as in R51 (R55; log entry 29). -/
def pairScale8 (ws : List F32) : BitVec 16 := scaleF16 (f32div (maxAbs ws) (f32int 127))

/-- An 8-bit layer's integer of a weight, −127 to +127 (R55). -/
def weightInt8 (scale : BitVec 16) (w : F32) : Int :=
  match fDecode fmtF16 scale.toNat, f32v w with
  | .fin _ sm se, .fin neg m e =>
    if sm = 0 then 0
    else
      let s := scaled m sm (e - se)
      let q := Int.ofNat (min 127 (rne s.1 s.2))
      if neg then -q else q
  | _, _ => 0

/-- How a layer's weights lie in an array: whole levels, or the high or low nibble of 8-bit weights (R51, R55). -/
inductive Nibble where
  | whole | high | low
  deriving DecidableEq, Repr

/-- Scales of a pair of a layer. -/
def layerScales (nib : Nibble) (sum : Bool) (phases : Nat) (ws : List F32) : List (BitVec 16) :=
  match nib with
  | .whole => pairScales sum phases ws
  | _ => if sum then [pairScale8 ws] else (chunks (512 / phases) phases ws).map pairScale8

/-- Levels of a pair of a layer. -/
def layerLevels (nib : Nibble) (sum : Bool) (phases : Nat) (ws : List F32) : List Int :=
  let ints := fun (c : List F32) => c.map (weightInt8 (pairScale8 c))
  let all := fun (_ : Unit) => if sum then ints ws else (chunks (512 / phases) phases ws).flatMap ints
  match nib with
  | .whole => pairLevels sum phases ws
  | .high => (all ()).map (fun q => (nibbles q).1)
  | .low => (all ()).map (fun q => (nibbles q).2)

/-! ### Driving and conversion -/

/-- Rows driven by row phase j of k (R38). -/
def phaseRows (k j : Nat) : Nat × Nat := (j * (512 / k), (j + 1) * (512 / k))

/-- Pulse steps of a drive integer in a mode and sign phase (R32, R35). -/
def pulseSteps (m : InputMode) (negative : Bool) (x : Int) : Nat :=
  match m with
  | .signed => if negative then (-x).toNat else x.toNat
  | .unsigned => x.toNat
  | .offset => (x + 64).toNat

/-- Whether a mode cannot drive an integer (R36). -/
def undrivable (m : InputMode) (x : Int) : Bool :=
  match m with
  | .signed => decide (x < -127) || decide (127 < x)
  | .unsigned => decide (x < 0) || decide (127 < x)
  | .offset => decide (x < -64) || decide (63 < x)

/-- The drive integer of an undriven outlier channel: 0, or 64 pulse steps in OFFSET mode (R37). -/
def outlierInt (_ : InputMode) : Int := 0

/-- Sign phases per row phase (R32). -/
def signPhases (m : InputMode) : Nat := match m with | .signed => 2 | _ => 1

/-- Largest drive of a phase in pulse steps: its drive window in 0.5 ns (R33). -/
def driveWindow (m : InputMode) (negative : Bool) (ints : List Int) : Nat :=
  ints.foldl (fun acc x => max acc (pulseSteps m negative x)) 0

/-- A conversion: 8-bit code and saturation flag for a differential charge in level-steps (R71, R72). Of a charge half-way between
two codes the manual says only that the nearest is returned: the even one is (DESIGN CHOICE, log entry 77). -/
def convert (gain : Fin 4) (charge : Int) : Int × Bool :=
  let step : Int := Int.ofNat (256 / 2 ^ gain.val)
  if 2 * charge > 255 * step then (127, true)
  else if 2 * charge < -257 * step then (-128, true)
  else (max (-128) (min 127 (rneInt charge (256 / 2 ^ gain.val))), false)

/-- DAC code to differential charge in level-steps, per column: (positive, negative) (R105, R106). -/
def dacCharge (target : Nat) (n : Int) : Int × Int :=
  if target = 1 then (n * 64, 0) else if target = 2 then (0, n * 64) else (n * 32, -(n * 32))

/-- How far the test DAC may be off (R105): ±0.5 % of full scale, which is 127 codes at gain ×1, plus ±16 level-steps (log entry
78). -/
def dacTolerance : Int := 178

/-- The corrected result of a code, in units of 1/(256 × 32,768 × 32,768) code (R115). -/
def corrected (entry : Nat × Int) (tau : Nat) (code : Int) : Int :=
  (code * 256 - entry.2) * Int.ofNat entry.1 * Int.ofNat tau

/-- Scale of `corrected`. -/
def correctedUnit : Nat := 256 * 32768 * 32768

/-- Drive integer of an input under an input scale: x / s rounded to nearest, ties to even (R159); none for a NaN or
infinite input, and 0 under a zero scale (R215, R216). -/
def driveInt (s x : F32) : Option Int :=
  match f32v s, f32v x with
  | _, .nan => none
  | _, .inf _ => none
  | .fin _ sm se, .fin neg m e =>
    if sm = 0 then some 0
    else let r := scaled m sm (e - se); let q := Int.ofNat (rne r.1 r.2); some (if neg then -q else q)
  | _, _ => some 0

/-- |x| > (θ/2) × RMS of the finite inputs of a row block, exactly (R160): θ in units of 0.5. -/
def exceedsRms (theta : Nat) (block : List F32) (x : F32) : Bool :=
  match f32v x with
  | .fin _ m e => decide (theta ^ 2 * sumSquares block < 4 * (m * 2 ^ (e + 149).toNat) ^ 2 * finiteCount block)
  | _ => false

/-- Inserts a candidate outlier: descending |x|, ties to the lower row (R161). -/
def insertCandidate (c : Nat × F32) : List (Nat × F32) → List (Nat × F32)
  | [] => [c]
  | d :: r => if f32lt (f32abs d.2) (f32abs c.2) then c :: d :: r else d :: insertCandidate c r

/-- Rows of a list with their numbers. -/
def numbered {α : Type} (l : List α) : List (Nat × α) := (List.range l.length).zip l

/-- Input scale of an array step in PER_VECTOR mode (R160): the largest |x| among the other channels over 127, or over
63 in OFFSET mode. -/
def perVectorScale (m : InputMode) (others : List F32) : F32 :=
  f32div (maxAbsFinite others) (f32int (if m = .offset then 63 else 127))

/-- Whether a mode cannot drive an input at a scale (R36). -/
def undrivableAt (m : InputMode) (scale x : F32) : Bool :=
  match driveInt scale x with | some q => undrivable m q | none => false

/-- The scale once every channel that it leaves undrivable is out as well (R36, R160): taking channels out can only lower it; a
round takes out at least one of the rows, so `fuel` rounds are enough for as many rows. -/
def settleScale (m : InputMode) (xs : List F32) : Nat → F32 → F32
  | 0, s => s
  | fuel + 1, s =>
    let next := perVectorScale m (xs.filter (fun x => !undrivableAt m s x))
    if next = s then s else settleScale m xs fuel next

/-- Input scale of a row block in PER_VECTOR mode (R160): over the channels that are neither persistent, nor above θ times the
RMS, nor undrivable (R36). -/
def blockScale (p : LayerPlan) (persistent : List Nat) (block : List F32) : F32 :=
  let rest := ((numbered block).filter (fun r => !persistent.contains r.1 && !exceedsRms p.theta block r.2)).map (·.2)
  settleScale p.mode rest rest.length (perVectorScale p.mode rest)

/-- Whether a finite input x of a row block is a candidate outlier (R159, R160, R36): `vec` is the block's PER_VECTOR scale. -/
def isCandidate (p : LayerPlan) (scale vec : F32) (block : List F32) (x : F32) : Bool :=
  f32isFinite x &&
    (if p.perVector then exceedsRms p.theta block x || undrivableAt p.mode vec x
     else match driveInt scale x with
       | some q => decide ((if p.mode = .offset then min p.threshold 63 else max p.threshold 16) < q.natAbs)
           || undrivable p.mode q
       | none => false)

/-- Outlier channels of one row block (R159–R161, R215): persistent channels first, then NaN and infinite inputs, then
candidates in descending |x|. -/
def selectOutliers (p : LayerPlan) (scale : F32) (persistent : List Nat) (block : List F32) : List (Nat × F32) :=
  let rows := numbered block
  let first := rows.filter (fun r => persistent.contains r.1)
  let rest := rows.filter (fun r => !persistent.contains r.1)
  let special := rest.filter (fun r => !f32isFinite r.2)
  let vec := blockScale p persistent block
  first ++ special ++
    (rest.filter (fun r => isCandidate p scale vec block r.2)).foldl (fun acc c => insertCandidate c acc) []

/-- Candidate channels of one row block, persistent ones too (R162). -/
def candidateRows (p : LayerPlan) (scale : F32) (persistent : List Nat) (block : List F32) : List Nat :=
  let vec := blockScale p persistent block
  ((numbered block).filter (fun r => isCandidate p scale vec block r.2)).map (·.1)

/-! ### Compensated sums -/

/-- Adds x to a compensated sum (R218). -/
def compAdd (sc : F32 × F32) (x : F32) : F32 × F32 :=
  let t := f32add sc.1 x
  if !f32isFinite t then (t, 0)
  else if f32le (f32abs x) (f32abs sc.1) then (t, f32add sc.2 (f32add (f32sub sc.1 t) x))
  else (t, f32add sc.2 (f32add (f32sub x t) sc.1))

/-- The value of a compensated sum: s + c rounded once, or s when s is not finite (R218). -/
def compValue (sc : F32 × F32) : F32 := if f32isFinite sc.1 then f32add sc.1 sc.2 else sc.1

/-- Compensated sum of a list in ascending order (R219). -/
def compSum (xs : List F32) : F32 × F32 := xs.foldl compAdd (0, 0)

/-- Up to 32 consecutive elements of a weight row under one block scale: the elements' own values, the block scale and the
super-scale as FP32, 1.0 where the format has none (R198, R202). -/
structure WeightBlock where
  elems : List FVal
  scale : F32 := 0x3F800000#32
  super : F32 := 0x3F800000#32
  deriving DecidableEq, Repr

/-- Sums neighbours in FP32: one level of a pairwise sum. -/
def pairUp : List F32 → List F32
  | a :: b :: r => f32add a b :: pairUp r
  | l => l

/-- Pairwise FP32 sum of up to 32 terms in ascending order (R219). -/
def pairSum (xs : List F32) : F32 := (pairUp (pairUp (pairUp (pairUp (pairUp xs))))).headD 0

/-- Exact sum of finite products, rounded once to FP32 (R219); NaN or infinite inputs give what IEEE 754 addition of the products
gives. -/
def exactDot (ws xs : List FVal) : F32 :=
  let prods := List.zipWith (fun w x => match w, x with
    | .fin a m e, .fin b n g => FVal.fin (a != b) (m * n) (e + g)
    | w, x => f32v (f32mul (f32 w) (f32 x))) ws xs
  if prods.all (fun v => match v with | .fin _ _ _ => true | _ => false) then
    let base := prods.foldl (fun b v => match v with | .fin _ _ e => min b e | _ => b) (0 : Int)
    let t := prods.foldl (fun t v => match v with | .fin n m e => t + atExp n m e base | _ => t) (0 : Int)
    f32 (.fin (decide (t < 0)) t.natAbs base)
  else (prods.map f32).foldl f32add 0

/-- Whether a Garnet core adds the products of two element formats in its exact adder: neither is BF16 or FP16 (R219). A block whose weights and
activations differ in kind has products of both, and the manual names no way for it: the model takes it pairwise (log entry 123). -/
def addsExactly (wfmt xfmt : Nat) : Bool := !([0x02, 0x03].contains wfmt) && !([0x02, 0x03].contains xfmt)

/-- The scaled sum of one block's products (R219). -/
def garnetBlock (exact : Bool) (b : WeightBlock) (xs : List FVal) : F32 :=
  let sum := if exact then exactDot b.elems xs else pairSum (List.zipWith (fun w x => f32mul (f32 w) (f32 x)) b.elems xs)
  f32mul (f32mul sum b.scale) b.super

/-- The compensated sum a Garnet core forms of a row's blocks in ascending order (R219); the inputs run on from block to block. -/
def garnetDot (exact : Bool) : List WeightBlock → List FVal → F32 × F32 → F32 × F32
  | [], _, acc => acc
  | b :: bs, xs, acc => garnetDot exact bs (xs.drop b.elems.length) (compAdd acc (garnetBlock exact b xs))

/-- Combines partials in plan order (R221): (S, C). -/
def combine (ps : List (F32 × F32)) : F32 × F32 :=
  let sc := ps.foldl (fun acc p => compAdd acc p.1) (0, 0)
  (sc.1, ps.foldl (fun c p => f32add c p.2) sc.2)

/-- Combines partials, in groups of 64 when there are more than 64 (R222). -/
def combineGrouped (ps : List (F32 × F32)) : F32 × F32 :=
  if ps.length ≤ 64 then combine ps else combine ((chunks 64 64 ps).map combine)

/-! ### Maximum, minimum and top-k -/

/-- Whether entry a stands before entry b in a top-k (top) or bottom-k list (R227, R229). -/
def ranksBefore (bottom : Bool) (a b : F32 × Nat) : Bool :=
  let wins := if bottom then f32lt a.1 b.1 else f32lt b.1 a.1
  wins || (f32eqv a.1 b.1 && decide (a.2 < b.2))

/-- Inserts an entry into a sorted list; NaN never enters (R229). -/
def rankInsert (bottom : Bool) (e : F32 × Nat) : List (F32 × Nat) → List (F32 × Nat)
  | [] => [e]
  | d :: r => if ranksBefore bottom e d then e :: d :: r else d :: rankInsert bottom e r

/-- The k best entries of a list, without NaN (R229, R231). -/
def rankK (bottom : Bool) (k : Nat) (l : List (F32 × Nat)) : List (F32 × Nat) :=
  ((l.filter (fun e => !f32isNaN e.1)).foldl (fun acc e => rankInsert bottom e acc) []).take k

/-- A top-k list filled at its end with (NaN, 0xFFFF_FFFF) (R229). -/
def topK (bottom : Bool) (k : Nat) (l : List (F32 × Nat)) : List (F32 × Nat) :=
  let t := rankK bottom k l
  t ++ List.replicate (k - t.length) (f32NaN, 0xFFFFFFFF)

/-- Maximum or minimum with index (R227, R228). -/
def extremum (bottom : Bool) (xs : List F32) : F32 × Nat :=
  lgetD (topK bottom 1 ((numbered xs).map (fun e => (e.2, e.1)))) 0 (f32NaN, 0xFFFFFFFF)

/-- Bytes of top-k entries (R230). -/
def topKBytes (l : List (F32 × Nat)) : Bytes := l.flatMap (fun e => leBytes 4 e.1.toNat ++ leBytes 4 e.2)

/-! ### Attention -/

/-- A key of a query, with its score of R309 and its value vector. -/
structure AttnKey where
  segment : Nat
  position : Nat
  score : F32
  value : List F32
  deriving DecidableEq, Repr

/-- A query with its scored keys, divided into spans (R312). -/
structure ScoredQuery where
  segment : Nat
  position : Nat
  causal : Bool
  spans : List (List AttnKey)
  deriving DecidableEq, Repr

/-- The product q · k as Garnet cores form it (R219, R309): both in the format of the queries (R330). -/
def scoreProduct (fmt : Nat) (q k : List F32) : F32 :=
  let vals := fun (xs : List F32) => xs.map (fun x => f32v (ofFormat fmt (toFormat fmt x)))
  compValue (garnetDot (addsExactly fmt fmt) ((chunks 32 8 (vals k)).map (fun b => { elems := b })) (vals q) (0, 0))

/-- Whether a key is unmasked for a query (R310). -/
def unmasked (q : ScoredQuery) (k : AttnKey) : Bool :=
  decide (k.segment = q.segment) && decide (q.segment ≠ 0) && (!q.causal || decide (k.position ≤ q.position))

/-- −∞ as FP32. -/
def f32NegInf : F32 := f32Inf true

/-- One span's partial (R312): m, l and o. -/
def spanPartial (d : Nat) (ks : List AttnKey) : F32 × (F32 × F32) × List (F32 × F32) :=
  let m := ks.foldl (fun acc k => f32max acc k.score) f32NegInf
  if m = f32NegInf then (m, (0, 0), List.replicate d (0, 0))
  else
    let e (k : AttnKey) : F32 := Config.exp32 (f32sub k.score m)
    (m, compSum (ks.map e),
      (List.range d).map (fun i => compSum (ks.map (fun k => f32mul (e k) (lgetD k.value i 0)))))

/-- Scales a compensated sum by a factor. -/
def compScale (sc : F32 × F32) (a : F32) : F32 × F32 := (f32mul sc.1 a, f32mul sc.2 a)

/-- Adds one compensated sum to another. -/
def compJoin (x y : F32 × F32) : F32 × F32 := let t := compAdd x y.1; (t.1, f32add t.2 y.2)

/-- Merges partials in ascending span order (R313). -/
def mergeSpans (d : Nat) (ps : List (F32 × (F32 × F32) × List (F32 × F32))) : List F32 :=
  let r := ps.foldl (fun (acc : F32 × (F32 × F32) × List (F32 × F32)) p =>
    let mNew := f32max acc.1 p.1
    let a := if acc.1 = f32NegInf then 0 else Config.exp32 (f32sub acc.1 mNew)
    let b := if p.1 = f32NegInf then 0 else Config.exp32 (f32sub p.1 mNew)
    (mNew, compJoin (compScale acc.2.1 a) (compScale p.2.1 b),
      List.zipWith (fun x y => compJoin (compScale x a) (compScale y b)) acc.2.2 p.2.2))
    (f32NegInf, (0, 0), List.replicate d (0, 0))
  r.2.2.map (fun o => f32div (compValue o) (compValue r.2.1))

/-- The output of a query and whether it meets EMPTY_ATTENTION: the first case of R314 that applies. -/
def attend (d : Nat) (q : ScoredQuery) : List F32 × Bool :=
  let zero := List.replicate d (0 : F32)
  if q.segment = 0 then (zero, false)
  else
    let spans := q.spans.map (fun s => s.filter (unmasked q))
    let ks := spans.flatten
    match ks with
    | [k] => (padValue d k.value, false)
    | _ =>
      if ks.all (fun k => decide (k.score = f32NegInf)) then (zero, true)
      else if ks.any (fun k => f32isNaN k.score || decide (k.score = f32Inf false)) then
        (List.replicate d f32NaN, false)
      else (mergeSpans d (spans.map (spanPartial d)), false)
where
  padValue (d : Nat) (v : List F32) : List F32 := (v ++ List.replicate d 0).take d

/-! ### KV pages (R322–R325) -/

/-- FP32 rounded up to the next FP16 value (R324). -/
def f16Up (num den : Nat) : Nat :=
  if num = 0 then 0
  else
    let qmin : Int := -24
    let q := max qmin (leadExp num den - 10)
    let s := scaled num den (-q)
    let m := (s.1 + s.2 - 1) / s.2
    min (fMax fmtF16) (m + (q - qmin).toNat * 1024)

/-- Page scale of a part with largest finite magnitude A (R324): A / limit rounded up, or 1.0 when A = 0. -/
def pageScale (limit : Nat) (xs : List F32) : Nat :=
  match f32v (f32div (maxAbsFinite xs) (f32int (Int.ofNat limit))) with
  | .fin _ 0 _ => 0x3C00
  | .fin _ m e => let s := scaled m 1 e; f16Up s.1 s.2
  | _ => 0x3C00

/-- Largest finite of an FP8 format as an integer. -/
def fp8Limit (c : Nat) : Nat := if c = 0x04 then 448 else 57344

/-- Seals a part: page scale, element codes, G4 block scales (R324, R325). -/
def sealPart (format : Nat) (codes : List Nat) : Nat × List Nat × List Nat :=
  let xs := codes.map (ofFormat 0x03)
  if format = 0x04 ∨ format = 0x05 then
    let sc := pageScale (fp8Limit format) xs
    let s := f32 (fDecode fmtF16 sc)
    (sc, xs.map (fun x => toFormat format (f32div x s)), [])
  else if format = 0x20 then
    let sc := pageScale 7 xs
    let blocks := (chunks 32 (xs.length / 32 + 1) xs).map (toG4Block sc)
    (sc, blocks.flatMap (·.2), blocks.map (·.1))
  else (0x3C00, codes, [])

/-- Element values of a page part under its page scale (R322). -/
def partValues (format : Nat) (scale : BitVec 16) (codes blocks : List Nat) : List F32 :=
  if format = 0x03 then codes.map (ofFormat 0x03)
  else if format = 0x20 then
    (numbered codes).map (fun e => burstDecode (BitVec.ofNat 4 e.2).toInt (lgetD blocks (e.1 / 32) 0) scale.toNat)
  else codes.map (fun c => f32mul (ofFormat format c) (f32 (fDecode fmtF16 scale.toNat)))

/-- Keys and values a page holds, a vector of d elements for each of its positions (R319, R322). -/
def pageVectors (d : Nat) (p : Page) : List (List F32 × List F32) :=
  List.zip (chunks d p.tokens (partValues p.format p.kScale p.k p.kBlocks))
    (chunks d p.tokens (partValues p.format p.vScale p.v p.vBlocks))

/-- Page size in bytes of a format at head dimension d (R320). -/
def pageBytes (format d : Nat) : Nat :=
  if format = 0x03 then 64 + 128 * d
  else if format = 0x20 then 64 + 256 * ((32 * d + 223) / 224)
  else 64 + 64 * d

/-- The 64-byte page header (R321). -/
def pageHeader (p : Page) : Bytes :=
  let body := leBytes 1 p.format ++ leBytes 1 p.tokens ++ leBytes 1 (if p.nonFinite then 1 else 0) ++ [0]
    ++ leBytes 2 p.kScale.toNat ++ leBytes 2 p.vScale.toNat ++ leBytes 4 p.first ++ leBytes 2 p.generation
    ++ leBytes 2 p.group
  let full := padTo 60 body
  full ++ leBytes 4 (crc32c full).toNat

/-- Rewrites a page's header (R324). -/
def withHeader (p : Page) : Page := { p with header := pageHeader p }

/-- Whether a page's header passes its check (R317, R321). -/
def pageHeaderOk (p : Page) : Bool := decide ((crc32c (slice p.header 0 60)).toNat = leAt p.header 60 4)

/-- Seals an open page in a format under a generation (R324). -/
def sealPage (format generation : Nat) (p : Page) : Page :=
  let k := sealPart format p.k
  let v := sealPart format p.v
  let nf := decide (format = 0x20) && (p.k ++ p.v).any (fun c => !f32isFinite (ofFormat 0x03 c))
  withHeader { p with format := format, kScale := BitVec.ofNat 16 k.1, vScale := BitVec.ofNat 16 v.1, k := k.2.1, v := v.2.1,
                      kBlocks := k.2.2, vBlocks := v.2.2, nonFinite := nf, generation := generation }

/-- A packed burst of G4 codes under a super-scale (R202), up to 224 codes and seven block scales. The codes after a row's last element, which
R208 has ignored, and the scales of blocks it does not reach are zero (log entry 115). -/
def g4Burst (super : Nat) (codes scales : List Nat) : Bytes :=
  let body := (List.range 112).map (fun i => BitVec.ofNat 8 (lgetD codes (2 * i) 0 + 16 * lgetD codes (2 * i + 1) 0))
    ++ (List.range 7).map (fun j => BitVec.ofNat 8 (lgetD scales j 0)) ++ leBytes 1 0x20 ++ leBytes 2 super ++ [0, 0]
  body ++ leBytes 4 (crc32c body).toNat

/-- A part of a page in bytes (R319, R320): the elements one after the other; in G4 in packed narrow bursts. -/
def partImage (format : Nat) (scale : BitVec 16) (codes blocks : List Nat) : Bytes :=
  if format = 0x20 then
    let n := (codes.length + 223) / 224
    (List.zip (chunks 224 n codes) (chunks 7 n blocks)).flatMap (fun e => g4Burst scale.toNat e.1 e.2)
  else codes.flatMap (fun c => leBytes (if format = 0x03 then 2 else 1) c)

/-- Bytes of each part of a page (R319, R320), from the elements of the positions written. -/
def partBytes (p : Page) : Nat := (pageBytes p.format (p.k.length / p.tokens) - 64) / 2

/-- A page in bytes (R319): the header, the K part, the V part; zeros where nothing has been written yet. -/
def pageImage (p : Page) : Bytes :=
  p.header ++ padTo (partBytes p) (partImage p.format p.kScale p.k p.kBlocks) ++ padTo (partBytes p) (partImage p.format p.vScale p.v p.vBlocks)

/-- The element codes that a part of a page holds in bytes: `n` of them (R202, R319). -/
def partCodes (format n : Nat) (b : Bytes) : List Nat :=
  (List.range n).map (fun i =>
    if format = 0x20 then leAt b (128 * (i / 224) + i % 224 / 2) 1 / 16 ^ (i % 2) % 16
    else if format = 0x03 then leAt b (2 * i) 2 else leAt b i 1)

/-- The block scales of the G4 bursts of a part: `n` of them (R202). -/
def partScales (n : Nat) (b : Bytes) : List Nat := (List.range n).map (fun j => leAt b (128 * (j / 7) + 112 + j % 7) 1)

/-- A page as its bytes read it: the header and the scales and codes of both parts; the engine's own page table says which positions it holds. -/
def pageRead (p : Page) (b : Bytes) : Page :=
  let kb := slice b 64 (partBytes p)
  let vb := slice b (64 + partBytes p) (partBytes p)
  { p with
    header := slice b 0 64
    nonFinite := leAt b 2 1 % 2 = 1
    kScale := BitVec.ofNat 16 (leAt b 4 2)
    vScale := BitVec.ofNat 16 (leAt b 6 2)
    k := partCodes p.format p.k.length kb
    v := partCodes p.format p.v.length vb
    kBlocks := partScales p.kBlocks.length kb
    vBlocks := partScales p.vBlocks.length vb }

/-- Pages as the bytes of their block read them, one after the other (R326). -/
def pagesRead : List Page → Bytes → List Page
  | [], _ => []
  | p :: ps, b => pageRead p b :: pagesRead ps (b.drop (64 + 2 * partBytes p))

/-- Key width of a page format in bits (R330). -/
def formatWidth (format : Nat) : Nat := if format = 0x20 then 4 else if format = 0x03 then 16 else 8

/-- Format of new seals: the sealed format, or the narrowest format that meets a raised minimum width (R330). -/
def writtenFormat (sealed width : Nat) : Nat :=
  if width ≤ formatWidth sealed then sealed else if width ≤ 8 then 0x04 else 0x03

/-- Rotates a query or key of head dimension d at position p (R308). -/
def rotate (base : F32) (r p : Nat) (xs : List F32) : List F32 :=
  (numbered xs).map (fun e =>
    let i := e.1 / 2
    if r ≤ e.1 then e.2
    else
      let angle := f32mul (f32int (Int.ofNat p)) (Config.pow32 base (f32div (f32int (-(2 * Int.ofNat i))) (f32int (Int.ofNat r))))
      let a := lgetD xs (2 * i) 0
      let b := lgetD xs (2 * i + 1) 0
      if e.1 % 2 = 0 then f32sub (f32mul a (Config.cos32 angle)) (f32mul b (Config.sin32 angle))
      else f32add (f32mul a (Config.sin32 angle)) (f32mul b (Config.cos32 angle)))

/-- The linear bias of head h of H at distance |p − j| (R309). -/
def linearBias (h heads p j : Nat) : F32 :=
  f32neg (f32mul (Config.pow32 (f32int 2) (f32div (f32int (-(8 * (Int.ofNat h + 1)))) (f32int (Int.ofNat heads))))
    (f32int (Int.ofNat (max p j - min p j))))

end Sys2Proof.Machine
end

