-- ==== Sys2Proof/Machine/Flags.lean ====
section
/-! DEFINITION. What the block answers and reports, laid out in bytes: status values, status replies, token records,
correction summaries, error records, and the words of the status registers. -/

namespace Sys2Proof.Machine

/-- Numbers of the status values (R471). -/
def Status.code : Status → Nat
  | .ok => 0x0000 | .deferred => 0x0001
  | .late => 0x0100 | .stale => 0x0101 | .replayed => 0x0102 | .fallbackWide => 0x0103 | .splitPass => 0x0104
  | .emptyAttention => 0x0105 | .keyWidened => 0x0106 | .preempted => 0x0107 | .resumed => 0x0108
  | .timeStale => 0x0109 | .cornerExcursion => 0x010A
  | .deadlineExpired => 0x0200 | .generationRetired => 0x0201
  | .refusedBudget => 0x0300 | .refusedCapacity => 0x0301 | .refusedClassFull => 0x0302
  | .busy => 0x0400 | .invalid => 0x0401 | .notFound => 0x0402 | .integrityFail => 0x0403 | .authFail => 0x0404
  | .counterRejected => 0x0405 | .calFailed => 0x0406

/-- Number of an object kind (R372, R460). -/
def objCode : ObjKind → Nat
  | .model => 0 | .shard => 1 | .adapter => 2 | .store => 3

/-- The object kind a number names. -/
def objKindOf (n : Nat) : Option ObjKind :=
  if n = 0 then some .model else if n = 1 then some .shard else if n = 2 then some .adapter
  else if n = 3 then some .store else none

def boolBit (b : Bool) : Nat := if b then 1 else 0

/-! ### Unit identifiers -/

/-- A UID from its fields (R15). -/
def uidOf (quarter kind index tier sub : Nat) : Word :=
  BitVec.ofNat 32 (packW [(30, 2, quarter), (27, 3, kind), (11, 16, index), (8, 3, tier), (0, 8, sub)])

/-- UID of an array (R17). -/
def arrayUid (a : Nat) : Word := uidOf (a / 524288) 0 (a / 8 % 65536) (a % 8) 0

/-- UID of a converter site, with a slice as the sub-unit (R15). -/
def siteUid (n slice : Nat) : Word := uidOf (n / 65536) 1 (n % 65536) 0 slice

/-- UID of a core (R15, R233). -/
def coreUid (c : CoreId) (sub : Nat) : Word :=
  uidOf c.quarter.val (match c.core.kind with | .garnet => 3 | .opal => 4 | .jet => 5) c.core.number 0 sub

/-- UID of a kind 7 unit (R16). -/
def otherUid (quarter index sub : Nat) : Word := uidOf quarter 7 index 0 sub

def gatehouseSramUid (bank : Nat) : Word := otherUid 0 0x31 bank
def lodgeUid : Word := otherUid 0 0x40 0
def sensorUid (channel : Nat) : Word := otherUid 0 0x200 channel
def pciePortUid : Word := otherUid 0 0x10 0
def fabricUid (port : Nat) : Word := otherUid 0 (0x20 + port) 0
def kioskUid : Word := otherUid 0 0 0
def hbmUid (quarter stack pseudo : Nat) : Word := otherUid quarter (0x100 + stack) pseudo

def uidQuarter (u : Word) : Nat := fld u.toNat 31 30
def uidKind (u : Word) : Nat := fld u.toNat 29 27
def uidIndex (u : Word) : Nat := fld u.toNat 26 11

/-- Rails of R609, numbered for Config.railMillivolts: VANA 0–3, VDD_CORE 4–7, VDD_SRAM 8–11, VDD_GH 12, VDD_SERDES 13,
standby 14, HBM core supply 16–19; none is the main input, which the state holds. -/
def railOf (kind : Nat) (u : Word) : Option Nat :=
  let q := uidQuarter u
  if uidKind u = 0 then some q
  else if uidKind u < 6 then some (if 0x10 ≤ kind ∧ kind ≤ 0x12 then 8 + q else 4 + q)
  else if uidKind u = 6 then some (8 + q)
  else if uidIndex u = 0x200 then none
  else if 0x100 ≤ uidIndex u ∧ uidIndex u ≤ 0x103 then some (16 + q)
  else if uidIndex u = 0x40 then some 14
  else if uidIndex u = 0x10 ∨ (0x20 ≤ uidIndex u ∧ uidIndex u ≤ 0x2F) then some 13
  else some 12

/-! ### Error records -/

/-- Elapsed field: ns from the last mark, saturating (R516 word 4). -/
def elapsedField (ns : Nat) : Nat := min ns 0xFFFFFFFF

/-- The 64 bytes of an error record (R516). -/
def errorRecordBytes (r : ErrorRecord) : Bytes :=
  wordBytes
    [ packW [(24, 8, 0x03), (16, 8, r.kind), (13, 3, r.severity), (12, 1, boolBit r.stale), (6, 6, r.fn)],
      r.uid.toNat, r.lastMark.toNat % 2 ^ 32, r.lastMark.toNat / 2 ^ 32, elapsedField r.elapsed,
      (match r.op with
        | some o => packW [(31, 1, 1), (25, 6, o.graph), (11, 14, o.node), (0, 11, twos 11 r.temperature)]
        | none => twos 11 r.temperature),
      packW [(16, 16, r.count), (0, 16, r.voltage)],
      (match r.op with | some o => packW [(8, 24, o.step)] | none => 0) ]
  ++ padTo 32 r.detail

/-! ### Status replies -/

/-- The 64 bytes of a status reply (R454). -/
def statusReplyBytes (st : Status) (opcode queue consumed : Nat) (tag : BitVec 64) (detail : Nat) (result : Bytes) :
    Bytes :=
  wordBytes
    [ packW [(24, 8, 0x01), (0, 16, st.code)], packW [(16, 16, opcode), (0, 16, queue)], packW [(16, 16, consumed)],
      tag.toNat % 2 ^ 32, tag.toNat / 2 ^ 32, detail ]
  ++ padTo 40 result

/-! ### Correction summaries and token records -/

/-- Case of R193. -/
def summaryCase (m : Summary) (extras : Bool) : Nat :=
  if m.sentinel || m.excursion || m.beyond then 2 else if extras then 1 else 0

/-- The four words of a correction summary (R192); `extras`: some sequence of the step incurred an extra (R193). -/
def summaryWords (m : Summary) (extras : Bool) (epoch : Nat) : List Nat :=
  [ packW [(31, 1, boolBit m.wide), (30, 1, boolBit m.replayed), (29, 1, boolBit m.split), (28, 1, boolBit m.stale),
      (27, 1, boolBit m.excursion), (26, 1, boolBit m.sentinel), (25, 1, boolBit m.stretched),
      (16, 8, min m.nWide 255), (8, 8, min m.nReplayed 255), (0, 8, min m.nSplit 255)],
    packW [(30, 2, summaryCase m extras), (0, 24, min m.stretch 16777215)],
    packW [(16, 16, min m.saturations 65535), (0, 16, min m.outliers 65535)],
    epoch ]

/-- What a token record carries beside the summary (R401). -/
structure TokenRecord where
  kind : Nat
  ends : Bool := false
  late : Bool := false
  stale : Bool := false
  emptyAttention : Bool := false
  keyWidened : Bool := false
  resumed : Bool := false
  prefill : Bool := false
  budgetHold : Bool := false
  handle : Nat
  tag : BitVec 64
  index : Nat
  value : Nat := 0
  status : Status := .ok
  modelGen : Nat := 0
  adapterGen : Nat := 0
  graph : Nat
  cls : Nat
  account : Nat
  hostTime : Nat
  fill : Nat := 0
  summary : List Nat := [0, 0, 0, 0]
  deriving DecidableEq, Repr

/-- The 64 bytes of a token record (R401). -/
def tokenRecordBytes (r : TokenRecord) : Bytes :=
  wordBytes
    ([ packW [(24, 8, 0x02), (20, 4, r.kind), (19, 1, boolBit r.ends), (18, 1, boolBit r.late),
        (17, 1, boolBit r.stale), (16, 1, boolBit r.emptyAttention), (15, 1, boolBit r.keyWidened),
        (14, 1, boolBit r.resumed), (13, 1, boolBit r.prefill), (12, 1, boolBit r.budgetHold)],
      r.handle, r.tag.toNat % 2 ^ 32, r.tag.toNat / 2 ^ 32, r.index, r.value,
      packW [(16, 16, if r.ends then r.status.code else 0)],
      packW [(16, 16, r.modelGen), (0, 16, r.adapterGen)],
      packW [(26, 6, r.graph), (24, 2, r.cls), (0, 12, r.account)],
      r.hostTime % 2 ^ 32, r.hostTime / 2 ^ 32 % 2 ^ 32, packW [(16, 16, r.fill)] ] ++ r.summary)

/-! ### Register words -/

def BootState.code : BootState → Nat
  | .waiting => 0 | .fetching => 1 | .verifying => 2 | .starting => 3 | .running => 4 | .chipReset => 5 | .halted => 6

/-- BOOT_STATE (R419). -/
def bootStateWord (b : Boot) : Nat := packW [(28, 4, b.state.code), (26, 2, b.source)]

/-- FW_VERSION (R418): the running bundle's major and minor, 0 while none runs. -/
def fwVersionWord (b : Boot) : Nat :=
  match b.running with
  | some x => packW [(16, 16, leAt x 8 2), (0, 16, leAt x 10 2)]
  | none => 0

/-- RESET_CTL as it reads (R420). -/
def resetCtlWord (b : Boot) : Nat := packW [(16, 4, b.lastReset), (0, 16, min b.chipResets 65535)]

/-- FATAL (R423). -/
def fatalWord (b : Boot) : Nat :=
  packW [(31, 1, boolBit b.fatal), (24, 7, b.fatalCause), (0, 16, min b.fatalCount 65535)]

/-- IDENT (R418). -/
def identWord (fn : Nat) : Nat := packW [(16, 16, if fn = 0 then 0x0960 else 0x0961), (0, 16, 0x1FC7)]

/-- COMPAT (R418). -/
def compatWord (f : Fuses) : Nat := packW [(16, 16, 1), (8, 8, Config.stepping.toNat), (0, 2, f.variant.val)]

/-- Class code, subsystem vendor ID and Subsystem ID of the configuration space, the same in every function: the variant's code from 1
(R1, R409). -/
def configIds (f : Fuses) : Nat × Nat × Nat := (0x120000, 0x1FC7, 1 + f.variant.val)

/-- MBX_CTL as it reads (R438). -/
def mbxCtlWord (b : Boot) : Nat := packW [(24, 4, b.mbxStatus)]

/-- EQ_CTL (R436). -/
def eqCtlWord (f : FnState) : Nat :=
  packW [(31, 1, boolBit f.eqEnable), (30, 1, boolBit f.eqOverflow), (16, 5, f.eqSize), (0, 16, min f.eqDropped 65535)]

/-- BSQ_CTL (R425). -/
def bsqCtlWord (f : FnState) : Nat := packW [(31, 1, boolBit f.bsqEnable), (0, 4, f.bsqDepth)]

/-- BRPL_CTL (R425). -/
def brplCtlWord (f : FnState) : Nat :=
  packW [(31, 1, boolBit f.brplEnable), (11, 11, f.brplVector), (0, 4, f.brplDepth)]

/-! ### Temperatures -/

/-- Highest of a list of readings that have not failed, none if all have. -/
def hottest (cs : List Channel) : Option Int :=
  cs.foldl (fun m c =>
    if c.failed then m else match c.last with
      | .temp t => some (match m with | some v => max v t | none => t)
      | _ => m) none

/-- Temperature of a group of channels (R572): the highest reading not failed, plus 5 °C if one has failed; 13 °C above
the throttle threshold if all have. -/
def groupTemp (throttle : Int) (cs : List Channel) : Int :=
  match hottest cs with
  | some t => if cs.any (·.failed) then t + 40 else t
  | none => throttle + 104

/-- Temperature of a quarter (R572). -/
def quarterTemp (t : Thermal) (q : Nat) : Int := groupTemp t.throttle ((t.channels.drop (4 * q)).take 4)

/-- Temperature of the Gatehouse (R572). -/
def gatehouseTemp (t : Thermal) : Int := groupTemp t.throttle ((t.channels.drop 16).take 2)

/-- The module temperature T (R572). -/
def moduleTemp (t : Thermal) : Int :=
  max (max (max (quarterTemp t 0) (quarterTemp t 1)) (max (quarterTemp t 2) (quarterTemp t 3))) (gatehouseTemp t)

/-- Temperature of the unit a record names (R516 word 5), within the field's range. -/
def unitTemp (t : Thermal) (u : Word) : Int :=
  let v := if uidKind u < 7 then quarterTemp t (uidQuarter u)
    else if 0x100 ≤ uidIndex u ∧ uidIndex u ≤ 0x103 then quarterTemp t (uidQuarter u)
    else if uidIndex u = 0x200 then moduleTemp t else gatehouseTemp t
  max (-1024) (min 1023 v)

/-- THERMAL State (R422, R576): the highest state in force. -/
def thermalState (t : Thermal) : Nat :=
  if t.inShutdown then 3 else if t.inThrottle then 2 else if t.inWarning then 1 else 0

/-- The output level L (R578): the lower of the thermal and power levels. -/
def outputLevel (t : Thermal) : Nat := min t.thermalLevel t.powerLevel

/-- THERMAL as the Lodge writes it (R422). -/
def thermalWord (t : Thermal) : Nat :=
  packW [(30, 2, thermalState t), (23, 7, outputLevel t), (0, 16, twos 16 (moduleTemp t))]

end Sys2Proof.Machine
end

