-- ==== Sys2Proof/Machine/Operands.lean ====
section
/-! DEFINITION. Command packets as bytes (R446–R449): header and parameter fields, the opcode tables of R459–R470, and
where a reserved field is not zero (R13, R452). -/

namespace Sys2Proof.Machine

/-- Opcode field of a chain's first unit (R446). -/
def hdrOpcode (ch : Bytes) : Nat := leAt ch 2 2

/-- Units the first unit declares (R446). -/
def hdrUnits (ch : Bytes) : Nat := fld (leAt ch 0 2) 15 11 + 1

/-- Critical bit (R446). -/
def hdrCritical (ch : Bytes) : Bool := decide (fld (leAt ch 0 2) 10 10 = 1)

/-- Session field (R446). -/
def hdrSession (ch : Bytes) : Nat := leAt ch 6 2

/-- Tag (R446). -/
def hdrTag (ch : Bytes) : BitVec 64 := BitVec.ofNat 64 (leAt ch 8 8)

/-- Writes the opcode field. -/
def stampOpcode (opcode : Nat) (ch : Bytes) : Bytes := patch ch 2 (leBytes 2 opcode)

/-- Writes a one-byte parameter. -/
def stampParam (off v : Nat) (ch : Bytes) : Bytes := patch ch (16 + off) (leBytes 1 v)

/-- One row of the opcode tables (R459–R470): `params` are the assigned parameter ranges as (offset, bytes),
`bits` the reserved bits inside assigned bytes as (offset, mask), `reserved` the reserved fields the tables name. -/
structure OpRow where
  opcode : Nat
  critical : Bool := false
  pfOnly : Bool := false
  long : Bool := false
  params : List (Nat × Nat) := []
  bits : List (Nat × Nat) := []
  reserved : List (Nat × Nat) := []
  deriving DecidableEq, Repr

/-- Sessions, administration, models (R459, R460). -/
def opRowsAdmin : List OpRow :=
  [ { opcode := 0x0001, params := [(0, 4)] },
    { opcode := 0x0002, long := true },
    { opcode := 0x0003, critical := true, params := [(0, 4)] },
    { opcode := 0x0004, pfOnly := true, params := [(0, 8)] },
    { opcode := 0x0010, params := [(0, 2), (2, 1), (3, 1), (4, 2), (8, 8)] },
    { opcode := 0x0011, params := [(0, 2)] },
    { opcode := 0x0012, params := [(0, 1), (2, 2)] },
    { opcode := 0x0013, params := [(0, 2), (2, 1), (3, 1), (4, 1), (6, 2), (8, 8)] },
    { opcode := 0x0014, params := [(0, 2)] },
    { opcode := 0x0101, critical := true, pfOnly := true, long := true, params := [(0, 8), (8, 4)] },
    { opcode := 0x0102, critical := true, pfOnly := true, long := true,
      params := [(0, 8), (8, 4), (12, 1), (14, 2), (16, 1)], bits := [(16, 0xFE)] },
    { opcode := 0x0103, critical := true, pfOnly := true, long := true, params := [(12, 1), (14, 2)] },
    { opcode := 0x0104, params := [(12, 1), (14, 2), (16, 2), (24, 8), (32, 4)] },
    { opcode := 0x0111, critical := true, long := true, params := [(0, 8), (8, 4)] },
    { opcode := 0x0112, critical := true, long := true, params := [(0, 8), (8, 4), (12, 1), (14, 2)] },
    { opcode := 0x0113, critical := true, long := true, params := [(12, 1), (14, 2)] },
    { opcode := 0x0120, critical := true, pfOnly := true, params := [(0, 1), (4, 32), (36, 32)] },
    { opcode := 0x0121, critical := true, pfOnly := true, params := [(0, 2)] } ]

/-- Graphs, serving, memory (R462–R466). -/
def opRowsServing : List OpRow :=
  [ { opcode := 0x0201, long := true, params := [(0, 8), (8, 4)] },
    { opcode := 0x0202, long := true, params := [(0, 1)] },
    { opcode := 0x0203, params := [(0, 8), (8, 4)] },
    { opcode := 0x0301, params := [(0, 62), (64, 32)], bits := [(1, 0xF0)], reserved := [(62, 2), (96, 16)] },
    { opcode := 0x0302, params := [(0, 4)] },
    { opcode := 0x0303, critical := true, pfOnly := true, params := [(0, 2), (2, 1), (4, 10), (16, 10), (28, 10)] },
    { opcode := 0x0304, critical := true, pfOnly := true, params := [(0, 2)] },
    { opcode := 0x0305, params := [(0, 2)] },
    { opcode := 0x0401, pfOnly := true, long := true, params := [(0, 2)] },
    { opcode := 0x0402, pfOnly := true, params := [(0, 8), (8, 8)] },
    { opcode := 0x0403, params := [(0, 4), (4, 4), (8, 8), (16, 4)] },
    { opcode := 0x0404, pfOnly := true, params := [(0, 1), (1, 1), (2, 2), (4, 2), (8, 8), (16, 4)] },
    { opcode := 0x0405, pfOnly := true, params := [(0, 1), (2, 2), (4, 2), (8, 8), (16, 16), (32, 8), (40, 4)], reserved := [(26, 2)]
      bits := [(19, 0x0F), (26, 0xFF), (27, 0xFF)] } ]

/-- Calibration, power, reset, fabric (R467–R470). -/
def opRowsUnits : List OpRow :=
  [ { opcode := 0x0501, params := [(0, 4), (4, 4), (8, 8), (16, 4)] },
    { opcode := 0x0502, params := [(0, 4), (8, 8), (16, 4)] },
    { opcode := 0x0503, pfOnly := true, long := true, params := [(0, 4)] },
    { opcode := 0x0504, params := [(0, 1), (2, 2), (8, 8), (16, 4)] },
    { opcode := 0x0505, pfOnly := true, params := [(0, 1), (2, 2), (4, 4), (8, 4), (12, 64)], reserved := [(9, 3)]
      bits := [(6, 0x03), (7, 0x07), (9, 0xF0), (10, 0xFF), (11, 0xFF)] ++ (List.range 16).map (fun i => (14 + 4 * i, 0x30)) },
    { opcode := 0x0506, pfOnly := true, long := true, params := [(0, 1), (2, 2)] },
    { opcode := 0x0507, params := [(0, 1), (2, 2), (8, 8), (16, 4)] },
    { opcode := 0x0508, critical := true, pfOnly := true, long := true, params := [(0, 1)] },
    { opcode := 0x0509, critical := true, pfOnly := true, long := true, params := [(0, 8), (8, 4)] },
    { opcode := 0x050A, critical := true, pfOnly := true, params := [(0, 2)] },
    { opcode := 0x0601 },
    { opcode := 0x0602, critical := true, pfOnly := true, params := [(0, 12)] },
    { opcode := 0x0603, pfOnly := true, long := true, params := [(0, 1)] },
    { opcode := 0x0701, critical := true, pfOnly := true },
    { opcode := 0x0702, critical := true, pfOnly := true, long := true, params := [(0, 8), (8, 4), (12, 1)],
      bits := [(12, 0xFE)] },
    { opcode := 0x0801, critical := true, pfOnly := true, params := [(0, 1), (1, 1)] },
    { opcode := 0x0802, critical := true, pfOnly := true, long := true, params := [(0, 1), (4, 32)] },
    { opcode := 0x0803, pfOnly := true, params := [(0, 1), (1, 1), (4, 2), (8, 16), (24, 8)] },
    { opcode := 0x0804, pfOnly := true, params := [(0, 1), (1, 1), (4, 4), (8, 16), (24, 2)] },
    { opcode := 0x0805, params := [(0, 8), (8, 4)] } ]

/-- The row of an opcode, none for an unknown opcode. -/
def opRow (n : Nat) : Option OpRow :=
  match opRowsAdmin.find? (fun r => r.opcode = n) with
  | some r => some r
  | none =>
    match opRowsServing.find? (fun r => r.opcode = n) with
    | some r => some r
    | none => opRowsUnits.find? (fun r => r.opcode = n)

/-- Whether a parameter offset is assigned. -/
def paramAssigned (r : OpRow) (p : Nat) : Bool := r.params.any (fun e => e.1 ≤ p && p < e.1 + e.2)

/-- Reserved bits of an assigned parameter byte. -/
def paramMask (r : OpRow) (p : Nat) : Nat := ((r.bits.find? (fun e => e.1 = p)).map (·.2)).getD 0

/-- Where the reserved field that holds a parameter byte starts. -/
def reservedStart (r : OpRow) (p : Nat) : Nat :=
  ((r.reserved.find? (fun e => e.1 ≤ p && p < e.1 + e.2)).map (·.1)).getD p

/-- The start of the reserved field that byte `i` of a chain of `total` bytes breaks with value `b`, if it breaks one. -/
def reservedBreak (r : OpRow) (total i : Nat) (b : Byte) : Option Nat :=
  if i < 16 then
    if i = 0 ∧ b ≠ 0 then some 0
    else if i = 1 ∧ b.toNat % 4 ≠ 0 then some 0
    else if (i = 4 ∨ i = 5) ∧ b ≠ 0 then some 4
    else none
  else if r.critical ∧ total - 32 ≤ i then
    if total - 24 ≤ i ∧ i < total - 16 ∧ b ≠ 0 then some (total - 24) else none
  else if paramAssigned r (i - 16) then
    if b.toNat &&& paramMask r (i - 16) ≠ 0 then some (16 + reservedStart r (i - 16)) else none
  else if b ≠ 0 then some (16 + reservedStart r (i - 16)) else none

/-- Offset of the first reserved header, parameter or trailer field that is not zero (R13, R452). -/
def firstReserved (r : OpRow) (ch : Bytes) : Option Nat :=
  ((List.range ch.length).zip ch).findSome? (fun e => reservedBreak r ch.length e.1 e.2)

/-- The check a critical chain carries, and the bytes it covers (R449). -/
def trailerCheck (ch : Bytes) : Bytes := slice ch (ch.length - 16) 16
def trailerCovered (ch : Bytes) : Bytes := ch.take (ch.length - 16)
def trailerCounter (ch : Bytes) : Nat := leAt ch (ch.length - 32) 8

/-- Whether the keyed check holds (R449). -/
def trailerOk (key ch : Bytes) : Bool := decide ((hmac key (trailerCovered ch)).take 16 = trailerCheck ch)

/-- A little-endian parameter (R447). -/
def Ctx.par (c : Ctx) (off len : Nat) : Nat := leAt c.chain (16 + off) len

/-- Bytes of the parameter area (R447). -/
def Ctx.parBytes (c : Ctx) (off len : Nat) : Bytes := slice c.chain (16 + off) len

/-- The issuing function. -/
def Ctx.fn (c : Ctx) : Nat := c.origin.fn

/-- Detail of an INVALID for a parameter (R454): its byte offset in the chain. -/
def parDetail (off : Nat) : Nat := 16 + off

/-- Detail of an INVALID for a field of the named image, manifest, pack or bundle (R454). -/
def imageDetail (off : Nat) : Nat := 2 ^ 31 + off % 2 ^ 30

/-- Detail of an INVALID for a result buffer too short (R458). -/
def bufferDetail (bytes : Nat) : Nat := 2 ^ 30 + (bytes + 63) / 64 % 2 ^ 30

/-- Offsets of the management message payload (R525): little-endian. -/
def mgmtPar (m : Mgmt) (off len : Nat) : Nat := leAt m.payload off len

end Sys2Proof.Machine
end

