-- ==== Sys2Proof/Machine/Ops.lean ====
section
/-! DEFINITION. Shared operations: functions and what they own, host time, interrupts, reply rings, event queues and
records, status replies, accounts, and the ends of requests. -/

namespace Sys2Proof.Machine

/-! ### Elapsed time -/

/-- Length of a cycle of the 100 MHz reference clock in ns (R597). -/
def tickNs : Nat := 10

/-- On an empty queue nothing is commanded: elapsed time goes on by one cycle of the reference clock (log entry 1). -/
def tick (s : State) : State :=
  { s with now := s.now + tickNs, powered := if s.power.state = .off then s.powered else s.powered + tickNs }

/-! ### Functions and what each owns -/

def fnGet (s : State) (n : Nat) : FnState := sgetD s.fns n {}

def fnSet (s : State) (n : Nat) (f : FnState) : State := { s with fns := sput s.fns n f }

def fnMod (s : State) (n : Nat) (g : FnState → FnState) : State := fnSet s n (g (fnGet s n))

/-- Function owning slice n: the virtual function while it is enabled, else the physical function (R413). -/
def ownerOfSlice (s : State) (n : Nat) : Nat := if n ≠ 0 ∧ (fnGet s n).enabled then n else 0

def ownerOfQueue (s : State) (q : Nat) : Nat := ownerOfSlice s (q / 1024)

def ownerOfRing (s : State) (r : Nat) : Nat := ownerOfSlice s (r / 64)

/-- Bootstrap queue and ring of a function: the lowest numbered it owns (R425). -/
def bootQueue (fn : Nat) : Nat := 1024 * fn
def bootRing (fn : Nat) : Nat := 64 * fn

/-- MSI-X vectors of a function (R408). -/
def vectorsOf (fn : Nat) : Nat := if fn = 0 then 2048 else 64

/-- Whether firmware runs. -/
def isRunning (s : State) : Bool := decide (s.boot.state = .running)

/-! ### Host time (R396–R399) -/

/-- Interpolated host time (R397), which never runs backwards (R398). -/
def hostTime (s : State) : Nat :=
  max s.time.floor (s.time.mark + s.time.rate * (s.now - s.time.markAt) / 4294967296)

/-- TIME_STALE (R399): no mark for more than 1 s, or none yet since the reset that emptied host time. -/
def timeStale (s : State) : Bool := !s.time.set || s.time.stale

/-- Accepts a mark: the anchor moves to it, the rate is fitted to the accepted marks of the last 10 s, and host time is
held at its present value if the mark is behind (R397, R398). -/
def acceptMark (s : State) (m : Nat) : State :=
  let kept := (s.now, m) :: (if s.time.set then s.time.marks.filter (fun e => s.now - e.1 ≤ 10000000000) else [])
  { s with time :=
    { set := true, mark := m, markAt := s.now, rate := Config.fittedRate kept,
      floor := if s.time.set then hostTime s else 0, marks := kept, stale := false } }

/-! ### Interrupts (R435, R416) -/

/-- Signals an MSI-X vector of a function: a masked vector sets its pending bit instead (R435). -/
def signal (s : State) (fn vec : Nat) : State :=
  fnMod s fn (fun f =>
    let e := sgetD f.msix vec {}
    if e.masked then { f with pba := if f.pba.contains vec then f.pba else vec :: f.pba }
    else { f with signals := (vec, e.address, e.data) :: f.signals })

/-! ### Host memory -/

/-- The engine's DMA write to host memory. -/
def hostWrite (s : State) (a : Nat) (b : Bytes) : State := { s with hostMem := memWriteBytes s.hostMem a b }

/-- Whether the engine may issue DMA for a function: not while DMA is stopped (R424), in D3hot (R570) or without a link. -/
def dmaAllowed (s : State) (fn : Nat) : Bool :=
  !s.boot.dmaStopped && !(fnGet s fn).d3hot && s.link.up

/-! ### Reply rings (R432–R435, R400) -/

def ringFull (r : ReplyRing) : Bool := decide (r.depth ≤ r.producer - r.consumer)

/-- Writes an entry and the producer count that covers it, and counts it toward the ring's signal (R433–R435). -/
def ringWrite (s : State) (n : Nat) (r : ReplyRing) (e : Bytes) : State :=
  let s1 := hostWrite s (r.base.toNat + 64 * (r.producer % r.depth)) e
  let s2 := hostWrite s1 (r.base.toNat + 64 * r.depth) (leBytes 8 (r.producer + 1))
  let r1 := { r with producer := r.producer + 1, unsignalled := r.unsignalled + 1,
                     oldestAt := if r.unsignalled = 0 then s.now else r.oldestAt }
  if r1.modCount ≤ r1.unsignalled ∨ r1.modDelay = 0 then
    signal { s2 with rings := sput s2.rings n { r1 with unsignalled := 0 } } (ownerOfRing s n) r1.vector
  else { s2 with rings := sput s2.rings n r1 }

/-- Writes an entry, after the result it reports (R402). -/
def ringWriteEntry (s : State) (n : Nat) (r : ReplyRing) (e : RingEntry) : State :=
  ringWrite (if e.data.isEmpty then s else hostWrite s e.dataAt e.data) n r e.bytes

/-- Whether a module writes records at all: only while PAIR_OK_OUT is asserted (R493). -/
def mayWriteRecords (s : State) : Bool := s.pair.okOut

/-- Posts an entry to a ring: written if the ring is free and DMA may go, and a record if records may be written, else held in order (R400); a ring that does not
exist takes nothing. Answers whether it was written. -/
def ringPost (s : State) (n : Nat) (e : RingEntry) : State × Bool :=
  match sget s.rings n with
  | none => (s, true)
  | some r =>
    if r.held = [] ∧ !ringFull r ∧ dmaAllowed s (ownerOfRing s n) ∧ (e.request = none ∨ mayWriteRecords s) then (ringWriteEntry s n r e, true)
    else ({ s with rings := sput s.rings n { r with held := r.held ++ [e] } }, false)

/-! ### Event queues and error records (R436, R437, R516–R521) -/

/-- Entries of an event queue, 0 for a size that leaves it disabled (R436). -/
def eqEntries (f : FnState) : Nat := if 6 ≤ f.eqSize ∧ f.eqSize ≤ 16 then 2 ^ f.eqSize else 0

/-- Writes a record to a function's event queue, or drops and counts it if the queue is full or disabled (R437). -/
def eventWrite (s : State) (fn : Nat) (r : ErrorRecord) : State :=
  let f := fnGet s fn
  if f.eqEnable ∧ 0 < eqEntries f ∧ f.eqProducer - f.eqConsumer < eqEntries f then
    let s1 := hostWrite s (f.eqBase.toNat + 64 * (f.eqProducer % eqEntries f)) (errorRecordBytes r)
    let s2 := hostWrite s1 (f.eqBase.toNat + 64 * eqEntries f) (leBytes 8 (f.eqProducer + 1))
    signal (fnSet s2 fn { f with eqProducer := f.eqProducer + 1 }) fn 0
  else fnSet s fn { f with eqOverflow := true, eqDropped := min 65535 (f.eqDropped + 1) }

/-- Holds a record for a function's event queue: the 256 most recent, the oldest dropped first (R608). -/
def holdRecord (f : FnState) (r : ErrorRecord) : FnState :=
  if f.heldRecords.length < 256 then { f with heldRecords := f.heldRecords ++ [r] }
  else { f with heldRecords := f.heldRecords.drop 1 ++ [r], heldDropped := f.heldDropped + 1 }

/-- A record on its way to a function's event queue (R437, R520, R608). -/
def eventPost (s : State) (fn : Nat) (r : ErrorRecord) : State :=
  let f := fnGet s fn
  if f.holding ∨ s.boot.dmaStopped then fnSet s fn { holdRecord f r with holding := true }
  else if !dmaAllowed s fn then fnSet s fn (holdRecord f r)
  else eventWrite s fn r

/-- Writes the records held for a function, in issue order, and counts those dropped meanwhile (R608). -/
def flushHeld (s : State) (fn : Nat) : State :=
  let f := fnGet s fn
  let s1 := fnSet s fn { f with holding := false, heldRecords := [], heldDropped := 0,
                                eqOverflow := f.eqOverflow || decide (0 < f.heldDropped),
                                eqDropped := min 65535 (f.eqDropped + f.heldDropped) }
  f.heldRecords.foldl (fun st r => eventWrite st fn r) s1

/-- Lowest severity among held records. -/
def lowestSeverity (l : List LodgeRecord) : Nat := l.foldl (fun m r => min m r.record.severity) 7

/-- Removes the oldest record of a severity. -/
def dropOldest (sev : Nat) : List LodgeRecord → List LodgeRecord
  | [] => []
  | r :: rs => if r.record.severity = sev then rs else r :: dropOldest sev rs

/-- The Lodge takes a record (R521, R522): holds it, at most 16,384, logs it in flash from severity 3 on, and sends it on
each route that is available. -/
def lodgeTake (s : State) (r : ErrorRecord) : State :=
  if s.lodge.alive then
    let l := s.lodge
    let full := decide (16384 ≤ l.held.length)
    let kept := if full then dropOldest (lowestSeverity l.held) l.held else l.held
    let sent := (if l.eventReceiver.isSome then [(0, l.nextSequence)] else [])
      ++ (if l.collector.isSome then [(1, l.nextSequence)] else [])
    { s with lodge := { l with
        held := kept ++ [⟨l.nextSequence, r, s.now⟩]
        nextSequence := (l.nextSequence + 1) % 2 ^ 32
        discarded := if full then l.discarded + 1 else l.discarded
        flashLog := if 3 ≤ r.severity then (r :: l.flashLog).take 4096 else l.flashLog
        sent := sent ++ l.sent } }
  else s

/-- Sends a record by both paths (R520): the event queue of function 0 and of the function it names, once the Gatehouse
is released, and the Lodge. -/
def emitRecord (s : State) (r : ErrorRecord) : State :=
  let s1 := if s.boot.sequence = .released ∨ s.boot.sequence = .up then
      let a := eventPost s 0 r
      if r.fn ≠ 0 ∧ (fnGet a r.fn).enabled then eventPost a r.fn r else a
    else s
  lodgeTake s1 r

/-- Voltage of the rail of the unit a record names (R609). -/
def unitVoltage (s : State) (kind : Nat) (uid : Word) : Nat :=
  match railOf kind uid with
  | some r => Config.railMillivolts r s.now % 65536
  | none => s.power.mainMillivolts % 65536

/-- The record of an event at this moment (R516). -/
def makeRecord (s : State) (kind severity : Nat) (uid : Word) (detail : Bytes) (fn : Nat) (op : Option OpInfo)
    (count : Nat) : ErrorRecord :=
  { kind := kind, severity := severity, stale := timeStale s, fn := fn, uid := uid,
    lastMark := BitVec.ofNat 64 s.time.mark, elapsed := hostTime s - s.time.mark, op := op,
    temperature := unitTemp s.thermal uid, count := count, voltage := unitVoltage s kind uid, detail := detail }

/-- The count entry of a pair of kind and UID. -/
def countOf (s : State) (kind : Nat) (uid : Word) : Option RecordCount :=
  s.counts.find? (fun c => c.kind = kind ∧ c.uid = uid)

/-- Replaces the count entry of a pair. -/
def setCount (s : State) (c : RecordCount) : State :=
  { s with counts := c :: s.counts.filter (fun e => ¬(e.kind = c.kind ∧ e.uid = c.uid)) }

/-- Reports an event (R519): one record a pair and 100 ms of host time, later events held; severities 4 and 5 never are. -/
def reportOf (s : State) (kind severity : Nat) (uid : Word) (detail : Bytes) (fn : Nat) (op : Option OpInfo) : State :=
  let h := hostTime s
  match countOf s kind uid with
  | none =>
    let r := makeRecord s kind severity uid detail fn op 1
    emitRecord (setCount s ⟨kind, uid, 1, h, none⟩) r
  | some c =>
    let n := satSucc 65535 c.count
    let r := makeRecord s kind severity uid detail fn op n
    if 4 ≤ severity ∨ c.lastIssued + 100000000 ≤ h then
      emitRecord (setCount s { c with count := n, lastIssued := h, held := none }) r
    else setCount s { c with count := n, held := some r }

/-- Reports an event of a unit that runs no plan node and names no function. -/
def report (s : State) (kind severity : Nat) (uid : Word) (detail : Bytes) : State :=
  reportOf s kind severity uid detail 0 none

/-- Adds one to a violation count (R556): function 0–63, or 64 for internal sources. -/
def violation (s : State) (source : Nat) : State :=
  { s with lodge := { s.lodge with violations := lmod s.lodge.violations source (fun w => satAdd32 w 1) } }

/-- Adds several violations to a count. -/
def violations (s : State) (source n : Nat) : State :=
  { s with lodge := { s.lodge with violations := lmod s.lodge.violations source (fun w => satAdd32 w n) } }

/-! ### Status replies (R454) -/

/-- A response of the Lodge to a management message (R524). -/
def mgmtRespond (s : State) (spdm : Nat) (sequence : BitVec 16) (command : Nat) (st : Status) (payload : Bytes) : State :=
  { s with lodge := { s.lodge with responses := ⟨spdm, sequence, command, st, payload⟩ :: s.lodge.responses } }

/-- Answers a packet: the reply goes to the ring of its queue, or to the Lodge that carried it (R454, R525). -/
def replyTo (s : State) (o : Origin) (st : Status) (detail : Nat) (result : Bytes) : State :=
  match o.via with
  | some spdm =>
    mgmtRespond s spdm o.mgmtSeq 0x0B st (statusReplyBytes st o.opcode 0xFFFF 0 o.tag detail result)
  | none =>
    let consumed := ((sget s.queues o.queue).map (·.consumed)).getD 0
    (ringPost s o.ring { bytes := statusReplyBytes st o.opcode o.queue consumed o.tag detail result }).1

def reply (c : Ctx) (s : State) (st : Status) (detail : Nat) (result : Bytes) : State :=
  replyTo s c.origin st detail result

def replyOk (c : Ctx) (s : State) (result : Bytes) : State := reply c s .ok 0 result

def replySt (c : Ctx) (s : State) (st : Status) : State := reply c s st 0 []

def replyInvalid (c : Ctx) (s : State) (detail : Nat) : State := reply c s .invalid detail []

/-- A packet that names a resource of another function: a violation, refused with INVALID (R415, R555). -/
def replyForeign (c : Ctx) (s : State) (off : Nat) : State := replyInvalid c (violation s c.fn) (parDetail off)

/-- Writes records to the result buffer named at a parameter offset and answers with the bytes written (R458). -/
def replyBuffer (c : Ctx) (s : State) (off : Nat) (records : Bytes) : State :=
  if c.par off 8 % 64 ≠ 0 then replyInvalid c s (parDetail off)
  else if c.par (off + 8) 4 < records.length then reply c s .invalid (bufferDetail records.length) []
  else replyOk c (hostWrite s (c.par off 8) records) (leBytes 4 records.length)

/-- A long opcode goes to work (R455). -/
def startJob (c : Ctx) (s : State) (w : Work) : State := { s with jobs := s.jobs ++ [⟨c.origin, w⟩] }

/-- Long opcodes of a function at work or waiting (R456). -/
def longRunning (s : State) (fn : Nat) : Nat :=
  (s.jobs.filter (fun j => j.origin.fn = fn)).length + (s.dormantWait.filter (fun c => c.origin.fn = fn)).length

/-- Answers the jobs that `answer` has an answer for, and takes them off the list. -/
def finishJobs (s : State) (answer : Job → Option (Status × Nat × Bytes)) : State :=
  s.jobs.foldl (fun st j =>
    match answer j with
    | some (x, d, r) => replyTo st j.origin x d r
    | none => st)
    { s with jobs := s.jobs.filter (fun j => (answer j).isNone) }

/-! ### Accounts (R377–R382) -/

/-- Whether a pair is in force, so that buckets refill at half rate (R489). -/
def pairHalves (s : State) : Bool := decide (s.pair.phase = .paired ∨ s.pair.phase = .partitioned)

/-- Brings a bucket up to host time h (R378), at half rate and burst in a pair (R489). -/
def updateBucket (half : Bool) (h : Nat) (b : Bucket) : Bucket :=
  let dt := if b.fresh then 0 else h - b.updatedAt
  let gain : Int := Int.ofNat (b.rate * dt * 1024 / (if half then 2000000000 else 1000000000))
  let top : Int := Int.ofNat (if half then b.burst * 512 else b.burst * 1024)
  { b with level := min top (b.level + gain), updatedAt := h, fresh := false }

/-- Updates every bucket of an account (R378, R388). -/
def updateAccount (s : State) (a : Nat) : State :=
  { s with accounts := smod s.accounts a (fun x =>
      { x with buckets := x.buckets.map (updateBucket (pairHalves s) (hostTime s)) }) }

/-- Adds to the level of one bucket, up to the burst when it is a return (R381). -/
def addLevel (s : State) (a cls : Nat) (d : Int) (toBurst : Bool) : State :=
  { s with accounts := smod s.accounts a (fun x =>
      { x with buckets := lmod x.buckets cls (fun b =>
          let top : Int := Int.ofNat (if pairHalves s then b.burst * 512 else b.burst * 1024)
          { b with level := if toBurst then min top (b.level + d) else b.level + d }) }) }

/-- The bucket of an account's class. -/
def bucketOf (s : State) (a cls : Nat) : Bucket :=
  match sget s.accounts a with
  | some x => lgetD x.buckets cls {}
  | none => {}

/-! ### Ends of requests (R374, R381, R404–R407) -/

/-- Requests that hold an adapter, or one generation of it (R370). -/
def adapterHeld (s : State) (h : Nat) : Bool := s.requests.any (fun e => (e.2.adapter.map (·.1)) = some h)
def adapterGenHeld (s : State) (h gen : Nat) : Bool := s.requests.any (fun e => e.2.adapter = some (h, gen))

/-- Frees adapters that are retiring and that no request uses any longer (R354). -/
def settleAdapters (s : State) : State :=
  { s with objects := s.objects.filter (fun o => ¬(o.kind = .adapter ∧ o.retiring ∧ !adapterHeld s o.handle)) }

/-- Frees accounts that close, sessions that close and adapters that retire once no open request names them, and answers SESSION_CLOSE
(R354, R404, R407). -/
def settleClosing (s0 : State) : State :=
  let s := settleAdapters s0
  let openAcc := fun a => s.requests.any (fun e => e.2.account = a && !e.2.mirrored)
  let openSes := fun h => s.requests.any (fun e => e.2.session = h && !e.2.mirrored)
  let s1 := { s with
    accounts := s.accounts.filter (fun e => !e.2.closing || openAcc e.1)
    sessions := s.sessions.filter (fun e => !e.2.closing || openSes e.1) }
  finishJobs s1 (fun j => match j.work with
    | .closeSession h => if openSes h then none else some (.ok, 0, [])
    | _ => none)

/-- Whether a request holds a batch slot (R375). -/
def inBatch (r : Request) : Bool :=
  (decide (r.state = .prefill) || decide (r.state = .running)) && !r.ended && !r.mirrored && !r.handoff

/-- Takes a request out of its lane: the batch of the step, the deferral queue; one that leaves the batch counts (R387). -/
def unlane (s : State) (g h : Nat) : State :=
  let left := ((sget s.requests h).map inBatch).getD false
  { s with lanes := smod s.lanes g (fun l =>
      { l with leftNow := if left then l.leftNow + 1 else l.leftNow
               deferral := l.deferral.filter (fun x => x ≠ h)
               step := l.step.map (fun st => { st with batch := st.batch.filter (fun x => x ≠ h) }) }) }

/-- Removes a request that ends: its charge returns if it has run in no step (R381), its blocks, its hand-off space and
its place in the lane are freed. -/
def dropRequest (s : State) (h : Nat) : State :=
  match sget s.requests h with
  | none => s
  | some r =>
    let s1 := if r.ran then s else addLevel s r.account r.cls (Int.ofNat (r.charge * 1024)) true
    let s2 := unlane s1 r.graph h
    settleClosing { s2 with requests := sdel s2.requests h }

/-- Removes several requests in order. -/
def dropRequests (s : State) (hs : List Nat) : State := hs.foldl dropRequest s

/-- Whether an entry is a token record of kind 0 (R401). -/
def isToken (e : RingEntry) : Bool :=
  e.request.isSome && decide (fld (leAt e.bytes 0 4) 31 24 = 2) && decide (fld (leAt e.bytes 0 4) 23 20 = 0)

/-- A record of a request has been written: an output token is charged (R379), and the last record ends the request
(R374). -/
def recordWritten (s : State) (e : RingEntry) : State :=
  match e.request with
  | none => s
  | some h =>
    let s1 := if isToken e then (match sget s.requests h with
      | some r => addLevel s r.account r.cls (-1024) false
      | none => s) else s
    if e.ends then dropRequest s1 h else s1

/-- A request whose last record waits: it takes no further part, and holds no blocks (R374, R400). -/
def markEnded (s : State) (h g : Nat) : State :=
  let s1 := unlane s g h
  { s1 with requests := smod s1.requests h (fun q => { q with ended := true, blocks := [], reserved := [] }) }

/-- Hands a record of a request to its ring (R400). -/
def pushRecord (s : State) (h : Nat) (e : RingEntry) : State :=
  match sget s.requests h with
  | none => s
  | some r =>
    let (s1, written) := ringPost s r.ring e
    if written then recordWritten s1 e
    else if e.ends then markEnded s1 h r.graph else s1

/-- Posts a record of a request; records that wait for the partner's acknowledgement go first (R491). -/
def postRecord (s : State) (h : Nat) (e : RingEntry) : State :=
  match sget s.requests h with
  | none => s
  | some r =>
    if r.awaiting.isEmpty then pushRecord s h e
    else
      let s1 := { s with requests := smod s.requests h (fun q => { q with awaiting := q.awaiting ++ [e] }) }
      if e.ends then markEnded s1 h r.graph else s1

/-- The partner has acknowledged, or is not waited for any longer: the records of a request go to its ring (R491, R495). -/
def flushAwaiting (s : State) (h : Nat) : State :=
  match sget s.requests h with
  | none => s
  | some r =>
    r.awaiting.foldl (fun t e => pushRecord t h e)
      { s with requests := smod s.requests h (fun q => { q with awaiting := [] }) }

/-- A record of a request at a boundary, or at its end without output: kinds 2 and 3 (R401, R403). -/
def noticeRecord (s : State) (h : Nat) (r : Request) (kind : Nat) (ends : Bool) (st : Status) (epoch : Nat) :
    TokenRecord :=
  { kind := kind, ends := ends, stale := timeStale s, handle := h, tag := r.tag, index := r.outputs, status := st,
    late := r.cont && decide (r.deadline ≠ 0 ∧ r.deadline < hostTime s), budgetHold := r.budgetHold, adapterGen := ((r.adapter.map (·.2)).getD 0),
    graph := r.graph, cls := r.cls, account := r.account, hostTime := hostTime s, summary := [0, 0, 0, epoch] }

/-- Epoch a lane runs under. -/
def laneEpoch (s : State) (g : Nat) : Nat := ((sget s.lanes g).map (·.epoch)).getD s.planner.epoch

/-- Ends a request with a kind 3 record (R401, R406, R394). -/
def endRequest (s : State) (h : Nat) (st : Status) : State :=
  match sget s.requests h with
  | none => s
  | some r =>
    postRecord s h { bytes := tokenRecordBytes (noticeRecord s h r 3 true st (laneEpoch s r.graph)), request := some h, ends := true }

/-- Records that wait for their ring stay there when their request has ended without waiting for them (R400): they name none any longer. -/
def orphanRecords (s : State) (gone : List Nat) : State :=
  { s with rings := smapAll s.rings (fun _ r => { r with held := r.held.map (fun e =>
      if (e.request.map gone.contains).getD false then { e with request := none, ends := false } else e) }) }

/-- Marks requests to end at their lane's next boundary without records (R404, R442); one whose end record was waiting
ends at once with its ring. -/
def closeRequests (s : State) (p : Request → Bool) : State :=
  let gone := (s.requests.filter (fun e => p e.2 && e.2.ended)).map (·.1)
  let s1 := { s with requests := smapAll s.requests (fun _ r => if p r then { r with closing := true } else r) }
  orphanRecords (dropRequests s1 gone) gone

/-- Marks requests to end at their lane's next boundary as REQUEST_CANCEL does (R406, R444). -/
def cancelRequests (s : State) (p : Request → Bool) : State :=
  { s with requests := smapAll s.requests (fun _ r => if p r then { r with cancelled := true } else r) }

/-! ### Bits of state read by several families -/

/-- The open requests of an account in a class (R384). -/
def openInClass (s : State) (a cls : Nat) : Nat :=
  (s.requests.filter (fun e => e.2.account = a ∧ e.2.cls = cls ∧ !e.2.mirrored)).length

/-- Marks a free value as used: the next one is another (log entry 4). -/
def nextFree (s : State) : State := { s with freeIdx := s.freeIdx + 1 }

/-- Objects by kind and handle. -/
def objGet (s : State) (k : ObjKind) (h : Nat) : Option LoadedObject :=
  s.objects.find? (fun o => o.kind = k ∧ o.handle = h)

def objMod (s : State) (k : ObjKind) (h : Nat) (f : LoadedObject → LoadedObject) : State :=
  { s with objects := s.objects.map (fun o => if o.kind = k ∧ o.handle = h then f o else o) }

def arrGet (s : State) (a : Nat) : OrArray := sgetD s.arrays a {}
def arrSet (s : State) (a : Nat) (x : OrArray) : State := { s with arrays := sput s.arrays a x }
def arrMod (s : State) (a : Nat) (f : OrArray → OrArray) : State := arrSet s a (f (arrGet s a))

def siteGet (s : State) (n : Nat) : Site := sgetD s.sites n {}
def siteSet (s : State) (n : Nat) (x : Site) : State := { s with sites := sput s.sites n x }
def siteMod (s : State) (n : Nat) (f : Site → Site) : State := siteSet s n (f (siteGet s n))

def quartzGet (s : State) (u : Nat) : Quartz := sgetD s.quartz u {}
def quartzMod (s : State) (u : Nat) (f : Quartz → Quartz) : State :=
  { s with quartz := sput s.quartz u (f (quartzGet s u)) }

def coreGet (s : State) (c : Nat) : Core := sgetD s.cores c {}
def coreMod (s : State) (c : Nat) (f : Core → Core) : State := { s with cores := sput s.cores c (f (coreGet s c)) }

/-- Number of a core: quarter, kind and number (R233). -/
def coreKey (c : CoreId) : Nat :=
  c.quarter.val * 2048 + (match c.core.kind with | .garnet => 0 | .opal => 512 | .jet => 1024) + c.core.number

def portGet (s : State) (p : Nat) : Port := lgetD s.ports p {}
def portMod (s : State) (p : Nat) (f : Port → Port) : State := { s with ports := lmod s.ports p f }

def reqMod (s : State) (h : Nat) (f : Request → Request) : State := { s with requests := smod s.requests h f }
def laneMod (s : State) (g : Nat) (f : Lane → Lane) : State := { s with lanes := smod s.lanes g f }

/-- The running plan node on a unit of a lane, for a record (R516 word 5). -/
def opOf (s : State) (lane node : Nat) : Option OpInfo :=
  (sget s.lanes lane).map (fun l => ⟨lane, node, l.stepNo⟩)

/-- Queues a cause for Ezjor's next forced build (R301). -/
def forceBuild (s : State) (c : BuildCause) : State :=
  { s with planner := { s.planner with queued := if s.planner.queued.contains c then s.planner.queued else
      s.planner.queued ++ [c] } }

/-- Marks the sequences of a lane's step to be computed again (R188), showing replayed and, for a sentinel, the retry. -/
def recomputeStep (s : State) (lane : Nat) (sentinel : Bool) : State :=
  match (sget s.lanes lane).bind (·.step) with
  | none => s
  | some st =>
    let s1 := { s with requests := smapAll s.requests (fun h r => if st.batch.contains h then
        { r with summary := { r.summary with replayed := true, sentinel := r.summary.sentinel || sentinel } } else r) }
    laneMod s1 lane (fun l => { l with step := some { st with recompute := st.batch } })

end Sys2Proof.Machine
end

