-- ==== Sys2Proof/Machine/Resets.lean ====
section
/-! DEFINITION. The fatal state and the resets of R585, from the weakest to the strongest, each doing to every piece of
state what R587 lays down; the power-up sequence's shared parts. -/

namespace Sys2Proof.Machine

/-! ### The fatal state (R423, R424, R493) -/

/-- PAIR_OK_OUT (R493): asserted only while BOOT_STATE reads running and FATAL bit 31 is 0. -/
def refreshPairOk (s : State) : State :=
  { s with pair := { s.pair with okOut := isRunning s && !s.boot.fatal && s.lodge.alive } }

/-- Entering the fatal state (R423, R424): the cause and unit, the count, DMA stopped, vector 0 of the physical function
signalled if it is unmasked, an AER report, PAIR_OK_OUT deasserted. -/
def enterFatal (s : State) (cause : Nat) (uid : Word) : State :=
  let s1 := if (sgetD (fnGet s 0).msix 0 {}).masked then s else signal s 0 0
  refreshPairOk { s1 with boot := { s1.boot with
    fatal := true, fatalCause := cause, fatalUid := uid, dmaStopped := true, aerReports := s.boot.aerReports + 1,
    fatalCount := if s.boot.fatal then s.boot.fatalCount else satSucc 65535 s.boot.fatalCount } }

/-- FATAL as it is written when the Gatehouse has lost its rails or fallen silent (R535, R562): no interrupt and no AER
report leaves it. -/
def fatalBits (s : State) (cause : Nat) (uid : Word) : State :=
  refreshPairOk { s with boot := { s.boot with
    fatal := true, fatalCause := cause, fatalUid := uid, dmaStopped := true
    fatalCount := if s.boot.fatal then s.boot.fatalCount else satSucc 65535 s.boot.fatalCount } }

/-! ### Queue resets (R444) -/

/-- Queue reset of a submission queue: its counts go to 0 and its requests end as cancelled ones. -/
def resetQueue (s : State) (q : Nat) : State :=
  let s1 := { s with queues := smod s.queues q (fun x => { x with producer := 0, consumed := 0 }) }
  cancelRequests s1 (fun r => r.queue = q)

/-- Queue reset of a reply ring: its counts go to 0 and what it holds is discarded. -/
def resetRing (s : State) (n : Nat) : State :=
  { s with rings := smod s.rings n (fun r =>
      { r with producer := 0, consumer := 0, held := [], unsignalled := 0, oldestAt := 0 }) }

/-! ### Function-level reset (R442) -/

/-- The ring number that no reply reaches: where replies of interrupted packets go (R457). -/
def noRing : Nat := 65536

/-- Function-level reset of one function. -/
def flrOne (s : State) (fn : Nat) : State :=
  let s1 := closeRequests s (fun r => r.fn = fn)
  let mine := fun (o : Origin) => decide (o.fn = fn) && o.via.isNone
  let s2 := { s1 with
    sessions := s1.sessions.filter (fun e => e.2.fn ≠ fn)
    spdm := s1.spdm.filter (fun e => e.fn ≠ some fn)
    queues := s1.queues.filter (fun e => ownerOfQueue s1 e.1 ≠ fn)
    rings := s1.rings.filter (fun e => ownerOfRing s1 e.1 ≠ fn)
    jobs := (s1.jobs.filter (fun j => !(mine j.origin && (match j.work with | .closeSession _ => true | _ => false)))).map
      (fun j => if mine j.origin then { j with origin := { j.origin with ring := noRing } } else j)
    dormantWait := s1.dormantWait.map (fun c =>
      if mine c.origin then { c with origin := { c.origin with ring := noRing } } else c) }
  let s3 := fnSet s2 fn { enabled := (fnGet s2 fn).enabled }
  if fn = 0 then { s3 with boot := { s3.boot with mbxAddr := 0 } } else s3

/-- Function-level reset: that of the physical function also resets every virtual function and clears VF Enable (R442). -/
def functionReset (s : State) (fn : Nat) : State :=
  if fn = 0 then
    let s1 := ((List.range 64).drop 1).foldl (fun st n => if (fnGet st n).enabled then flrOne st n else st) s
    let s2 := flrOne { s1 with fns := smapAll s1.fns (fun _ f => { f with enabled := false }) } 0
    { s2 with link := { s2.link with vfEnable := false, numVfs := 0 } }
  else flrOne s fn

/-! ### PCIe hot reset (R443) -/

/-- Acts as a function-level reset of every function, followed by link retraining; every session ends (R587). -/
def hotReset (s : State) : State :=
  let s1 := functionReset s 0
  { s1 with sessions := [], spdm := [], link := { s1.link with up := false },
            boot := { s1.boot with lastReset := 6 } }

/-! ### Chip reset (R512, R586, R587) -/

/-- What a chip reset or a stronger loss does to an array (R118, R68, R69, R587): tables go, and with them the gains a later fit
could keep; states 2–4 return to 1; weights, owner, generation and wear stay, to be verified; a programming that was cut short leaves no levels
to rely on, and the erasure that waited for it is made (R600). -/
def arrayTablesLost (a : OrArray) : OrArray :=
  { a with active := none, staged := none, result := 0, retry := none, tau := 32768, tableEpoch := 0, activatedAt := 0, due := false,
           tracking := [], lastStep := [], sinceCheck := 0, checking := none, checkFailed := none, calTemp := 0, fit := [],
           zeroCodes := [], gains := [], verified := false,
           probeFailed := none, calibrated := false,
           state := (match a.state with
             | .serving => .programmed | .calibrating => .programmed
             | .programming => if a.eraseAfter then .erased else .programmed
             | x => x),
           levels := if a.program.isSome then [] else a.levels
           ownerKind := if a.eraseAfter then 0 else a.ownerKind, owner := if a.eraseAfter then 0 else a.owner
           generation := if a.eraseAfter then 0 else a.generation
           program := none, content := {}, orphaned := false, eraseAfter := false, withdrawn := false }

/-- What a module reset or a loss of power does to an array besides: no object is loaded, and its contents are to be compared with the golden
copy that is loaded next (R127, R366). -/
def arrayUnproven (a : OrArray) : OrArray := { arrayTablesLost a with unproven := true }

/-- A golden copy that is gone from the memory tier, to be fetched again (R366): where the plan has it stays known. -/
def shardLost (x : Shard) : Shard := { x with verified := false, failedOnce := false, bytes := [], inMemoryTier := false, rehashed := false }

/-- Contents of the memory tier outside the preserved region are lost: shards are fetched again (R366), and no re-hash pass is kept (R372). -/
def goldenLost (o : LoadedObject) : LoadedObject :=
  { o with gens := o.gens.map (fun g => { g with shards := g.shards.map shardLost, rehash := 0, rehashTransient := false, passFrom := 0 }) }

/-- What a chip reset does to the engine outside the host's functions. Every slice calibrates anew, and a permanent stand-in does not
survive (R82, R113), though R587 keeps slice assignments (log entry 85). -/
def engineRestart (s : State) : State :=
  { s with
    time := {}
    thermal := { s.thermal with raiseSince := s.thermal.raiseSince.map (fun e => (e.1, 0)) }
    accounts := smapAll s.accounts (fun _ a => { a with buckets := a.buckets.map (fun b => { b with fresh := true }) })
    objects := s.objects.map goldenLost
    lanes := smapAll s.lanes (fun _ l => { l with
      step := none, deferral := [], sitsOut := true, left := [], leftNow := 0, changed := [], waitFrom := none })
    planner := { s.planner with build := none, queued := [], waiting := none, wantCheck := none }
    arrays := smapAll s.arrays (fun _ a => arrayTablesLost a)
    sites := []
    quartz := []
    layerSteps := []
    histories := []
    repairAdapters := []
    cores := []
    probes := []
    counts := []
    kv := { s.kv with newPool := none, peers := smapAll s.kv.peers (fun _ p => { p with full := false }) }
    ports := s.ports.map (fun p => { ({} : Port) with mode := p.mode, state := if p.mode = 0 then 0 else 1 })
    pair := { s.pair with phase := if s.pair.configured then .establishing else .unpaired, unacked := [], building := false }
    reliability := { s.reliability with
      rowRepairs := s.reliability.rowRepairs ++ s.reliability.hardRepairs.filter (fun r => !s.reliability.rowRepairs.contains r)
      hardRepairs := []
      laneRepairs := s.reliability.laneRepairs ++ s.reliability.laneRepairsDue
      laneRepairsDue := []
      linkFails := [] } }

/-- Function state after a chip reset: default registers, VF Enable and D-state kept, event records held (R586, R608). -/
def fnAfterChipReset (f : FnState) : FnState :=
  { enabled := f.enabled, d3hot := f.d3hot, holding := true, heldRecords := f.heldRecords, heldDropped := f.heldDropped }

/-- Requests end at once without records, their charges returned (R514, R381); how many is kept for the kind 0x60 record. -/
def endAllRequests (s : State) : State :=
  let hs := (s.requests.filter (fun e => !e.2.mirrored)).map (·.1)
  let s1 := dropRequests s hs
  { s1 with requests := [], boot := { s1.boot with resetEnded := hs.length } }

/-- A chip reset begins (R512 step 4): `last` is the code of RESET_CTL, `cause` the kind of the record that reported it. -/
def chipReset (s : State) (last cause : Nat) : State :=
  let s1 := endAllRequests s
  let held := fun n => fnAfterChipReset (fnGet s1 n)
  let s2 := engineRestart { s1 with
    sessions := [], spdm := [], queues := [], rings := [], jobs := [], dormantWait := []
    fns := (List.range 64).filterMap (fun n => if n = 0 ∨ shas s1.fns n then some (n, held n) else none) }
  refreshPairOk { s2 with
    boot := { s2.boot with
      state := .chipReset, lastReset := last, chipResets := satSucc 65535 s2.boot.chipResets, resetCause := cause,
      resetAt := s.now, dmaStopped := true, kioskHung := false, watchdogAt := none, endsHalted := false }
    power := { s2.power with
      state := if s2.power.state = .dormant ∨ s2.power.state = .active then .idle else s2.power.state,
      hbmSelfRefresh := false, quartersGated := false } }

/-- Records held back by R519 are issued before the counts return to zero with a chip reset. -/
def flushCounts (s : State) : State :=
  s.counts.foldl (fun st c => match c.held with | some r => emitRecord st r | none => st) s

/-- Stops every step without completing it (R512 step 1). -/
def stopSteps (s : State) : State :=
  { s with lanes := smapAll s.lanes (fun _ l => { l with step := none }), layerSteps := [],
           sites := smapAll s.sites (fun _ x => { x with step := none, nextStep := none }) }

/-- Containment chip resets begun within one hour of the Lodge's timer (R515). -/
def recentContainments (s : State) : List Nat := s.boot.containments.filter (fun t => s.now - t ≤ 3600000000000)

/-- A containment chip reset begins and counts toward the limit of R515. -/
def containmentReset (s : State) (cause : Nat) : State :=
  let s1 := chipReset (flushCounts s) 3 cause
  { s1 with boot := { s1.boot with containments := s.now :: recentContainments s } }

/-- Containment of an event of R511 (R512), its record of a severity: steps stop, FATAL cause 4, the record goes through the
Lodge, the chip reset begins. During a chip reset it starts no other (R515); a fourth within the hour halts the engine (R515). -/
def containAs (s : State) (kind severity : Nat) (uid : Word) (detail : Bytes) (op : Option OpInfo) : State :=
  if s.boot.state = .running then
    let s1 := stopSteps s
    if 3 ≤ (recentContainments s).length then
      let s2 := enterFatal { s1 with boot := { s1.boot with state := .halted } } 4 uid
      report (reportOf s2 kind severity uid detail 0 op) 0x63 5 uid (leBytes 1 4)
    else containmentReset (reportOf (enterFatal s1 4 uid) kind severity uid detail 0 op) kind
  else if s.boot.state = .chipReset then reportOf s kind severity uid detail 0 op
  else s

/-- Containment with a record of severity 4. -/
def contain (s : State) (kind : Nat) (uid : Word) (detail : Bytes) (op : Option OpInfo) : State :=
  containAs s kind 4 uid detail op

/-! ### Module reset, Standby, Off (R585–R587) -/

/-- State that a module reset, Standby and Off return to its default (R587). Faults, repairs, fuses, flash and the Lodge's
held records stay. -/
def defaultForModule (s : State) : State :=
  { State.reset with
    pending := s.pending
    now := s.now
    freeIdx := s.freeIdx
    powered := s.powered
    fuses := s.fuses
    boot := { ({} : Boot) with
      sequence := s.boot.sequence, lastReset := s.boot.lastReset, fatal := s.boot.fatal,
      fatalCause := s.boot.fatalCause, fatalCount := s.boot.fatalCount, fatalUid := s.boot.fatalUid,
      aerReports := s.boot.aerReports, containments := s.boot.containments }
    power := { s.power with hbmSelfRefresh := false, quartersGated := false }
    thermal := { ({} : Thermal) with
      channels := s.thermal.channels, inlet := s.thermal.inlet, outlet := s.thermal.outlet, external := s.thermal.external,
      inShutdown := s.thermal.inShutdown, shutdowns := s.thermal.shutdowns, holdOff := s.thermal.holdOff,
      armed := s.thermal.armed, tripLatch := s.thermal.tripLatch, coolantRecordAt := s.thermal.coolantRecordAt }
    lodge := { s.lodge with
      setpointMv := 720, powerLimit := 2400, violations := List.replicate 65 0 }
    arrays := smapAll s.arrays (fun _ a => arrayUnproven a)
    sites := []
    reliability := { ({} : Reliability) with
      rowRepairs := s.reliability.rowRepairs ++ s.reliability.hardRepairs.filter (fun r => !s.reliability.rowRepairs.contains r)
      laneRepairs := s.reliability.laneRepairs ++ s.reliability.laneRepairsDue
      remaps := s.reliability.remaps, retiredBanks := s.reliability.retiredBanks
      gatehouseSpares := s.reliability.gatehouseSpares, scrubPasses := s.reliability.scrubPasses }
    pair := { ({} : Pair) with okIn := s.pair.okIn }
    planner := { ({} : Planner) with leftOut := s.planner.leftOut, lostStacks := s.planner.lostStacks }
    erases := s.erases
    hostMem := s.hostMem }

/-- The Lodge restarts from its image: its volatile settings and debug unlock are gone (R586, R557). -/
def lodgeRestart (l : Lodge) : Lodge :=
  { l with alive := false, runningImage := none, scrubPeriods := [10, 10, 28800, 86400], collector := none,
           eventReceiver := none, nonce := none, debugUnlocked := false }

/-- Module reset (R585, R586): from event B of R588; code 1, or 2 for PERST. A module reset from a pin or a command clears
the count of thermal shutdowns (R583). -/
def moduleReset (s : State) (last : Nat) : State :=
  let s1 := defaultForModule (flushCounts s)
  { s1 with
    lodge := lodgeRestart s1.lodge
    boot := { s1.boot with sequence := .lodgeRom, lastReset := last, containments := [] }
    thermal := { s1.thermal with
      shutdowns := [], holdOff := false, inShutdown := false
      channels := s1.thermal.channels.map (fun c =>
        { c with sampled := false, failed := (match c.last with | .temp _ => false | _ => true) }) }
    power := { s1.power with i3cAddress := 0x5A, i3cDynamic := false, offReason := 0,
                             state := if s1.power.railsOn then .idle else .standby } }

/-- Power-up of R562 and R583 as a module reset, from event C of R588: code 1; the count of shutdowns stays. -/
def powerUpReset (s : State) : State :=
  let s1 := defaultForModule (flushCounts s)
  { s1 with
    lodge := { s1.lodge with nonce := none, debugUnlocked := false }
    boot := { s1.boot with sequence := .waitRails, lastReset := 1, containments := [] }
    power := { s1.power with offReason := 0 }
    thermal := { s1.thermal with inShutdown := false } }

/-- Code of a power state in record 0x49 (R584). -/
def PowerState.code : PowerState → Nat
  | .active => 0 | .idle => 1 | .dormant => 2 | .standby => 3 | .off => 3

/-- The main rails are turned off: the module is in Standby (R565, R587), reported by a kind 0x49 record (R584). -/
def railsOff (s : State) (why : Nat) : State :=
  let old := s.power.state
  let s1 := defaultForModule (flushCounts s)
  let s2 := { s1 with
    boot := { s1.boot with sequence := .waitRails }
    power := { s1.power with state := .standby, railsOn := false, offReason := why } }
  if old = .standby then s2
  else report s2 0x49 0 (sensorUid 0) (leBytes 1 old.code ++ leBytes 1 PowerState.standby.code)

/-- The standby input is lost: Off (R565, R587). Array contents, fault records, repairs, the Lodge image, the flash log
and the fuses stay. -/
def powerOff (s : State) : State :=
  { State.off with
    pending := s.pending
    now := s.now
    freeIdx := s.freeIdx
    powered := s.powered
    fuses := s.fuses
    lodge := { State.off.lodge with flashImage := s.lodge.flashImage, flashLog := s.lodge.flashLog }
    arrays := smapAll s.arrays (fun _ a => arrayUnproven a)
    sites := []
    reliability := { ({} : Reliability) with
      rowRepairs := s.reliability.rowRepairs ++ s.reliability.hardRepairs.filter (fun r => !s.reliability.rowRepairs.contains r)
      laneRepairs := s.reliability.laneRepairs ++ s.reliability.laneRepairsDue
      remaps := s.reliability.remaps, retiredBanks := s.reliability.retiredBanks
      gatehouseSpares := s.reliability.gatehouseSpares }
    pair := { ({} : Pair) with okIn := s.pair.okIn }
    planner := { ({} : Planner) with leftOut := s.planner.leftOut, lostStacks := s.planner.lostStacks }
    thermal := { ({} : Thermal) with channels := s.thermal.channels, inlet := s.thermal.inlet, outlet := s.thermal.outlet,
                                       external := s.thermal.external }
    power := { State.off.power with refClock := s.power.refClock, modResetL := s.power.modResetL,
                                    perstAsserted := s.power.perstAsserted, mainMillivolts := s.power.mainMillivolts }
    erases := s.erases
    hostMem := s.hostMem }

/-- Cold power-on from Off (R585, R588 event A): the Lodge ROM verifies the Lodge image. -/
def coldPowerOn (s : State) : State :=
  { s with
    power := { s.power with state := .standby, standbyMillivolts := 12000 }
    boot := { ({} : Boot) with sequence := .lodgeRom } }

/-- The module is in the reset or power-up that POWER_CONTROL answers BUSY during (R525). -/
def resetInProgress (s : State) : Bool :=
  decide (s.boot.state = .chipReset) ||
  (match s.boot.sequence with
    | .lodgeRom => true | .railsUp => true | .released => true | _ => false)

end Sys2Proof.Machine
end

