-- ==== Sys2Proof/Machine/Packets.lean ====
section
/-! DEFINITION. Reading a command packet from a submission queue (R427–R431), the checks of R452 in their order, the limit
on long opcodes (R456), and what Dormant does to packets (R567). -/

namespace Sys2Proof.Machine

/-- Whether the session field breaks R448: a packet the Lodge carries (R529, R575) names 0xFFFF, SESSION_OPEN and TIME_MARK name 0xFFFF,
every other packet names a session of its function that is open. -/
def sessionBad (s : State) (c : Ctx) : Bool :=
  let h := hdrSession c.chain
  match c.origin.via with
  | some _ => decide (h ≠ 0xFFFF) || !decide (c.origin.opcode ∈ [0x0509, 0x050A, 0x0602])
  | none =>
    if c.origin.opcode = 0x0001 ∨ c.origin.opcode = 0x0004 then decide (h ≠ 0xFFFF)
    else match sget s.sessions h with
      | some x => decide (x.fn ≠ c.fn) || x.closing
      | none => true

/-- The Lodge's SPDM session of a number. -/
def lodgeSession (s : State) (id : Nat) : Option Spdm := s.spdm.find? (fun e => e.fn = none ∧ e.id.toNat = id)

/-- The SPDM session of a function with an identifier. -/
def fnSpdm (s : State) (fn : Nat) (id : Nat) : Option Spdm := s.spdm.find? (fun e => e.fn = some fn ∧ e.id.toNat = id)

/-- The key that checks a critical packet (R449, R450, R553): none if the session has lost or never had one. -/
def packetKey (s : State) (c : Ctx) : Option Bytes :=
  match c.origin.via with
  | some id => (lodgeSession s id).map (fun e => sessionKey e.secret 0xFFFF)
  | none => (sget s.sessions (hdrSession c.chain)).bind (·.key)

/-- Last counter accepted on the packet's session (R451). -/
def packetCounter (s : State) (c : Ctx) : Nat :=
  match c.origin.via with
  | some id => ((lodgeSession s id).map (·.counter)).getD 0
  | none => ((sget s.sessions (hdrSession c.chain)).map (·.counter)).getD 0

/-- Accepts a counter (R451). -/
def setPacketCounter (s : State) (c : Ctx) (n : Nat) : State :=
  match c.origin.via with
  | some id => { s with spdm := s.spdm.map (fun e => if e.fn = none ∧ e.id.toNat = id then { e with counter := n } else e) }
  | none => { s with sessions := smod s.sessions (hdrSession c.chain) (fun x => { x with counter := n }) }

/-- The last check of R452: an opcode for the physical function only, from a virtual function. SITE_SEQ_WRITE and
SITE_DIAG_RUN are answered BUSY (R452, R110). -/
def judgeIssuer (row : OpRow) (c : Ctx) : Option (Status × Nat) :=
  if row.pfOnly ∧ c.fn ≠ 0 then
    if row.opcode = 0x0505 ∨ row.opcode = 0x0506 then some (.busy, 0) else some (.invalid, 2)
  else none

/-- The checks of R452 after the chain and the opcode, in order, with the counter advance of R451. -/
def judgePacket (s : State) (row : OpRow) (c : Ctx) : State × Option (Status × Nat) :=
  match firstReserved row c.chain with
  | some off => (s, some (.invalid, off))
  | none =>
    if hdrCritical c.chain ≠ row.critical then (s, some (.invalid, 1))
    else if sessionBad s c then (s, some (.invalid, 6))
    else if row.critical then
      match packetKey s c with
      | none => (s, some (.authFail, 1))
      | some k =>
        if !trailerOk k c.chain then (s, some (.authFail, 1))
        else if trailerCounter c.chain ≤ packetCounter s c then (s, some (.counterRejected, 0))
        else (setPacketCounter s c (trailerCounter c.chain), judgeIssuer row c)
    else (s, judgeIssuer row c)

/-- Long opcodes that wait until Dormant ends (R567): those that need the Belvedere dies or the memory tier. -/
def waitsForDies (row : OpRow) : Bool :=
  row.long && !(decide (row.opcode = 0x0002) || decide (row.opcode = 0x0509) || decide (row.opcode = 0x0603))

/-- Packets answered BUSY while the engine is Dormant (R567). -/
def busyInDormant (opcode : Nat) : Bool :=
  decide (opcode ∈ [0x0501, 0x0502, 0x0504, 0x0505, 0x0507, 0x0404, 0x0405])

/-- A packet that passed R452: the limit of R456, Dormant (R567), then the opcode's own checks and work. -/
def admitPacket (row : OpRow) (c : Ctx) (s : State) (body : Ctx → State → State) : State :=
  if row.long ∧ 64 ≤ longRunning s c.fn then replySt c s .busy
  else if s.power.state = .dormant ∧ waitsForDies row then { s with dormantWait := s.dormantWait ++ [c] }
  else if s.power.state = .dormant ∧ busyInDormant row.opcode then replySt c s .busy
  else body c s

/-- Checks a packet whose chain has been read and carries it out (R452, R453). -/
def carryPacket (c : Ctx) (s : State) (body : Ctx → State → State) : State :=
  match opRow c.origin.opcode with
  | none => replyInvalid c s 2
  | some row =>
    match judgePacket s row c with
    | (s1, some (st, detail)) => reply c s1 st detail []
    | (s1, none) => admitPacket row { c with session := hdrSession c.chain } s1 body

/-- Entries of a queue that a doorbell covers and the Kiosk firmware has not read (R427, R431). -/
def covered (q : SubQueue) : Nat := (q.producer + 65536 - q.consumed) % 65536

/-- The Kiosk firmware reads the next chain of a queue (R430, R431): only while it runs and may issue DMA for the queue's
function, and only when a doorbell covers the chain's last unit. A chain of more units than the queue's depth is refused
and skipped. `mk` adds the operands a row has beside the packet. -/
def packetRow (opcode : Nat) (p : Pkt) (s : State) (mk : Ctx → Ctx) (body : Ctx → State → State) : State :=
  match sget s.queues p.queue.val with
  | none => s
  | some q =>
    if !isRunning s ∨ s.boot.kioskHung ∨ !dmaAllowed s (ownerOfQueue s p.queue.val) ∨ covered q = 0 then s
    else
      let ch := stampOpcode opcode (padTo (128 * hdrUnits p.chain) p.chain)
      let u := hdrUnits ch
      let c : Ctx := mk { origin := { fn := ownerOfQueue s p.queue.val, queue := p.queue.val, ring := q.ring,
                                      opcode := opcode, tag := hdrTag ch },
                          chain := ch, data := p.data }
      let skip := fun n => { s with queues := sput s.queues p.queue.val { q with consumed := (q.consumed + n) % 65536 } }
      if q.depth < u then replyInvalid c (skip (min u (covered q))) 1
      else if covered q < u then s
      else carryPacket c (skip u) body

end Sys2Proof.Machine
end

