-- ==== Sys2Proof/Machine/Datagrams.lean ====
section
/-! DEFINITION. Hachate flits and datagrams as bytes, and sending them (R475–R482). -/

namespace Sys2Proof.Machine
open Sys2Proof

/-- The 256 bytes of a Hachate flit (R475). -/
def flitBytes (kind vc seq ack : Nat) (credits : List Nat) (payload : Bytes) : Bytes :=
  let body := leBytes 1 (4 * kind + vc) ++ leBytes 3 seq ++ leBytes 3 ack ++ [0]
    ++ (List.range 4).flatMap (fun v => leBytes 1 (min 255 (lgetD credits v 0))) ++ padTo 240 payload
  body ++ leBytes 4 (crc32c body).toNat

/-- Whether a flit's check holds (R475). -/
def flitOk (f : Bytes) : Bool := decide (f.length = 256) && decide ((crc32c (f.take 252)).toNat = leAt f 252 4)

/-- A Hachate datagram (R479). -/
def datagramBytes (kind seq ack : Nat) (flits : List Bytes) : Bytes :=
  leBytes 1 1 ++ leBytes 1 kind ++ leBytes 2 flits.length ++ leBytes 4 seq ++ leBytes 4 ack ++ leBytes 4 0 ++ flits.flatten

/-- A flit of a datagram: data on VC2, its sequence, acknowledged and credits fields zero (R479). -/
def dataFlit (payload : Bytes) : Bytes := flitBytes 1 2 0 0 [] payload

/-- Sends a datagram that awaits its acknowledgement (R479, R482). Sequences start at 1 (log entry 18). -/
def sendDatagram (s : State) (port : Nat) (dest : BitVec 128) (kind : Nat) (flits : List Bytes)
    (fetch : Option (ObjKind × Nat × Nat × Nat)) : State :=
  portMod s port (fun p =>
    let seq := sgetD p.dgTx dest.toNat 1
    let b := datagramBytes kind seq (sgetD p.dgRx dest.toNat 0) flits
    { p with dgTx := sput p.dgTx dest.toNat (seq + 1), sent := b :: p.sent
             unacked := p.unacked ++ [{ sequence := seq, payload := b, sentAt := s.now, destination := dest, fetch := fetch }] })

/-- A port that carries traffic. -/
def portUp (p : Port) : Bool := decide (p.state = 2 ∨ p.state = 3)

/-- Flit numbers are 24 bits. -/
def flitMod : Nat := 16777216

/-- A numbered flit leaves on a virtual channel, into the retry buffer (R476, R477); it returns the credits due. -/
def flitLeaves (kind vc : Nat) (payload : Bytes) (p : Port) : Port :=
  let f := flitBytes kind vc p.txNext ((p.rxNext + flitMod - 1) % flitMod) p.freed payload
  { p with txNext := (p.txNext + 1) % flitMod, retry := p.retry ++ [(p.txNext, f)], sent := f :: p.sent
           credits := lmod p.credits vc (· - 1), freed := [0, 0, 0, 0] }

/-- Whether a flit may leave on a virtual channel: against a credit, and with room in the retry buffer of 1,024 flits (R476, R477). -/
def mayLeave (vc : Nat) (p : Port) : Bool := !(decide (lgetD p.credits vc 0 = 0 ∨ 1024 ≤ p.retry.length))

/-- Sends a flit at once, if it may leave. -/
def sendFlit (s : State) (n kind vc : Nat) (payload : Bytes) : State :=
  portMod s n (fun p => if mayLeave vc p then flitLeaves kind vc payload p else p)

/-- Notes what a message asks under its number. -/
def noteAsked (sequence : Nat) (destination : BitVec 128) (ask : Option Purpose) (p : Port) : Port :=
  match ask with
  | some a => { p with asked := { sequence := sequence, destination := destination, purpose := a } :: p.asked }
  | none => p

/-- Data flits leave on VC2 one after the other, as far as they may; the rest stay queued. -/
def drainQueue : List (Bytes × Option Purpose) → Port → Port
  | [], p => { p with queued := [] }
  | e :: rest, p =>
    if mayLeave 2 p then drainQueue rest (flitLeaves 1 2 e.1 (noteAsked p.txNext 0 e.2 p))
    else { p with queued := e :: rest }

/-- Lets a port's queued data go. -/
def drainPort (p : Port) : Port := if portUp p ∧ p.queued ≠ [] then drainQueue p.queued p else p

/-- The payloads of a message's flits: the descriptor with the first 208 bytes of data, then 240 bytes each (R480). -/
def messagePayloads (descriptor data : Bytes) : List Bytes :=
  (descriptor ++ data.take 208) :: chunks 240 (data.length / 240 + 1) (data.drop 208)

/-- Sends a message (R479, R480): in Ethernet mode as a datagram; over a port in Hachate mode as data flits on VC2, without a transport header. -/
def sendMessage (s : State) (port : Nat) (dest : BitVec 128) (kind : Nat) (payloads : List Bytes) (ask : Option Purpose) : State :=
  if (portGet s port).mode = 1 then
    portMod s port (fun p => drainPort { p with queued := p.queued ++ payloads.mapIdx (fun i b => (b, if i = 0 then ask else none)) })
  else
    let s1 := portMod s port (fun p => noteAsked (sgetD p.dgTx dest.toNat 1) dest ask p)
    sendDatagram s1 port dest kind (payloads.map dataFlit) (match ask with | some (.shard f) => some f | _ => none)

/-- Sends an acknowledgement, which is not acknowledged itself. -/
def sendAck (s : State) (port : Nat) (dest : BitVec 128) : State :=
  portMod s port (fun p => { p with sent := datagramBytes 4 0 (sgetD p.dgRx dest.toNat 0) [] :: p.sent })

/-- Descriptor of a read request (R480). -/
def readDescriptor (object : BitVec 64) (offset len number : Nat) : Bytes :=
  padTo 32 (leBytes 8 object.toNat ++ leBytes 8 offset ++ leBytes 4 len ++ leBytes 4 number)

/-- Descriptor of a refusal (R480). -/
def refusalDescriptor (seq reason : Nat) : Bytes := padTo 32 (leBytes 4 seq ++ leBytes 2 reason)

/-- Largest read request (R480). -/
def readLimit : Nat := 1048576

/-- The read requests of one shard that lies at a weight server (R344, R347, R480). -/
def readShard (k : ObjKind) (h gen : Nat) (s : State) (e : Nat × Shard) : State :=
  let x := e.2
  if x.source ≠ 1 then s
  else match sget s.servers x.slot with
    | none => s
    | some w =>
      (List.range ((x.length + readLimit - 1) / readLimit)).foldl (fun t i =>
        let len := min readLimit (x.length - i * readLimit)
        sendMessage t w.port w.address 1 [readDescriptor w.object (x.address.toNat + i * readLimit) len i]
          (some (.shard (k, h, gen, e.1)))) s

/-- Requests a shard that has not been verified yet. -/
def requestShard (k : ObjKind) (h gen : Nat) (s : State) (e : Nat × Shard) : State := if e.2.verified then s else readShard k h gen s e

/-- Requests every shard of a generation that a weight server holds (R347, R366). -/
def requestShards (s : State) (k : ObjKind) (h : Nat) (g : Generation) : State :=
  (numbered g.shards).foldl (requestShard k h g.number) s

/-- Forgets the read requests that match. -/
def forgetFetch (s : State) (p : ObjKind × Nat × Nat × Nat → Bool) : State :=
  { s with ports := s.ports.map (fun q => { q with
      unacked := q.unacked.filter (fun u => match u.fetch with | some f => !p f | none => true)
      asked := q.asked.filter (fun a => match a.purpose with | .shard f => !p f | .block _ _ => true) }) }

/-! ### KV blocks over the fabric (R333, R479, R480) -/

/-- Descriptor of a write (R480): the 4 KiB unit, the offset within it, the bytes carried. -/
def writeDescriptor (unit offset len : Nat) : Bytes := padTo 32 (leBytes 8 unit ++ leBytes 4 offset ++ leBytes 4 len)

/-- Data bytes that the eight flits of one datagram carry behind the descriptor (R479, R480). -/
def writeLimit : Nat := 1888

/-- Writes one 4 KiB unit of a block to a peer. A write stays within its unit (log entry 51). -/
def sendUnit (port : Nat) (dest : BitVec 128) (ask : Purpose) (unit : Nat) (s : State) (data : Bytes) : State :=
  (numbered (chunks writeLimit 3 data)).foldl (fun t e =>
    sendMessage t port dest 3 (messagePayloads (writeDescriptor unit (e.1 * writeLimit) e.2.length) e.2) (some ask)) s

/-- The bytes of a block travel to the peer of a port as writes (R479). -/
def sendBlock (port unit : Nat) (ask : Purpose) (image : Bytes) (s : State) : State :=
  match sget s.kv.peers port with
  | none => s
  | some p => (numbered (chunks 4096 (image.length / 4096 + 1) image)).foldl (fun t e => sendUnit port p.address ask (unit + e.1) t e.2) s

/-- Asks the peer of a port for a block that returns, under object identifier 0 (R480). -/
def readBlock (port unit len : Nat) (s : State) : State :=
  match sget s.kv.peers port with
  | none => s
  | some p => (List.range ((len + readLimit - 1) / readLimit)).foldl (fun t i =>
      sendMessage t port p.address 1 [readDescriptor 0 (unit * 4096 + i * readLimit) (min readLimit (len - i * readLimit)) i] none) s

/-- A block's writes are answered: no refusal can name them any longer. -/
def forgetBlock (s : State) (h i : Nat) : State :=
  { s with ports := s.ports.map (fun q => { q with asked := q.asked.filter (fun a => decide (a.purpose ≠ .block h i)) }) }

end Sys2Proof.Machine
end

