-- ==== Sys2Proof/Machine/GraphImage.lean ====
section
/-! DEFINITION. The graph image (R272–R281, R303–R305) and the access-pattern descriptor (R251–R253): their fields and every
case in which an image is refused. A check is a pair: whether it is broken, and the byte offset of the field. -/

namespace Sys2Proof.Machine

/-- Offset of the first broken check. -/
def firstBad (l : List (Bool × Nat)) : Option Nat := (l.find? (·.1)).map (·.2)

/-! ### Access-pattern descriptors (R251–R253) -/

structure Access where
  mode : Nat
  size : Nat
  rows : Nat
  cols : Nat
  pitch : Nat
  stride : Nat
  dest : Nat
  deriving DecidableEq, Repr

def accessOf (b : Bytes) : Access :=
  let w := leAt b 0 4
  { mode := fld w 31 30, size := 2 ^ fld w 29 28, rows := fld w 23 12 + 1, cols := fld w 11 0 + 1,
    pitch := leAt b 4 4, stride := leAt b 8 2, dest := leAt b 12 4 }

/-- Bytes of one packed destination row (R252). -/
def Access.rowBytes (a : Access) : Nat := (if a.mode = 2 then a.rows else a.cols) * a.size

/-- Destination rows (R252). -/
def Access.destRows (a : Access) : Nat := if a.mode = 2 then a.cols else a.rows

/-- Checks of R253, with offsets from the descriptor's start. -/
def accessChecks (b : Bytes) (base : Nat) : List (Bool × Nat) :=
  let w := leAt b 0 4
  let a := accessOf b
  [ (decide (fld w 27 24 ≠ 0 ∨ fld w 31 30 = 3 ∨ fld w 29 28 = 3), base + 3),
    (decide (a.pitch % a.size ≠ 0), base + 4), (decide (a.stride = 0 ∨ a.mode ≠ 1 ∧ a.stride ≠ 1), base + 8),
    (decide (leAt b 10 2 ≠ 0), base + 10), (decide (a.dest % 64 ≠ 0 ∨ a.dest < a.rowBytes), base + 12) ]

/-- Source byte offset of the element of destination row `r`, position `c` (R252). -/
def Access.source (a : Access) (r c : Nat) : Nat :=
  if a.mode = 2 then c * a.pitch + r * a.stride * a.size else r * a.pitch + c * a.stride * a.size

/-- The destination bytes: rows at the destination pitch, the elements packed (R252); `read` gives a source byte. -/
def Access.deliver (a : Access) (read : Nat → Byte) : Bytes :=
  (List.range a.destRows).flatMap (fun r =>
    padTo (if r + 1 = a.destRows then a.rowBytes else a.dest)
      ((List.range (a.rowBytes / a.size)).flatMap (fun c =>
        (List.range a.size).map (fun k => read (a.source r c + k)))))

/-- How many of the selected elements lie outside: not wholly at source bytes that `inside` admits (R253). -/
def Access.outside (a : Access) (inside : Nat → Bool) : Nat :=
  ((List.range a.destRows).flatMap (fun r => (List.range (a.rowBytes / a.size)).filter (fun c =>
    !(inside (a.source r c) && inside (a.source r c + a.size - 1))))).length

/-! ### Tables -/

/-- A tensor descriptor (R274). -/
structure Tensor where
  off : Nat
  kind : Nat
  range : Nat
  format : Nat
  dims : List Nat
  ownerKind : Nat
  owner : Nat
  ownerOff : Nat
  layout : Bytes := []
  deriving DecidableEq, Repr

def tensorAt (im : Bytes) (base i : Nat) : Tensor :=
  let o := base + 48 * i
  let w := leAt im o 4
  { off := o, kind := fld w 31 28, range := fld w 25 24, format := fld w 23 16
    dims := (List.range (fld w 27 26 + 1)).map (fun j => leAt im (o + 4 + 4 * j) 4)
    ownerKind := fld (leAt im (o + 20) 4) 31 30, owner := fld (leAt im (o + 20) 4) 29 16
    ownerOff := leAt im (o + 24) 8, layout := slice im (o + 32) 16 }

def Tensor.dim (t : Tensor) (j : Nat) : Nat := lgetD t.dims j 1

/-- Formats a tensor of a kind may have (R210, R304): golden copies for weights and shards, KV page formats for KV tensors,
layer output formats for the rest. -/
def formatFits (kind fmt : Nat) : Bool :=
  if kind = 0 ∨ kind = 5 then decide (fmt ∈ [0x02, 0x03, 0x04, 0x05, 0x10, 0x11, 0x12, 0x13, 0x14, 0x15, 0x20, 0x21, 0x22])
  else if kind = 4 then decide (fmt ∈ [0x03, 0x04, 0x05, 0x20])
  else decide (1 ≤ fmt ∧ fmt ≤ 6)

/-- Checks of one tensor descriptor (R274, R199, R195, R210). -/
def tensorChecks (im : Bytes) (t : Tensor) : List (Bool × Nat) :=
  let o := t.off
  let w5 := leAt im (o + 20) 4
  let ownerFits := if t.kind = 0 then t.ownerKind = 1 ∨ t.ownerKind = 2 else if t.kind = 5 then t.ownerKind = 2
    else t.ownerKind = 0
  [ (decide (leAt im o 2 ≠ 0), o), (!formatKnown t.format, o + 2), (!formatFits t.kind t.format, o + 2),
    (decide (5 < t.kind), o + 3), (decide (t.range = 3), o + 3) ]
  ++ (List.range 4).map (fun j =>
      let d := leAt im (o + 4 + 4 * j) 4
      (if j < t.dims.length then decide (d = 0 ∨ 2147483648 < d) else decide (d ≠ 1), o + 4 + 4 * j))
  ++ [ (formatIsMx t.format && decide (t.dim 0 % 32 ≠ 0), o + 4), (decide (fld w5 15 0 ≠ 0), o + 20),
       (decide (t.ownerKind = 0 ∧ t.owner ≠ 0 ∨ t.ownerKind = 1 ∧ 63 < t.owner ∨ t.ownerKind = 2 ∧ 255 < t.owner), o + 22),
       (decide (t.ownerKind = 3), o + 23), (!decide ownerFits, o + 23) ]
  ++ (if t.kind = 0 ∨ t.kind = 5 then
        if allZero t.layout then [] else accessChecks t.layout (o + 32)
      else [(!allZero t.layout, o + 32)])

/-- A node entry (R276). -/
structure Node where
  off : Nat
  kind : Nat
  weight : Nat
  input : Nat
  output : Nat
  second : Nat
  parOff : Nat
  parLen : Nat
  deriving DecidableEq, Repr

def nodeAt (im : Bytes) (base i : Nat) : Node :=
  let o := base + 24 * i
  { off := o, kind := leAt im (o + 3) 1, weight := leAt im o 2, input := leAt im (o + 6) 2, output := leAt im (o + 4) 2,
    second := leAt im (o + 10) 2, parOff := leAt im (o + 16) 4, parLen := leAt im (o + 22) 2 }

/-- Parameter word of a node (R277). -/
def Node.par (im : Bytes) (n : Node) (j : Nat) : Nat := leAt im (n.parOff + 4 * j) 4

/-- Parameter words a kind lists; 0 for a kind that takes none (R277, R305). -/
def paramWords (kind : Nat) : Nat :=
  if kind = 0x04 then 8 else if kind ∈ [0x01, 0x08, 0x09] then 0
  else if kind = 0x0D then 4 else if kind = 0x0B then 3 else if kind ∈ [0x03, 0x05, 0x07, 0x0A] then 2 else 1

/-- Values of F, θ and T that a correction word may hold (header word 3 of R272, node word 3 of R276). -/
def corrChecks (w o : Nat) : List (Bool × Nat) :=
  let f := fld w 31 24
  let th := fld w 23 16
  [ (decide (1 ≤ th ∧ th ≤ 7 ∨ 129 ≤ th), o + 2), (decide (1 ≤ f ∧ f ≤ 15 ∨ 129 ≤ f ∧ f ≤ 254), o + 3) ]

/-- The form of a node entry (R276, R273): fields, and its parameter block's place. -/
def nodeChecks (im : Bytes) (len tensors : Nat) (tables : List (Nat × Nat)) (n : Node) : List (Bool × Nat) :=
  let o := n.off
  let w3 := leAt im (o + 12) 4
  let known := fun (x : Nat) => decide (x < tensors) || decide (x = 0xFFFF)
  let t := fld w3 15 8
  let hasPar := decide (paramWords n.kind ≠ 0)
  let need := 4 * paramWords n.kind
  [ (!known n.weight, o), (decide (leAt im (o + 2) 1 ≠ 0), o + 2), (decide (n.kind = 0 ∨ 0x0D < n.kind), o + 3),
    (!decide (n.output < tensors), o + 4), (!known n.input, o + 6), (decide (leAt im (o + 8) 2 ≠ 0), o + 8),
    (!known n.second, o + 10), (decide (fld w3 3 0 ≠ 0), o + 12),
    (decide (fld w3 5 5 = 0 ∧ w3 / 64 ≠ 0) || decide (fld w3 5 5 = 0 ∧ fld w3 4 4 ≠ 0), o + 12) ]
  ++ (if fld w3 5 5 = 1 then (decide (1 ≤ t ∧ t ≤ 7 ∨ 128 ≤ t), o + 13) :: corrChecks w3 (o + 12) else [])
  ++ [ (decide (n.parOff % 16 ≠ 0), o + 16),
       (if hasPar then decide (n.parOff < 64 ∨ len < n.parOff + n.parLen) else decide (n.parOff ≠ 0), o + 16),
       (hasPar && tables.any (fun e => decide (n.parOff < e.1 + e.2 ∧ e.1 < n.parOff + n.parLen)), o + 16),
       (decide (leAt im (o + 20) 2 ≠ 0), o + 20),
       (decide (n.parLen % 16 ≠ 0), o + 22),
       (if hasPar then decide (n.parLen < need) else decide (n.parLen ≠ 0), o + 22) ]
  ++ (if hasPar then (List.range (n.parLen / 4 - paramWords n.kind)).map (fun j =>
        (decide (n.par im (paramWords n.kind + j) ≠ 0), n.parOff + 4 * (paramWords n.kind + j))) else [])

/-- Fields of an ATTENTION node's parameter block (R305). -/
def attnChecks (im : Bytes) (cls : Nat) (n : Node) : List (Bool × Nat) :=
  let p := n.parOff
  let h := leAt im (p + 2) 2
  let g := leAt im p 2
  let d := leAt im (p + 6) 2
  let mask := leAt im (p + 5) 1
  let cached := decide (n.weight ≠ 0xFFFF)
  let ctx := leAt im (p + 12) 4
  let r := leAt im (p + 22) 2
  let rows := leAt im (p + 28) 2
  [ (decide (g = 0 ∨ h < g) || decide (h % max g 1 ≠ 0), p), (decide (h = 0 ∨ 256 < h), p + 2),
    (decide (2 < leAt im (p + 4) 1), p + 4), (decide (1 < mask) || (cached && decide (mask = 1)), p + 5),
    (decide (d < 32 ∨ 256 < d ∨ d % 32 ≠ 0), p + 6),
    (decide (ctx % 32 ≠ 0) || (if cached then decide (ctx < 32 ∨ 131072 < ctx) else decide (ctx < 64 ∨ 2048 < ctx)), p + 12),
    (let b := BitVec.ofNat 32 (leAt im (p + 16) 4)
     decide (b ≠ 0) && (!f32isFinite b || !f32lt 0 b), p + 16),
    (decide (leAt im (p + 20) 2 ≠ 0), p + 20), (decide (r % 2 ≠ 0 ∨ d < r), p + 22),
    (decide (leAt im (p + 24) 2 ≠ 0), p + 24),
    (let m := leAt im (p + 26) 2; if cached then decide (63 < m) else decide (m ≠ 0xFFFF), p + 26),
    (if cached then decide (rows ≠ 0) else decide (rows = 0 ∨ 4096 < rows), p + 28),
    (decide (leAt im (p + 30) 2 ≠ 0), p + 30), (if cached then decide (cls ≠ 2) else decide (cls = 2), n.off + 3) ]

/-- Formats Garnet cores take as activation input (R210). -/
def garnetTakes (format : Nat) : Bool := decide (format ∈ [0x02, 0x03, 0x04, 0x05, 0x06])

/-- Elements of a tensor, and of one slice along dimension 0. -/
def Tensor.elems (t : Tensor) : Nat := t.dims.foldl (· * ·) 1
def Tensor.vectors (t : Tensor) : Nat := t.dims.tail.foldl (· * ·) 1

/-- The ROUTER node whose output a tensor is. -/
def routerOf (nodes : List Node) (tensor : Nat) : Option Node := nodes.find? (fun m => decide (m.kind = 0x03 ∧ m.output = tensor))

/-- Operands and parameters of a node by kind (R277, R303, R304, R210, R222, R229, R230): `ts` gives a tensor, `nodes` the table. Of the shapes
that the table of R277 does not state, the model asks for those that follow from what the node does (log entry 108). -/
def operandChecks (im : Bytes) (cls : Nat) (ts : Nat → Tensor) (nodes : List Node) (n : Node) : List (Bool × Nat) :=
  let o := n.off
  let w := ts n.weight
  let x := ts n.input
  let y := ts n.output
  let z := ts n.second
  let noW := (decide (n.weight ≠ 0xFFFF), o)
  let noS := (decide (n.second ≠ 0xFFFF), o + 10)
  let needW := (decide (n.weight = 0xFFFF), o)
  let needI := (decide (n.input = 0xFFFF), o + 6)
  let needS := (decide (n.second = 0xFFFF), o + 10)
  let outKind := (decide (y.kind ≠ 2 ∧ y.kind ≠ 3), o + 4)
  let par := fun j => n.par im j
  let weightRank := fun (r : Nat) => (decide (w.kind ≠ 0 ∨ w.dims.length ≠ r), o)
  let linear := [(decide (w.dim 0 ≠ x.dim 0), o + 6), (decide (w.dim 1 ≠ y.dim 0), o + 4)]
  let sameDims := (decide (x.dims ≠ y.dims), o + 4)
  outKind ::
  (if n.kind = 0x01 then [needW, needI, noS, weightRank 2] ++ linear
   else if n.kind = 0x02 then [needW, needI, needS, weightRank 3] ++ linear ++
     [ (match routerOf nodes n.second with
        | some m => decide ((ts m.input).dim 0 ≠ w.dim 2)
        | none => true, o + 10),
       (decide (par 0 = 0 ∨ 16 < par 0 ∨ w.dim 2 < par 0), n.parOff) ]
   else if n.kind = 0x03 then [noW, needI, noS, (decide (y.dims.tail ≠ x.dims.tail), o + 4),
     (decide (par 0 = 0 ∨ 16 < par 0 ∨ x.dim 0 < par 0), n.parOff), (decide (1 < par 1), n.parOff + 4)]
   else if n.kind = 0x04 then
     [needI, needS] ++ attnChecks im cls n ++
     (let h := leAt im (n.parOff + 2) 2
      let g := leAt im n.parOff 2
      let d := leAt im (n.parOff + 6) 2
      let ctx := leAt im (n.parOff + 12) 4
      let toks := x.dim 2
      [ (decide (x.dims.length ≠ 3 ∨ x.dim 0 ≠ d ∨ x.dim 1 ≠ h), o + 6),
        (decide (z.dims.length ≠ 3 ∨ z.dim 0 ≠ d ∨ z.dim 1 ≠ 2 * g ∨ z.dim 2 ≠ toks), o + 10),
        (decide (y.dims ≠ x.dims), o + 4),
        (decide (x.format ∉ [0x04, 0x05, 0x06, 0x03, 0x02]), x.off + 2),
        (decide (z.format ∉ [0x04, 0x05, 0x06, 0x03, 0x02]), z.off + 2),
        (if n.weight = 0xFFFF then decide (toks ≠ ctx * leAt im (n.parOff + 28) 2)
         else decide (w.kind ≠ 4 ∨ w.dim 0 ≠ d ∨ w.dim 1 ≠ g ∨ w.dim 2 ≠ ctx ∨ w.dim 3 ≠ 1), o),
        (decide (n.weight ≠ 0xFFFF) && decide (1 < (nodes.filter (fun m => m.kind = 0x04 ∧ m.weight = n.weight)).length), o) ])
   else if n.kind = 0x05 then [needW, needI, noS, weightRank 1, (decide (w.dim 0 ≠ x.dim 0), o), sameDims,
     (decide (1 < par 0), n.parOff)]
   else if n.kind = 0x06 then [noW, needI, noS, sameDims, (decide (4 < par 0), n.parOff)]
   else if n.kind = 0x07 then [noW, needI, sameDims, (decide (2 < par 0), n.parOff),
     (if par 0 = 2 then decide (n.second ≠ 0xFFFF) else decide (n.second = 0xFFFF ∨ z.dims ≠ x.dims), o + 10)]
   else if n.kind = 0x08 then [needW, (decide (n.input ≠ 0xFFFF), o + 6), noS, weightRank 2, (decide (w.dim 0 ≠ y.dim 0), o + 4)]
   else if n.kind = 0x09 then [needW, needI, noS, (decide (w.kind ≠ 5), o), (decide (w.dim 1 ≠ y.dim 0), o + 4),
     (decide (w.dim 0 ≠ x.dim 0), o + 6), (decide (2097152 < w.dim 0), w.off + 4)]
   else if n.kind = 0x0A then [noW, needI, noS, (decide (y.elems * elementBits y.format ≠ 64 * par 0 * x.vectors), o + 4),
     (decide (par 0 = 0 ∨ 1024 < par 0), n.parOff), (decide (1 < par 1), n.parOff + 4)]
   else if n.kind = 0x0B then [noW, needI, noS, (decide (y.elems ≠ x.vectors), o + 4), (decide (1 < par 0), n.parOff)]
   else if n.kind = 0x0C then [needI, needS, (decide (y.dims ≠ z.dims), o + 4), (!garnetTakes x.format, x.off + 2),
     (match nodes[par 0]? with
      | some m => decide (m.kind ≠ 0x01 ∨ m.output ≠ n.second)
      | none => true, n.parOff)]
   else accessChecks (slice im n.parOff 16) n.parOff ++
     [noW, needI, noS, (let a := accessOf (slice im n.parOff 16); decide (y.elems * elementBits y.format ≠ 8 * a.destRows * a.rowBytes), o + 4)])

/-! ### Edges and pins -/

structure Edge where
  off : Nat
  src : Nat
  dst : Nat
  carry : Bool
  tensor : Nat
  deriving DecidableEq, Repr

def edgeAt (im : Bytes) (base i : Nat) : Edge :=
  let o := base + 8 * i
  { off := o, src := leAt im (o + 2) 2, dst := leAt im o 2, carry := decide (fld (leAt im (o + 4) 4) 31 30 = 1),
    tensor := leAt im (o + 4) 2 }

/-- Checks of one edge (R279). -/
def edgeChecks (im : Bytes) (nodes : List Node) (e : Edge) : List (Bool × Nat) :=
  let w1 := leAt im (e.off + 4) 4
  [ (decide (nodes.length ≤ e.dst), e.off), (decide (nodes.length ≤ e.src), e.off + 2),
    (if e.carry then (match nodes[e.src]? with | some n => decide (n.output ≠ e.tensor) | none => true)
     else decide (e.tensor ≠ 0xFFFF), e.off + 4),
    (decide (fld w1 29 16 ≠ 0), e.off + 6), (decide (2 ≤ fld w1 31 30), e.off + 7) ]

structure Pin where
  off : Nat
  node : Nat
  kind : Nat
  value : Nat
  deriving DecidableEq, Repr

def pinAt (im : Bytes) (base i : Nat) : Pin :=
  let o := base + 8 * i
  { off := o, node := leAt im (o + 2) 2, kind := fld (leAt im o 2) 15 12, value := leAt im (o + 4) 4 }

/-- Quarters a node may lie in under the pins before and at a pin (R280). -/
def pinnedQuarters (pins : List Pin) (node : Nat) : Nat :=
  pins.foldl (fun m p => if p.kind = 0 ∧ (p.node = node ∨ p.node = 0xFFFF) then m &&& (p.value % 16) else m) 15

/-- Nodes that together pins tie to a node, itself first. -/
def tiedNodes (pins : List Pin) : Nat → List Nat → List Nat
  | 0, ns => ns
  | fuel + 1, ns =>
    let more := (pins.filter (fun p => p.kind = 2)).flatMap (fun p =>
      (if ns.contains p.node then [p.value] else []) ++ (if ns.contains p.value then [p.node] else []))
    let next := (ns ++ more).eraseDups
    if next.length = ns.length then ns else tiedNodes pins fuel next

/-- Quarters left to a node and all that is tied to it. -/
def tiedQuarters (pins : List Pin) (ns : List Nat) : Nat := ns.foldl (fun m n => m &&& pinnedQuarters pins n) 15

/-- Whether an apart pin cannot hold beside the others: its nodes are tied together, or one same quarter is left to both. -/
def apartFails (pins : List Pin) (p : Pin) : Bool :=
  let a := tiedNodes pins pins.length [p.node]
  let q := tiedQuarters pins a
  a.contains p.value || (decide (q = tiedQuarters pins (tiedNodes pins pins.length [p.value])) && decide (q ∈ [1, 2, 4, 8]))

/-- Whether node n may stand in quarter q beside the nodes placed so far (R280). -/
def quarterFits (pins : List Pin) (placed : Store Nat) (n q : Nat) : Bool :=
  (pinnedQuarters pins n).testBit q && pins.all (fun p =>
    let other := if p.node = n then sget placed p.value else if p.value = n then sget placed p.node else none
    match other with
    | none => true
    | some r => !(decide (p.kind = 2 ∧ q ≠ r) || decide (p.kind = 3 ∧ q = r)))

/-- Whether the nodes listed can each stand in a quarter that every pin allows. A node in several quarters can be narrowed to any one of
them, so that one quarter a node decides (R281). -/
def quartersLeft (pins : List Pin) : List Nat → Store Nat → Bool
  | [], _ => true
  | n :: ns, placed => (List.range 4).any (fun q => quarterFits pins placed n q && quartersLeft pins ns (sput placed n q))

/-- Whether quarters, together and apart pins can hold at once (R281). -/
def pinsMeet (pins : List Pin) : Bool :=
  quartersLeft pins (((pins.filter (fun p => p.kind = 2 ∨ p.kind = 3)).flatMap (fun p => [p.node, p.value])).eraseDups) []

/-- The first pin that cannot hold beside those before it. -/
def pinsClash (pins : List Pin) : Option Pin :=
  if pins.any (fun p => p.kind = 3) then
    ((numbered pins).find? (fun e => decide (e.2.kind = 0 ∨ e.2.kind = 2 ∨ e.2.kind = 3) && !pinsMeet (pins.take (e.1 + 1)))).map (·.2)
  else none

/-- Checks of one pin (R280), and contradictions with the node kind and with the other pins (R281). -/
def pinChecks (im : Bytes) (ts : Nat → Tensor) (nodes : List Node) (pins : List Pin) (p : Pin) : List (Bool × Nat) :=
  let kindOf := fun i => ((nodes[i]?).map (·.kind)).getD 0
  let arrayKind := fun i => decide (kindOf i ∈ [0x01, 0x02, 0x09])
  [ (decide (fld (leAt im p.off 2) 11 0 ≠ 0), p.off), (decide (4 < p.kind), p.off + 1),
    (if p.node = 0xFFFF then decide (p.kind ≠ 0) else decide (nodes.length ≤ p.node), p.off + 2),
    (if p.kind = 0 then decide (p.value = 0 ∨ 15 < p.value)
     else if p.kind = 1 then decide (1 < p.value)
     else if p.kind = 4 then decide (p.value = 0 ∨ 16 < p.value)
     else decide (nodes.length ≤ p.value ∨ p.value = p.node), p.off + 4),
    (p.kind = 0 && decide (pinnedQuarters pins p.node = 0), p.off + 4),
    (decide (p.kind = 1 ∧ p.value = 0) && !arrayKind p.node, p.off + 4),
    (decide (p.kind = 1 ∧ p.value = 1 ∧ kindOf p.node = 0x09), p.off + 4),
    (decide (p.kind = 1) && pins.any (fun q => decide (q.kind = 1 ∧ q.node = p.node ∧ q.value ≠ p.value)), p.off + 4),
    (decide (p.kind = 4) && (!arrayKind p.node || pins.any (fun q => decide (q.kind = 1 ∧ q.node = p.node ∧ q.value = 1))), p.off + 4),
    (decide (p.kind = 2) && decide (tiedQuarters pins (tiedNodes pins pins.length [p.node]) = 0), p.off + 4),
    (decide (p.kind = 3) && apartFails pins p, p.off + 4),
    (decide (p.kind = 1 ∧ p.value = 0) && decide (2097152 < (ts (((nodes[p.node]?).map (·.weight)).getD 0xFFFF)).dim 0), p.off + 4) ]

/-! ### The whole image -/

/-- Nodes a node waits for within a step: producers of what it reads, and order edges (R278). -/
def dependsOn (nodes : List Node) (edges : List Edge) (i : Nat) (n : Node) : List Nat :=
  let carried := edges.filter (fun e => e.carry ∧ e.dst = i)
  let reads := ([n.weight, n.input, n.second].filter (fun t => t ≠ 0xFFFF)).filter
    (fun t => !carried.any (fun e => e.tensor = t))
  ((numbered nodes).filter (fun e => reads.contains e.2.output)).map (·.1)
    ++ (edges.filter (fun e => !e.carry ∧ e.dst = i)).map (·.src)

/-- Removes nodes whose dependencies are all gone; what is left after as many rounds as nodes lies on a cycle. -/
def cycleRest (deps : List (Nat × List Nat)) : Nat → List Nat → List Nat
  | 0, left => left
  | fuel + 1, left =>
    let next := left.filter (fun i => (deps.any (fun e => e.1 = i && e.2.any (fun j => left.contains j))))
    if next.length = left.length then left else cycleRest deps fuel next

structure GraphImage where
  tensors : List Tensor
  nodes : List Node
  edges : List Edge
  pins : List Pin
  deriving DecidableEq, Repr

def graphTables (im : Bytes) : GraphImage :=
  { tensors := (List.range (leAt im 36 4)).map (tensorAt im (leAt im 32 4))
    nodes := (List.range (leAt im 44 4)).map (nodeAt im (leAt im 40 4))
    edges := (List.range (leAt im 52 4)).map (edgeAt im (leAt im 48 4))
    pins := (List.range (leAt im 60 4)).map (pinAt im (leAt im 56 4)) }

/-- Checks of the header (R272, R273); `len` is the length GRAPH_SUBMIT names. -/
def headerChecks (im : Bytes) (len : Nat) : List (Bool × Nat) :=
  let w2 := leAt im 8 4
  let w3 := leAt im 12 4
  let replan := fld w2 15 0
  let t := fld w3 7 0
  let chunk := leAt im 28 4
  let ext := fun (o n size : Nat) => decide (o < 64 ∨ len < o + n * size)
  let tb := (leAt im 32 4, leAt im 36 4 * 48)
  let nb := (leAt im 40 4, leAt im 44 4 * 24)
  let eb := (leAt im 48 4, leAt im 52 4 * 8)
  let pb := (leAt im 56 4, leAt im 60 4 * 8)
  let meets := fun (a b : Nat × Nat) => decide (a.2 ≠ 0 ∧ b.2 ≠ 0 ∧ a.1 < b.1 + b.2 ∧ b.1 < a.1 + a.2)
  [ (decide (leAt im 0 2 ≠ 0), 0), (decide (leAt im 2 2 ≠ 1), 2),
    (decide (leAt im 4 4 ≠ len ∨ len < 64 ∨ 16777216 < len), 4),
    (decide (3600 < replan ∧ replan < 65535), 8), (decide (fld w2 21 16 ≠ 0), 10),
    (decide (fld w2 27 26 = 3 ∨ fld w2 31 30 = 3), 11),
    (decide (1 ≤ t ∧ t ≤ 7 ∨ 128 ≤ t), 12), (decide (fld w3 15 8 ≠ 0), 13) ]
  ++ corrChecks w3 12 ++
  [ (decide (leAt im 24 2 = 0 ∨ 1024 < leAt im 24 2), 24), (decide (leAt im 26 2 ≠ 0), 26),
    (if fld w2 31 30 = 2 then decide (fld chunk 11 0 ∉ [0, 64, 128, 256, 512, 1024, 2048]) else decide (fld chunk 11 0 ≠ 0), 28),
    (decide (fld chunk 31 12 ≠ 0), 29),
    (decide (tb.1 % 16 ≠ 0) || ext tb.1 (leAt im 36 4) 48, 32), (decide (leAt im 36 4 = 0 ∨ 65535 < leAt im 36 4), 36),
    (decide (nb.1 % 16 ≠ 0) || ext nb.1 (leAt im 44 4) 24 || meets nb tb, 40),
    (decide (leAt im 44 4 = 0 ∨ 16384 < leAt im 44 4), 44),
    (decide (eb.2 ≠ 0) && (decide (eb.1 % 16 ≠ 0) || ext eb.1 (leAt im 52 4) 8 || meets eb tb || meets eb nb), 48),
    (decide (65536 < leAt im 52 4), 52),
    (decide (pb.2 ≠ 0) && (decide (pb.1 % 16 ≠ 0) || ext pb.1 (leAt im 60 4) 8 || meets pb tb || meets pb nb || meets pb eb), 56),
    (decide (4096 < leAt im 60 4), 60) ]

/-- A tensor by number; 0xFFFF and numbers outside the table give an empty one. -/
def tensorOf (g : GraphImage) (i : Nat) : Tensor :=
  (g.tensors[i]?).getD { off := 0, kind := 15, range := 0, format := 0, dims := [], ownerKind := 0, owner := 0, ownerOff := 0 }

/-- Who produces and reads tensors (R278): an input or second input that no node produces is a weight or a graph input. -/
def flowChecks (g : GraphImage) : List (Bool × Nat) :=
  let produced := fun i => (g.nodes.filter (fun n => n.output = i)).length
  (numbered g.tensors).map (fun e => (decide ((e.2.kind = 2 ∨ e.2.kind = 3) ∧ produced e.1 ≠ 1), e.2.off))
  ++ g.nodes.flatMap (fun n =>
      let unread := fun i => decide (i ≠ 0xFFFF) && decide (produced i = 0) &&
        decide ((tensorOf g i).kind ∉ [0, 1])
      [(unread n.input, n.off + 6), (unread n.second, n.off + 10)])
  ++ (let deps := (numbered g.nodes).map (fun e => (e.1, dependsOn g.nodes g.edges e.1 e.2))
      let rest := cycleRest deps g.nodes.length (List.range g.nodes.length)
      [(!rest.isEmpty, ((g.nodes[rest.headD 0]?).map (·.off)).getD 0)])

/-- Core kinds that can run a node's operation (R277, R233); none where arrays or memory ports run it. -/
def nodeCores (kind : Nat) : List CoreKind :=
  if kind ∈ [0x01, 0x02, 0x0C] then [.garnet] else if kind = 0x04 then [.garnet, .opal] else if kind = 0x09 ∨ kind = 0x0D then [] else [.opal]

/-- Plannable bytes of a core's tile memory (R245). -/
def plannableBytes : CoreKind → Nat
  | .garnet => 376 * 1024
  | .opal => 248 * 1024
  | .jet => 120 * 1024

/-- Bytes that two buffers of one 32-element row of each operand of a node take (R246, R248). -/
def smallestTile (g : GraphImage) (n : Node) : Nat :=
  ([n.weight, n.input, n.second, n.output].filter (fun t => t ≠ 0xFFFF)).foldl (fun m t =>
    m + 2 * ((32 * elementBits (tensorOf g t).format + 7) / 8)) 0

/-- Whether a node's smallest tile fits no core kind that can run it (R248). -/
def tileTooLarge (g : GraphImage) (n : Node) : Bool :=
  !(nodeCores n.kind).isEmpty && (nodeCores n.kind).all (fun k => decide (plannableBytes k < smallestTile g n))

/-- Offset of the first offending field of an image, in the order header, tables, operands, data flow, edges, pins (R273,
R278, R281). -/
def graphInvalid (im : Bytes) (len : Nat) : Option Nat :=
  match firstBad (headerChecks im len) with
  | some o => some o
  | none =>
    let g := graphTables im
    let tables := [(leAt im 32 4, leAt im 36 4 * 48), (leAt im 40 4, leAt im 44 4 * 24), (leAt im 48 4, leAt im 52 4 * 8),
      (leAt im 56 4, leAt im 60 4 * 8)].filter (fun e => e.2 ≠ 0)
    match firstBad (g.tensors.flatMap (tensorChecks im) ++ g.nodes.flatMap (nodeChecks im len g.tensors.length tables)) with
    | some o => some o
    | none => firstBad (g.nodes.flatMap (operandChecks im (fld (leAt im 8 4) 31 30) (tensorOf g) g.nodes)
        ++ g.nodes.map (fun n => (tileTooLarge g n, n.off)) ++ flowChecks g
        ++ g.edges.flatMap (edgeChecks im g.nodes) ++ g.pins.flatMap (pinChecks im (tensorOf g) g.nodes g.pins)
        ++ (pinsClash g.pins).toList.map (fun p => (true, p.off + 4)))

/-- Objects an image names: owners of tensors, and models of cached nodes (R274, R305, R306). -/
def graphOwners (im : Bytes) (g : GraphImage) : List (ObjKind × Nat) :=
  ((g.tensors.filterMap (fun t => if t.ownerKind = 1 then some (ObjKind.model, t.owner)
      else if t.ownerKind = 2 then some (ObjKind.shard, t.owner) else none))
   ++ (g.nodes.filterMap (fun n => if n.kind = 0x04 ∧ n.weight ≠ 0xFFFF then
      some (ObjKind.model, leAt im (n.parOff + 26) 2) else none))).dedup

/-- Cached nodes of an image (R303): (node, model, sealed format, groups, head dimension, context limit). -/
def cachedNodes (im : Bytes) (g : GraphImage) : List (Nat × Nat × Nat × Nat × Nat × Nat) :=
  (numbered g.nodes).filterMap (fun e =>
    let n := e.2
    if n.kind = 0x04 ∧ n.weight ≠ 0xFFFF then
      some (e.1, leAt im (n.parOff + 26) 2, (tensorOf g n.weight).format, leAt im n.parOff 2, leAt im (n.parOff + 6) 2,
        leAt im (n.parOff + 12) 4)
    else none)

/-- A node whose sealed format is narrower than its model's minimum key width (R330): offset of the format. -/
def keyTooNarrow (im : Bytes) (g : GraphImage) (width : Nat → Nat) : Option Nat :=
  (g.nodes.find? (fun n => decide (n.kind = 0x04 ∧ n.weight ≠ 0xFFFF) &&
    decide (formatWidth (tensorOf g n.weight).format < width (leAt im (n.parOff + 26) 2)))).map
    (fun n => (tensorOf g n.weight).off + 2)

/-- Outlier capacity of its code (R272). -/
def slotsOfCode (c : Nat) : Nat := if c = 0 then 16 else if c = 1 then 8 else if c = 2 then 24 else 32

/-- F, θ and T of their fields, with the defaults of R158. -/
def jumpOfField (f : Nat) : Nat := if f = 0 then 32 else if f = 0xFF then 0 else f
def thetaOfField (t : Nat) : Nat := if t = 0 then 32 else t
def thresholdOfField (t : Nat) : Nat := if t = 0 then 127 else t

/-- What the engine keeps of an accepted image (R272). -/
def graphSettings (im : Bytes) : GraphSettings :=
  let g := graphTables im
  let w2 := leAt im 8 4
  let w3 := leAt im 12 4
  let dflt := fun v d => if v = 0 then d else v
  let packed := g.nodes.filter (fun n => decide (n.kind = 0x04 ∧ n.weight = 0xFFFF))
  let cached := cachedNodes im g
  let inputs := g.tensors.filter (fun t => t.kind = 1)
  { cls := fld w2 31 30, latency := fld w2 29 28, corner := fld w2 27 26, hold := decide (fld w2 25 25 = 1),
    perVector := decide (fld w2 24 24 = 1),
    slots := slotsOfCode (fld w2 23 22),
    replan := dflt (fld w2 15 0) 10,
    jump := jumpOfField (fld w3 31 24), theta := thetaOfField (fld w3 23 16), threshold := thresholdOfField (fld w3 7 0),
    nominalLimit := leAt im 16 4, worstLimit := leAt im 20 4, batch := leAt im 24 2, chunk := fld (leAt im 28 4) 11 0,
    context := cached.foldl (fun m e => if m = 0 then e.2.2.2.2.2 else min m e.2.2.2.2.2) 0,
    rowLength := packed.foldl (fun m n => if m = 0 then leAt im (n.parOff + 12) 4 else min m (leAt im (n.parOff + 12) 4)) 0,
    rows := packed.foldl (fun m n => if m = 0 then leAt im (n.parOff + 28) 2 else min m (leAt im (n.parOff + 28) 2)) 0,
    cached := !cached.isEmpty, owners := graphOwners im g,
    sealed := cached.foldl (fun m e => if m = 0 then e.2.2.1 else if formatWidth m < formatWidth e.2.2.1 then e.2.2.1 else m) 0,
    topK := g.nodes.any (fun n => decide (n.kind = 0x0A ∧ (tensorOf g n.output).kind = 2)),
    topSource := (g.nodes.find? (fun n => decide (n.kind = 0x0A ∧ (tensorOf g n.output).kind = 2))).bind (fun n =>
      ((numbered g.nodes).find? (fun e => e.2.output = n.input)).map (fun e => (e.1, n.par im 0, decide (n.par im 1 = 1)))),
    inputBytes := inputs.foldl (fun m t => m + (t.dims.foldl (· * ·) 1) * elementBits t.format / 8) 0 }

/-! ### Attention parameters (R305) -/

/-- An ATTENTION node's parameters with their defaults. -/
structure AttnParams where
  heads : Nat
  groups : Nat
  dim : Nat
  causal : Bool
  /-- 0 none, 1 rotary, 2 linear bias. -/
  encoding : Nat
  scale : F32
  base : F32
  rotated : Nat
  deriving DecidableEq, Repr

def attnParams (im : Bytes) (n : Node) : AttnParams :=
  let d := leAt im (n.parOff + 6) 2
  let s := leAt im (n.parOff + 8) 4
  let b := leAt im (n.parOff + 16) 4
  let r := leAt im (n.parOff + 22) 2
  { heads := leAt im (n.parOff + 2) 2, groups := leAt im n.parOff 2, dim := d, causal := decide (leAt im (n.parOff + 5) 1 = 0)
    encoding := leAt im (n.parOff + 4) 1
    scale := if s = 0 then f32sqrtFrac 1 d else BitVec.ofNat 32 s
    base := if b = 0 then f32int 10000 else BitVec.ofNat 32 b
    rotated := if r = 0 then d else r }

/-- A query or key at a position, rotated where the node asks for it (R308). -/
def AttnParams.place (a : AttnParams) (position : Nat) (xs : List F32) : List F32 :=
  if a.encoding = 1 then rotate a.base a.rotated position xs else xs

/-- The score of a query at position p in a head against a key at position j, both placed (R309, R330). -/
def AttnParams.score (a : AttnParams) (fmt head p j : Nat) (q k : List F32) : F32 :=
  f32add (f32mul a.scale (scoreProduct fmt q k)) (if a.encoding = 2 then linearBias head a.heads p j else 0)

end Sys2Proof.Machine
end

