-- ==== Sys2Proof/Machine/Tensors.lean ====
section
/-! DEFINITION. How a weight tensor lies in its owner's weight image (R198, R202, R208, R274) and what its elements stand for (R196,
R204); what makes an arriving part of it unacceptable (R205, R206, R211). `read` gives a byte of the image. -/

namespace Sys2Proof.Machine
open Sys2Proof

/-! ### Where its bytes lie -/

/-- Rows of a tensor: every dimension but the innermost. -/
def Tensor.rows (t : Tensor) : Nat := t.dims.tail.foldl (· * ·) 1

/-- Bursts of a row in a narrow format (R208). -/
def Tensor.rowBursts (t : Tensor) : Nat := (t.dim 0 + burstElems t.format - 1) / burstElems t.format

/-- Bytes of a row's elements: whole bursts in a narrow format (R208), else the elements packed (R198). -/
def Tensor.rowBytes (t : Tensor) : Nat :=
  if formatIsNarrow t.format then 128 * t.rowBursts else t.dim 0 * elementBits t.format / 8

/-- Place in the owner's image of byte b of row r of the element array: rows packed densely in dimension order, or as the layout's
access-pattern descriptor selects them (R274, R252). -/
def Tensor.bytePlace (t : Tensor) (r b : Nat) : Nat :=
  if allZero t.layout then t.ownerOff + r * t.rowBytes + b
  else
    let a := accessOf t.layout
    t.ownerOff + a.source r (b / a.size) + b % a.size

/-- End of the element array in the owner's image: after its last row, or after the last element its layout selects (R252, R274). -/
def Tensor.elementEnd (t : Tensor) : Nat :=
  if allZero t.layout then t.ownerOff + t.rows * t.rowBytes
  else
    let a := accessOf t.layout
    t.ownerOff + (a.rows - 1) * a.pitch + (a.cols - 1) * a.stride * a.size + a.size

/-- Place of the scale of block j of row r of an MX tensor: the scale array starts at the first 64-byte boundary of the image after the
element array (R274), one byte a block in the same order (R198). -/
def Tensor.scalePlace (t : Tensor) (r j : Nat) : Nat := (t.elementEnd + 63) / 64 * 64 + r * (t.dim 0 / 32) + j

/-- End of a tensor in the owner's image, its scale array included. -/
def Tensor.imageEnd (t : Tensor) : Nat :=
  if formatIsMx t.format then t.scalePlace t.rows 0 else t.elementEnd

/-- Bytes `from_` to `from_ + n` of row r. -/
def Tensor.rowSlice (t : Tensor) (read : Nat → Byte) (r from_ n : Nat) : Bytes :=
  (List.range n).map (fun i => read (t.bytePlace r (from_ + i)))

/-! ### What a row holds -/

/-- Pieces of at most 32 elements of one block of a burst: the elements of row r that lie in burst j, under their block's scale and
the super-scale. Of the 80 elements of a T1.6 block the last piece has 16 (log entry 79). -/
def burstPieces (fmt count : Nat) (b : Bytes) : List WeightBlock :=
  ((List.range 7).flatMap (fun j =>
    let vals := ((burstElements fmt b j).take (count - blockElems fmt * j)).map (fun v => FVal.fin (decide (v < 0)) v.natAbs 0)
    (chunks 32 3 vals).map (fun c =>
      { elems := c, scale := f32 (e8m0 (leAt b (112 + j) 1)), super := f32 (fDecode fmtF16 (leAt b 120 2)) })))

/-- The blocks of row r, in ascending element order (R198, R202, R208, R219). -/
def Tensor.rowBlocks (t : Tensor) (read : Nat → Byte) (r : Nat) : List WeightBlock :=
  if formatIsNarrow t.format then
    (List.range t.rowBursts).flatMap (fun j =>
      burstPieces t.format (t.dim 0 - burstElems t.format * j) (t.rowSlice read r (128 * j) 128))
  else
    let bits := elementBits t.format
    let b := t.rowSlice read r 0 t.rowBytes
    (List.range ((t.dim 0 + 31) / 32)).map (fun j =>
      let codes := (List.range (min 32 (t.dim 0 - 32 * j))).map (fun i => packedCode bits b (32 * j + i))
      if formatIsMx t.format then
        { elems := codes.map (mxValue t.format), scale := f32 (e8m0 (read (t.scalePlace r j)).toNat) }
      else { elems := codes.map (fun c => f32v (ofFormat t.format c)) })

/-- The weights of a block: element, block scale and super-scale multiplied exactly and rounded once to FP32 (R204, R197). -/
def WeightBlock.weights (b : WeightBlock) : List F32 :=
  b.elems.map (fun v => match v, f32v b.scale, f32v b.super with
    | .fin n m e, .fin _ sm se, .fin sn pm pe => f32 (.fin (n != sn) (m * sm * pm) (e + se + pe))
    | v, _, _ => f32 v)

/-- The weights of row r as FP32. -/
def Tensor.rowWeights (t : Tensor) (read : Nat → Byte) (r : Nat) : List F32 := (t.rowBlocks read r).flatMap WeightBlock.weights

/-! ### What an arriving part may not hold -/

/-- What is wrong with the part of a tensor whose bytes `here` has: a malformed burst (R206), a NaN or infinite weight (R211). -/
def Tensor.fault (t : Tensor) (here : Nat → Bool) (read : Nat → Byte) : Option Status :=
  let whole := fun (r b n : Nat) => here (t.bytePlace r b) && here (t.bytePlace r (b + n - 1))
  if formatIsNarrow t.format then
    (List.range (t.rows * t.rowBursts)).findSome? (fun i =>
      let r := i / t.rowBursts
      let j := i % t.rowBursts
      if whole r (128 * j) 128 then
        let x := t.rowSlice read r (128 * j) 128
        if !burstCheckOk x then some Status.integrityFail
        else if burstMalformed t.format (min (burstElems t.format) (t.dim 0 - burstElems t.format * j)) x then some Status.invalid
        else none
      else none)
  else
    let w := elementBits t.format / 8
    let finite := fun (code : Nat) => match (if formatIsMx t.format then mxValue t.format code else f32v (ofFormat t.format code)) with
      | .fin _ _ _ => true
      | _ => false
    let elem := (List.range (t.rows * t.dim 0)).findSome? (fun i =>
      let r := i / t.dim 0
      let c := i % t.dim 0
      if 0 < w ∧ whole r (w * c) w ∧ !finite (leNat (t.rowSlice read r (w * c) w)) then some Status.invalid else none)
    let scale := if formatIsMx t.format then
        (List.range (t.rows * (t.dim 0 / 32))).findSome? (fun i =>
          let p := t.scalePlace (i / (t.dim 0 / 32)) (i % (t.dim 0 / 32))
          if here p ∧ read p = 0xFF#8 then some Status.invalid else none)
      else none
    elem.orElse (fun _ => scale)

end Sys2Proof.Machine
end

