-- ==== Sys2Proof/Machine/Models.lean ====
section
/-! DEFINITION. Models, shards, adapters and token stores (R340–R372, R460): manifests, loads, replacements, retirements,
arriving shards and the cyclic re-hash. -/

namespace Sys2Proof.Machine
open Sys2Proof

/-! ### Manifests (R343–R346) -/

/-- Handles of a kind (R340). -/
def handlesOf : ObjKind → Nat
  | .model => 64 | .shard => 256 | .adapter => 16384 | .store => 256

/-- The newest generation that is not loading: the one new requests and loads meet. -/
def currentGen (o : LoadedObject) : Option Generation := (o.gens.filter (fun g => g.state ≠ 1)).getLast?

/-- A loaded object: some generation has been verified. -/
def objLoaded (s : State) (k : ObjKind) (h : Nat) : Bool :=
  match objGet s k h with
  | some o => (currentGen o).isSome
  | none => false

/-- Checks of shard entry `i` of `n` (R344). -/
def shardChecks (m : Bytes) (n i : Nat) : List (Bool × Nat) :=
  let o := 128 + 64 * i
  let l := leAt m (o + 32) 4
  let src := leAt m (o + 36) 1
  [ (if i + 1 < n then decide (l ≠ 268435456) else decide (l < 128 ∨ 268435456 < l ∨ l % 128 ≠ 0), o + 32),
    (decide (1 < src), o + 36), (decide (63 < leAt m (o + 37) 1 ∨ src = 0 ∧ leAt m (o + 37) 1 ≠ 0), o + 37),
    (decide (leAt m (o + 38) 2 ≠ 0), o + 38), (decide (src = 0 ∧ leAt m (o + 40) 8 % 4096 ≠ 0), o + 40),
    (!allZero (slice m (o + 48) 16), o + 48) ]

/-- Checks of a manifest (R343, R344, R346) for the object kinds an opcode takes. -/
def manifestChecks (s : State) (m : Bytes) (kinds : List Nat) : List (Bool × Nat) :=
  let kind := leAt m 2 1
  let mode := leAt m 3 1
  let kw := leAt m 4 1
  let n := leAt m 8 4
  let adapter := decide (kind = 2)
  let total := (List.range n).foldl (fun t i => t + leAt m (128 + 64 * i + 32) 4) 0
  [ (decide (leAt m 0 2 ≠ 1), 0), (decide (kind ∉ kinds), 2), (decide (2 < mode), 3),
    (if kind = 0 then decide (kw ∉ [0, 4, 8, 16]) else decide (kw ≠ 0), 4),
    (if mode = 0 then decide (leAt m 5 1 ≠ 0) else decide (15 < leAt m 5 1), 5),
    (decide (leAt m 6 2 ≠ 0), 6), (decide (n = 0 ∨ 8192 < n) || (adapter && decide (n ≠ 1)), 8),
    (decide (leAt m 12 4 ≠ 0), 12), (decide (leAt m 16 8 ≠ total) || (adapter && decide (67108864 < total)), 16),
    (if adapter then decide (63 < leAt m 24 2) || !objLoaded s .model (leAt m 24 2) else decide (leAt m 24 2 ≠ 0xFFFF), 24),
    (!adapter && decide (leAt m 26 2 ≠ 0), 26),
    (if adapter then decide (leAt m 28 2 = 0 ∨ 64 < leAt m 28 2) else decide (leAt m 28 2 ≠ 0), 28),
    (decide (leAt m 30 2 ≠ 0), 30), (decide (mode = 0) && !allZero (slice m 64 64), 64) ]
  ++ (List.range n).flatMap (shardChecks m n)

/-- Whether the manifest's signature verifies under a publisher key (R345): r and s big-endian. -/
def manifestSigned (m : Bytes) (key : BitVec 256 × BitVec 256) : Bool :=
  ecdsaVerify key.1.toNat key.2.toNat (sha256 (patch m 64 (List.replicate 64 0))) (beAt m 64 32) (beAt m 96 32)

/-- The refusal a manifest meets, if any: INVALID, NOT_FOUND for an empty key slot, AUTH_FAIL (R346). `len` is the length the
packet names. -/
def manifestRefusal (s : State) (m : Bytes) (len : Nat) (kinds : List Nat) : Option (Status × Nat) :=
  if len < 192 ∨ len ≠ 128 + 64 * leAt m 8 4 then some (.invalid, parDetail 8)
  else match firstBad (manifestChecks s m kinds) with
    | some o => some (.invalid, imageDetail o)
    | none =>
      if leAt m 3 1 = 0 then none
      else match sget s.publisherKeys (leAt m 5 1) with
        | none => some (.notFound, 0)
        | some k => if manifestSigned m k then none else some (.authFail, 2)

/-- Shards as a manifest lists them. -/
def manifestShards (m : Bytes) : List Shard :=
  (List.range (leAt m 8 4)).map (fun i =>
    let o := 128 + 64 * i
    { length := leAt m (o + 32) 4, source := leAt m (o + 36) 1, slot := leAt m (o + 37) 1,
      address := BitVec.ofNat 64 (leAt m (o + 40) 8), digest := BitVec.ofNat 256 (beAt m o 32) })

/-- A generation that starts to load. -/
def newGeneration (m : Bytes) (number : Nat) (address : Nat) (whenPlaced : Bool) : Generation :=
  { number := number, manifest := m, digest := sha256 m, address := BitVec.ofNat 64 address, mode := leAt m 3 1,
    keyWidth := leAt m 4 1, base := leAt m 24 2, baseGen := leAt m 26 2, shards := manifestShards m, state := 1, copies := [m, m],
    whenPlaced := whenPlaced }

/-- The generation after a number (R342). -/
def nextGen (n : Nat) : Nat := if n = 0xFFFF then 1 else n + 1

/-! ### Memory tier (R355, R357, R502, R534) -/

/-- Bytes of the memory tier for golden copies: what stacks remain, less the reserve, the KV pool and removed regions. -/
def goldenRoom (s : State) : Nat :=
  (1536 - 96 * s.planner.lostStacks.length - 16 - s.kv.poolGib) * 1073741824 - 2097152 * s.planner.removedRegions.length

/-- Whether a stack, quarter × 4 + stack, is lost (R533, R534). -/
def stackLost (s : State) (n : Nat) : Bool := s.planner.lostStacks.contains (n / 4, n % 4) || s.planner.lostQuarters.contains (n / 4)

/-- Bytes of golden copies in each stack. -/
def stackLoads (s : State) : List Nat :=
  s.objects.foldl (fun t o => o.gens.foldl (fun t g => g.shards.foldl (fun t x =>
    if x.inMemoryTier ∧ x.verified then lmod t x.stack (· + x.length) else t) t) t) (List.replicate 16 0)

/-- The stack a shard goes to (R357): of the quarter that reads it most if one of 96 GiB there has room, else of another; the least loaded, the
lowest among equals (log entry 112). -/
def pickStack (s : State) (loads : List Nat) (quarter length : Nat) : Option Nat :=
  let room := fun (n : Nat) => !stackLost s n && decide (lgetD loads n 0 + length ≤ 103079215104)
  let least := fun (l : List Nat) => l.foldl (fun (m : Option Nat) n => match m with
    | some b => if lgetD loads n 0 < lgetD loads b 0 then some n else m
    | none => some n) none
  (least ((List.range 4).map (4 * quarter + ·) |>.filter room)).orElse (fun _ => least ((List.range 16).filter room))

/-- Bytes golden copies use there. -/
def goldenUsed (s : State) : Nat :=
  s.objects.foldl (fun t o => o.gens.foldl (fun t g => g.shards.foldl (fun t x =>
    if x.inMemoryTier ∧ x.verified then t + x.length else t) t) t) 0

/-! ### Arrays of an object (R69, R127, R363) -/

/-- Owner kind of R69: 1 model, 2 retrieval shard. -/
def ownerCode : ObjKind → Nat
  | .model => 1 | .shard => 2 | _ => 0

/-- Frees the arrays that hold a generation: state 1 and no owner; one being programmed runs to its end (R127, R611). -/
def freeArrays (s : State) (k : ObjKind) (h gen : Nat) : State :=
  { s with arrays := smapAll s.arrays (fun _ x =>
      let a := { x with orphaned := x.orphaned || (match x.program with
        | some p => decide (p.owner = k ∧ p.handle = h ∧ p.generation.toNat = gen)
        | none => false) }
      if a.ownerKind = ownerCode k ∧ ownerCode k ≠ 0 ∧ a.owner = h ∧ a.generation = gen then
        { a with ownerKind := 0, owner := 0, generation := 0, active := none, staged := none,
                 state := (match a.state with | .serving => .programmed | .calibrating => .programmed | x => x) }
      else a) }

/-- Frees every generation of an object and the object itself (R354). -/
def freeObject (s : State) (k : ObjKind) (h : Nat) : State :=
  match objGet s k h with
  | none => s
  | some o =>
    let s1 := o.gens.foldl (fun t g => freeArrays t k h g.number) s
    { s1 with objects := s1.objects.filter (fun x => ¬(x.kind = k ∧ x.handle = h)) }

/-- Drops one generation of an object. -/
def freeGen (s : State) (k : ObjKind) (h gen : Nat) : State :=
  objMod (freeArrays s k h gen) k h (fun o => { o with gens := o.gens.filter (fun g => g.number ≠ gen) })

/-- Accepted graphs that name an object (R354). -/
def graphNames (s : State) (k : ObjKind) (h : Nat) : Bool :=
  s.graphs.any (fun e => e.2.settings.owners.contains (k, h))

/-! ### Loading (R346–R352, R359, R369) -/

/-- A load that names an object already loaded adds a reference (R352). -/
def addReference (c : Ctx) (s : State) (o : LoadedObject) (g : Generation) : State :=
  if 255 ≤ o.refs then replySt c s .refusedCapacity
  else
    let s1 := objMod s o.kind o.handle (fun x => { x with refs := x.refs + 1 })
    replyOk c s1 (leBytes 2 o.handle ++ leBytes 2 g.number ++ leBytes 1 (o.refs + 1))

/-- A load that names an object whose first generation is still loading waits for that load, and adds a reference too (R352, R353; log entry
114). -/
def joinLoad (c : Ctx) (s : State) (o : LoadedObject) : State :=
  if 255 ≤ o.refs then replySt c s .refusedCapacity
  else startJob c (objMod s o.kind o.handle (fun x => { x with refs := x.refs + 1 })) (.load o.kind o.handle)

/-- MODEL_LOAD and ADAPTER_LOAD: an object whose manifest has this digest is referenced again, whatever has become of its publisher or base since
(R352); else the manifest is checked, and a free handle starts to load generation 1. -/
def loadObject (kinds : List Nat) (c : Ctx) (s : State) : State :=
  let m := c.data.first
  let same := fun (o : LoadedObject) => decide (kinds.contains (objCode o.kind) ∧ !o.retiring ∧ c.par 8 4 = m.length) &&
    decide ((((currentGen o).orElse (fun _ => o.gens.head?)).map (·.digest)) = some (sha256 m))
  if !c.data.readable then replySt c s .notFound
  else match s.objects.find? same with
  | some o => (match currentGen o with
      | some g => addReference c s o g
      | none => joinLoad c s o)
  | none => match manifestRefusal s m (c.par 8 4) kinds with
    | some (st, d) => reply c s st d []
    | none =>
        match objKindOf (leAt m 2 1) with
        | none => replyInvalid c s (imageDetail 2)
        | some k =>
          match (List.range (handlesOf k)).find? (fun h => (objGet s k h).isNone) with
          | none => replySt c s .refusedCapacity
          | some h =>
            let g := newGeneration m 1 (c.par 0 8) false
            let o : LoadedObject := { kind := k, handle := h, gens := [g] }
            requestShards (startJob c { s with objects := s.objects ++ [o] } (.load k h)) k h g

def bodyModelLoad (c : Ctx) (s : State) : State := loadObject [0, 1, 3] c s
def bodyAdapterLoad (c : Ctx) (s : State) : State := loadObject [2] c s

/-! ### Replacing (R360–R364, R370, R371) -/

/-- Starts the next generation of a handle. -/
def startReplace (c : Ctx) (s : State) (k : ObjKind) (o : LoadedObject) (whenPlaced : Bool) : State :=
  let n := nextGen o.lastGen
  let g := newGeneration c.data.first n (c.par 0 8) whenPlaced
  let s1 := objMod s k o.handle (fun x => { x with gens := x.gens ++ [g], lastGen := n })
  requestShards (startJob c s1 (.replace k o.handle n whenPlaced)) k o.handle g

/-- MODEL_REPLACE: `c.arraysFit` is Ezjor's answer to R361. -/
def bodyModelReplace (c : Ctx) (s : State) : State :=
  let k := c.par 12 1
  let h := c.par 14 2
  if k ≠ 0 ∧ k ≠ 1 ∧ k ≠ 3 then replyInvalid c s (parDetail 12)
  else match (objKindOf k).bind (fun kk => objGet s kk h) with
    | none => replySt c s .notFound
    | some o =>
      if (currentGen o).isNone then replySt c s .notFound
      else if 2 ≤ o.gens.length then replySt c s .busy
      else if !c.data.readable then replySt c s .notFound
      else match manifestRefusal s c.data.first (c.par 8 4) [k] with
        | some (st, d) => reply c s st d []
        | none =>
          let whenPlaced := decide (c.par 16 1 % 2 = 1)
          if whenPlaced && !c.arraysFit then replySt c s .refusedCapacity
          else startReplace c s o.kind o whenPlaced

/-- Generations of an adapter that stay when a replacement arrives (R371): the newest, and older ones that requests hold;
the newest too goes if an older one is held and no request holds it. -/
def adapterKept (s : State) (o : LoadedObject) : List Generation :=
  let newest := ((o.gens.getLast?).map (·.number)).getD 0
  let kept := o.gens.filter (fun g => decide (g.number = newest) || adapterGenHeld s o.handle g.number)
  if 2 ≤ kept.length then
    kept.filter (fun g => adapterGenHeld s o.handle g.number || decide (g.state = 1))
  else kept

def bodyAdapterReplace (c : Ctx) (s : State) : State :=
  let h := c.par 14 2
  if c.par 12 1 ≠ 2 then replyInvalid c s (parDetail 12)
  else match objGet s .adapter h with
    | none => replySt c s .notFound
    | some o =>
      if (currentGen o).isNone ∨ o.retiring then replySt c s .notFound
      else if 2 ≤ (adapterKept s o).length then replySt c s .busy
      else if !c.data.readable then replySt c s .notFound
      else match manifestRefusal s c.data.first (c.par 8 4) [2] with
        | some (st, d) => reply c s st d []
        | none =>
          let o1 := { o with gens := adapterKept s o }
          startReplace c (objMod s .adapter h (fun _ => o1)) .adapter o1 false

/-! ### Retiring (R354) -/

def bodyModelRetire (c : Ctx) (s : State) : State :=
  let k := c.par 12 1
  let h := c.par 14 2
  if k ≠ 0 ∧ k ≠ 1 ∧ k ≠ 3 then replyInvalid c s (parDetail 12)
  else match (objKindOf k).bind (fun kk => objGet s kk h) with
    | none => replySt c s .notFound
    | some o =>
      if (currentGen o).isNone then replySt c s .notFound
      else if 1 < o.refs then
        replyOk c (objMod s o.kind h (fun x => { x with refs := x.refs - 1 })) (leBytes 1 (o.refs - 1))
      else if graphNames s o.kind h ∨ 2 ≤ o.gens.length then replySt c s .busy
      else replyOk c (forceBuild (freeObject s o.kind h) .objects) (leBytes 1 0)

def bodyAdapterRetire (c : Ctx) (s : State) : State :=
  let h := c.par 14 2
  if c.par 12 1 ≠ 2 then replyInvalid c s (parDetail 12)
  else match objGet s .adapter h with
    | none => replySt c s .notFound
    | some o =>
      if (currentGen o).isNone ∨ o.retiring then replySt c s .notFound
      else if 1 < o.refs then
        replyOk c (objMod s .adapter h (fun x => { x with refs := x.refs - 1 })) (leBytes 1 (o.refs - 1))
      else
        replyOk c (settleAdapters (objMod s .adapter h (fun x => { x with refs := 0, retiring := true }))) (leBytes 1 0)

/-! ### Status (R372) -/

/-- One status record of R372. -/
def objectRecord (s : State) (k : ObjKind) (h : Nat) : Bytes :=
  match objGet s k h with
  | none => wordBytes [packW [(30, 2, objCode k), (16, 14, h)], 0, 0, 0]
  | some o =>
    let g := o.gens.getLast?
    let num := (g.map (·.number)).getD 0
    let older := if 2 ≤ o.gens.length then ((o.gens.head?).map (·.number)).getD 0 else 0
    let shards := (g.map (·.shards)).getD []
    wordBytes
      [ packW [(30, 2, objCode k), (16, 14, h), (0, 16, num)],
        packW [(28, 4, if o.retiring then 4 else (g.map (·.state)).getD 0), (26, 2, (g.map (·.mode)).getD 0),
          (24, 2, (g.map (·.rehash)).getD 0), (16, 8, o.refs), (0, 16, older)],
        packW [(16, 16, (shards.filter (·.inMemoryTier)).length), (0, 16, (shards.filter (fun x => !x.inMemoryTier)).length)],
        if k = .adapter then 0 else
          (s.arrays.filter (fun e => e.2.ownerKind = ownerCode k ∧ ownerCode k ≠ 0 ∧ e.2.owner = h ∧ e.2.generation = num)).length ]

def bodyModelStatusRead (c : Ctx) (s : State) : State :=
  match objKindOf (c.par 12 1) with
  | none => replyInvalid c s (parDetail 12)
  | some k =>
    if handlesOf k < c.par 14 2 + c.par 16 2 then replyInvalid c s (parDetail 16)
    else replyBuffer c s 24 ((List.range (c.par 16 2)).flatMap (fun i => objectRecord s k (c.par 14 2 + i)))

/-! ### Keys and the re-hash period (R345, R350) -/

def bodyPublisherKeyRegister (c : Ctx) (s : State) : State :=
  let x := beNat (c.parBytes 4 32)
  let y := beNat (c.parBytes 36 32)
  if 15 < c.par 0 1 then replyInvalid c s (parDetail 0)
  else if !onCurve x y then replyInvalid c s (parDetail 4)
  else replyOk c { s with publisherKeys := sput s.publisherKeys (c.par 0 1) (BitVec.ofNat 256 x, BitVec.ofNat 256 y) } []

def bodyRehashPeriodSet (c : Ctx) (s : State) : State :=
  if c.par 0 2 = 0 ∨ 168 < c.par 0 2 then replyInvalid c s (parDetail 0)
  else replyOk c { s with reliability := { s.reliability with rehashHours := c.par 0 2 } } []

/-! ### Arriving shards (R348, R206, R211, R367) -/

/-- The graphs whose descriptors the engine holds: those accepted, and those that wait for a build. A manifest tells no format (R343)
and a graph may name only what is loaded (R269), so that for a first load under a fresh handle there are none: what it holds is judged
when a graph names it (log entry 80). -/
def knownImages (s : State) : List Bytes :=
  s.graphs.map (·.2.image) ++ s.jobs.filterMap (fun j => match j.work with | .graphSubmit im _ => some im | _ => none)

/-- Weight tensors of a graph that lie in an object (R274). -/
def tensorsIn (im : Bytes) (k : ObjKind) (h : Nat) : List Tensor :=
  (graphTables im).tensors.filter (fun t =>
    decide (t.kind = 0 ∨ t.kind = 5) && decide (t.ownerKind = ownerCode k) && decide (t.owner = h))

/-- A byte of a generation's image, of the shards that have been verified and of shard `index` if it is `b`; none elsewhere. -/
def imageByte (g : Generation) (index : Nat) (b : Bytes) (i : Nat) : Option Byte :=
  let n := i / 268435456
  if n = index then b[i % 268435456]?
  else (g.shards[n]?).bind (fun x => if x.verified then x.bytes[i % 268435456]? else none)

/-- What is wrong with an arriving shard's contents beside the shards verified before it (R206, R211): a burst that lies in two shards is judged
when the second arrives. -/
def shardFault (s : State) (k : ObjKind) (h : Nat) (g : Generation) (index : Nat) (b : Bytes) : Option Status :=
  let at_ := imageByte g index b
  ((knownImages s).flatMap (fun im => tensorsIn im k h)).findSome? (fun t => t.fault (fun i => (at_ i).isSome) (fun i => (at_ i).getD 0))

/-- What is wrong with what a loaded object holds as a graph's tensor says it is (R206, R211). -/
def tensorFault (s : State) (t : Tensor) : Option Status :=
  if t.kind ≠ 0 ∧ t.kind ≠ 5 then none
  else ((objGet s (if t.ownerKind = 2 then .shard else .model) t.owner).bind currentGen).bind (fun g =>
    let at_ := imageByte g g.shards.length []
    t.fault (fun i => (at_ i).isSome) (fun i => (at_ i).getD 0))

/-- Whether an index entry of a token store points outside its image (R367). -/
def storeIndexBad (im : Bytes) : Bool :=
  let n := leAt im 0 8
  decide (n = 0 ∨ 4294967295 < n) || decide (im.length < 8 + 8 * n) ||
    (List.range n).any (fun i =>
      let e := leAt im (8 + 8 * i) 8
      decide (im.length < 8 + 8 * n + 4 * (fld e 39 0 + fld e 63 40)))

/-- The image of a generation: its shards in order (R341). -/
def genImage (g : Generation) : Bytes := g.shards.flatMap (·.bytes)

/-- Answers the jobs that load or replace a generation. -/
def answerLoad (s : State) (k : ObjKind) (h gen : Nat) (st : Status) (detail : Nat) (result : Bytes) : State :=
  finishJobs s (fun j => match j.work with
    | .load k' h' => if k' = k ∧ h' = h then some (st, detail, result) else none
    | .replace k' h' g' _ => if k' = k ∧ h' = h ∧ g' = gen then some (st, detail, result) else none
    | _ => none)

/-- A load or replacement is abandoned with a status (R348): the generation goes, and the object if it has no other. -/
def abandonGen (s : State) (k : ObjKind) (h gen : Nat) (st : Status) (detail : Nat) : State :=
  let s0 := forgetFetch s (fun f => decide (f.1 = k ∧ f.2.1 = h ∧ f.2.2.1 = gen))
  let s1 := answerLoad (freeGen s0 k h gen) k h gen st detail []
  { s1 with objects := s1.objects.filter (fun o => ¬(o.kind = k ∧ o.handle = h ∧ o.gens = [])) }

/-- State a verified generation takes at first: adapters and token stores have nothing to place (R372). -/
def verifiedState (k : ObjKind) : Nat := if k = .adapter ∨ k = .store then 3 else 2

/-- Changes a generation of an object. -/
def genMod (s : State) (k : ObjKind) (h gen : Nat) (f : Generation → Generation) : State :=
  objMod s k h (fun o => { o with gens := o.gens.map (fun g => if g.number = gen then f g else g) })

/-- Whether a generation of an adapter waits for nothing but a step boundary: verified, its golden copy in the memory tier, the plan that makes room
for it installed (R368, R369). -/
def adapterWaits (g : Generation) : Bool :=
  decide (g.state = 1) && !g.awaitsPlan && g.shards.all (fun x => x.verified && x.inMemoryTier)

/-- A generation of an adapter becomes usable (R368–R370): the load or replacement is answered. An older generation stays until the next
ADAPTER_REPLACE (R371). -/
def useAdapter (o : LoadedObject) (s : State) (g : Generation) : State :=
  let first := (currentGen o).isNone
  answerLoad (genMod s .adapter o.handle g.number (fun y => { y with state := 3 })) .adapter o.handle g.number .ok 0
    (if first then leBytes 2 o.handle ++ leBytes 2 g.number ++ leBytes 1 o.refs else leBytes 2 g.number)

/-- At a step boundary adapters that waited for it become usable (R21, R368, R370). -/
def adaptersUsable (s : State) : State :=
  (s.objects.filter (fun o => o.kind = .adapter)).foldl (fun t o => (o.gens.filter adapterWaits).foldl (useAdapter o) t) s

/-- The same where no lane is in the middle of a step. -/
def adaptersAtRest (s : State) : State := if s.lanes.any (fun e => e.2.step.isSome) then s else adaptersUsable s

/-- Every shard of a loading generation is verified. A first load is answered, and Ezjor builds (R301); an adapter waits for a step
boundary, and for the plan that makes room if the memory tier has none (R368, R369). A replacement whose handle no graph names switches
at once (R362), and its golden copies are placed by the build it forces (R359); another waits for the plan that carries it (R360). -/
def generationVerified (s : State) (k : ObjKind) (h : Nat) (g : Generation) : State :=
  if k = .store ∧ storeIndexBad (genImage g) then abandonGen s k h g.number .invalid (imageDetail 16)
  else if k = .adapter then
    (if adapterWaits g then adaptersAtRest s
     else forceBuild (genMod s k h g.number (fun y => { y with awaitsPlan := true })) .adapterSpace)
  else
    let set := fun t => genMod t k h g.number (fun x => { x with state := verifiedState k })
    let ok := leBytes 2 h ++ leBytes 2 g.number ++
      leBytes 1 (((objGet s k h).map (·.refs)).getD 1)
    match objGet s k h with
    | none => s
    | some o =>
      if (currentGen o).isNone then
        if k = .store then answerLoad (set s) k h g.number .ok 0 ok
        else forceBuild (answerLoad (set s) k h g.number .ok 0 ok) .objects
      else if k = .store ∨ !graphNames s k h then
        forceBuild ((o.gens.filter (fun x => x.number ≠ g.number)).foldl (fun t x => freeGen t k h x.number)
          (answerLoad (set s) k h g.number .ok 0 (leBytes 2 g.number))) .objects
      else forceBuild s .objects

/-- A shard's source is reported: it delivered what the engine cannot take (R351, R366). -/
def sourceReport (s : State) (h index : Nat) (x : Shard) (st : Status) : State :=
  report s 0x1B 2 (if x.source = 0 then pciePortUid else fabricUid (((sget s.servers x.slot).map (·.port)).getD 0))
    (padTo 8 (leBytes 2 st.code) ++ leBytes 2 h ++ leBytes 2 index)

/-- Where an arriving shard goes (R355, R357, R358): the stack it lay in by the newest plan, else one with room; none: it stays at its source. -/
def arrivalStack (s : State) (g : Generation) (x : Shard) : Option Nat :=
  if g.state ≠ 1 ∧ !x.home then none
  else if goldenUsed s + x.length ≤ goldenRoom s then
    if x.home ∧ !stackLost s x.stack then some x.stack else pickStack s (stackLoads s) 0 x.length
  else none

/-- SHARD_ARRIVAL (R348): a shard is hashed; a first mismatch is fetched again, a second abandons the load with
INTEGRITY_FAIL; a source that cannot be read, with NOT_FOUND. After a chip reset (R366) the object stays, and a second
mismatch is reported as that of an outer-tier shard; a shard that finds no room any longer where the plan has it forces a build (R358). -/
def shardArrive (k : ObjKind) (h : Nat) (r : ShardRef) (bytes : Option Bytes) (s : State) : State :=
  let index := r.index
  match (objGet s k h).bind (fun o => o.gens.find? (fun g => g.number = r.generation)) with
  | none => s
  | some g =>
    match (g.shards[index]?).filter (fun x => !x.verified) with
    | none => s
    | some x =>
      let setShard := fun (f : Shard → Shard) => genMod s k h g.number (fun y => { y with shards := lmod y.shards index f })
      match bytes with
      | none => if g.state = 1 then abandonGen s k h g.number .notFound 0 else s
      | some b =>
        if b.length = x.length ∧ sha256 b = x.digest then
          match shardFault s k h g index b with
          | some st =>
            if g.state = 1 then abandonGen s k h g.number st (if st = .invalid then imageDetail (128 + 64 * index) else 0)
            else sourceReport s h index x st
          | none =>
            let at_ := arrivalStack s g x
            let s0 := setShard (fun y => { y with
              verified := true, bytes := b, inMemoryTier := at_.isSome, stack := at_.getD y.stack, home := y.home || at_.isSome })
            let s1 := forgetFetch s0 (fun f => decide (f = (k, h, g.number, index)))
            let s2 := if x.home && at_.isNone then forceBuild s1 .objects else s1
            let g1 := ((objGet s2 k h).bind (fun o1 => o1.gens.find? (fun y => y.number = g.number))).getD g
            if g1.state = 1 ∧ g1.shards.all (·.verified) then generationVerified s2 k h g1 else s2
        else if x.failedOnce then
          if g.state = 1 then abandonGen s k h g.number .integrityFail 0
          else sourceReport s h index x .integrityFail
        else
          let again := setShard (fun y => { y with failedOnce := true })
          requestShard k h g.number (forgetFetch again (fun f => decide (f = (k, h, g.number, index)))) (index, x)

/-! ### Re-hash (R347, R350, R351) -/

/-- Host ns of the re-hash period (R350). -/
def rehashPeriod (s : State) : Nat := s.reliability.rehashHours * 3600000000000

/-- A generation whose pass is over begins the next one when the period has passed since the last began (R350). -/
def passBegins (s : State) (g : Generation) : Generation :=
  if g.shards.all (·.rehashed) ∧ g.passFrom + rehashPeriod s ≤ hostTime s then
    { g with passFrom := hostTime s, shards := g.shards.map (fun x => { x with rehashed := false }) }
  else g

/-- A shard of a pass has been hashed: the pass is complete with the last of them (R350, R351), and the next one that lies at a weight server is
requested from it (R347). -/
def shardRehashed (s : State) (k : ObjKind) (h : Nat) (g0 : Generation) (index : Nat) (transient : Bool) : State :=
  let g1 := { g0 with shards := lmod g0.shards index (fun x => { x with rehashed := true }), rehashTransient := g0.rehashTransient || transient }
  let g2 := if g1.shards.all (·.rehashed) then
      { g1 with rehash := if g1.rehashTransient then 2 else 1, rehashTransient := false }
    else if transient then { g1 with rehash := 2 } else g1
  let t := genMod s k h g0.number (fun _ => g2)
  match (numbered g2.shards).find? (fun e => !e.2.rehashed) with
  | some e => if e.2.inMemoryTier then t else readShard k h g0.number t e
  | none => t

/-- REHASH: every held generation in DIGEST or BOTH mode, each shard once in a period wherever it lies (R350). A mismatch is hashed again; a
transient one is reported, a lasting one contained, or reported when the shard lies in the outer tier (R351). -/
def rehashShard (k : ObjKind) (h : Nat) (r : ShardRef) (loc : HbmLoc) (bytes again : Bytes) (s : State) : State :=
  let index := r.index
  match ((objGet s k h).bind (fun o => o.gens.find? (fun g => g.number = r.generation))).map (passBegins s) with
  | none => s
  | some g =>
    match g.shards[index]? with
    | none => s
    | some x =>
      if g.mode = 1 ∨ g.state = 1 ∨ !x.verified ∨ x.rehashed then s
      else
        let uid := hbmUid loc.quarter.val loc.stack.val loc.pseudo.val
        let name := leBytes 2 h ++ leBytes 2 index
        if sha256 bytes = x.digest then shardRehashed s k h g index false
        else if sha256 again = x.digest then
          report (shardRehashed s k h g index true) 0x16 1 uid (padTo 8 name ++ leBytes 1 2)
        else if x.inMemoryTier then contain s 0x17 uid (padTo 8 name ++ leBytes 1 2) none
        else sourceReport (shardRehashed s k h g index false) h index x .integrityFail

/-! ### The rows -/

def execModelLoad (p : Pkt) (s : State) : Out State := .next (packetRow 0x0101 p s id bodyModelLoad)
def execModelReplace (p : Pkt) (arraysFit : Bool) (s : State) : Out State :=
  .next (packetRow 0x0102 p s (fun c => { c with arraysFit := arraysFit }) bodyModelReplace)
def execModelRetire (p : Pkt) (s : State) : Out State := .next (packetRow 0x0103 p s id bodyModelRetire)
def execModelStatusRead (p : Pkt) (s : State) : Out State := .next (packetRow 0x0104 p s id bodyModelStatusRead)
def execAdapterLoad (p : Pkt) (s : State) : Out State := .next (packetRow 0x0111 p s id bodyAdapterLoad)
def execAdapterReplace (p : Pkt) (s : State) : Out State := .next (packetRow 0x0112 p s id bodyAdapterReplace)
def execAdapterRetire (p : Pkt) (s : State) : Out State := .next (packetRow 0x0113 p s id bodyAdapterRetire)
def execPublisherKeyRegister (p : Pkt) (s : State) : Out State := .next (packetRow 0x0120 p s id bodyPublisherKeyRegister)
def execRehashPeriodSet (p : Pkt) (s : State) : Out State := .next (packetRow 0x0121 p s id bodyRehashPeriodSet)

/-- SHARD_ARRIVAL. -/
def execShardArrival (kind : ObjKind) (handle : Fin 16384) (shard : ShardRef) (bytes : Option Bytes) (s : State) : Out State :=
  .next (if isRunning s ∧ s.power.state ≠ .dormant then shardArrive kind handle.val shard bytes s else s)

/-- REHASH. -/
def execRehash (kind : ObjKind) (handle : Fin 16384) (shard : ShardRef) (loc : HbmLoc) (bytes again : Bytes) (s : State) :
    Out State :=
  .next (if isRunning s ∧ s.power.state ≠ .dormant then rehashShard kind handle.val shard loc bytes again s else s)

end Sys2Proof.Machine
end

