-- ==== Sys2Proof/Machine/Golden.lean ====
section
/-! DEFINITION. Golden weights as the engine reads them: the tensor of a layer, its place in a held generation's image, the weights of
an array's pairs (R51), an outlier channel's row (R163), and what Garnet cores compute from them (R177, R219). -/

namespace Sys2Proof.Machine
open Sys2Proof

/-! ### Layers

A layer is named by its node's number; each expert of an EXPERT_LINEAR node is a layer of its own, named by the number plus 65,536
times the expert (R277). -/

/-- The node of a layer, and the expert it serves. -/
def layerNode (layer : Nat) : Nat := layer % 65536
def layerExpert (layer : Nat) : Nat := layer / 65536

/-- The layer of a node's expert. -/
def layerNumber (node expert : Nat) : Nat := node + 65536 * expert

/-- The weight tensor of a layer and the row where its expert's outputs begin (R277). -/
def layerTensor (g : GraphImage) (layer : Nat) : Option (Tensor × Nat) :=
  match g.nodes[layerNode layer]? with
  | some n => if n.weight = 0xFFFF then none else some (tensorOf g n.weight, layerExpert layer * (tensorOf g n.weight).dim 1)
  | none => none

/-- The object kind an owner kind of R274 names. -/
def ownerObject (kind : Nat) : ObjKind := if kind = 2 then .shard else .model

/-- The image of a generation whose golden copy is at hand: every shard verified. -/
def heldImage (s : State) (k : ObjKind) (h gen : Nat) : Option Bytes :=
  ((objGet s k h).bind (fun o => o.gens.find? (fun g => g.number = gen))).bind (fun g =>
    if g.shards.all (·.verified) then some (genImage g) else none)

/-- Golden weights of a layer: the tensor, where its rows begin, and the image of a generation of its owner. -/
structure Golden where
  tensor : Tensor
  base : Nat
  image : Bytes
  deriving DecidableEq, Repr

/-- The golden weights of a layer of a graph, in the generation `gen` gives for the owner; none while they are not at hand. -/
def goldenAt (s : State) (graph layer : Nat) (gen : ObjKind → Nat → Option Nat) : Option Golden :=
  (sget s.graphs graph).bind (fun gr => (layerTensor (graphTables gr.image) layer).bind (fun t =>
    let k := ownerObject t.1.ownerKind
    (gen k t.1.owner).bind (fun n => (heldImage s k t.1.owner n).map (fun im => { tensor := t.1, base := t.2, image := im }))))

/-- A byte of the golden image. -/
def Golden.byte (g : Golden) (i : Nat) : Byte := lgetD g.image i 0

/-- Weights of one output of the layer, in input order; zero for an output the layer does not have. -/
def Golden.outputRow (g : Golden) (o : Nat) : List F32 :=
  if o < g.tensor.dim 1 then g.tensor.rowWeights g.byte (g.base + o) else []

/-- Bytes of the golden copy of a layer of a tensor, scales included (R179). -/
def layerBytes (t : Tensor) : Nat := t.dim 1 * (t.rowBytes + (if formatIsMx t.format then t.dim 0 / 32 else 0))

/-! ### What an array holds of a layer (R27, R38, R39, R51, R53) -/

/-- The output that pair p of column block col stands for in row phase j: in SEPARATE mode each row phase is an output of its own. -/
def blockOutput (p : LayerPlan) (col pair j : Nat) : Nat :=
  if p.sum then col * 512 + pair else col * 512 * p.phases + j * 512 + pair

/-- The weights of a block's data pairs by pair then row. -/
def Golden.pairs (g : Golden) (p : LayerPlan) (row col : Nat) : List (List F32) :=
  let pad := fun (n : Nat) (l : List F32) => (l ++ List.replicate (n - l.length) 0).take n
  (List.range 512).map (fun pair =>
    if p.sum then pad 512 ((g.outputRow (blockOutput p col pair 0)).drop (512 * row))
    else
      let w := 512 / p.phases
      (List.range p.phases).flatMap (fun j => pad w ((g.outputRow (blockOutput p col pair j)).drop (w * row))))

/-- One scale for up to 512 weights of an E4M3 copy: the largest magnitude over 448 (log entry 81). -/
def copyScale (ws : List F32) : F32 := f32div (maxAbs ws) (f32int 448)

/-- The E4M3 copy of a persistent outlier row, as its elements read back (R163, R210). -/
def copyRow (ws : List F32) : List F32 :=
  let s := copyScale ws
  ws.map (fun w => if s = 0 then 0 else f32mul (ofFormat 0x04 (toFormat 0x04 (f32div w s))) s)

/-- The weight row of a row of a block: the weights of that row by pair (R163). -/
def Golden.row (g : Golden) (p : LayerPlan) (row col r : Nat) : List F32 := (g.pairs p row col).map (fun l => lgetD l r 0)

/-! ### What Garnet cores compute (R177, R178, R219) -/

/-- Format in which Garnet cores take a tensor of a format (R210): FP32 is no activation format, and BF16 stands for it (log entry
82). -/
def activationFormat (fmt : Nat) : Nat := if fmt = 0x01 then 0x03 else fmt

/-- Inputs in the format Garnet cores take. -/
def activations (fmt : Nat) (xs : List F32) : List FVal :=
  xs.map (fun x => f32v (ofFormat (activationFormat fmt) (toFormat (activationFormat fmt) x)))

/-- Format of the input tensor of a layer's node. -/
def inputFormat (s : State) (graph layer : Nat) : Nat :=
  ((sget s.graphs graph).bind (fun gr =>
    let g := graphTables gr.image
    (g.nodes[layerNode layer]?).map (fun n => (tensorOf g n.input).format))).getD 1

/-- Garnet's compensated sum of the products of some consecutive 32-element blocks of an output. -/
def Golden.garnet (g : Golden) (fmt : Nat) (o : Nat) (xs : List F32) : F32 × F32 :=
  if o < g.tensor.dim 1 then
    garnetDot (addsExactly g.tensor.format (activationFormat fmt)) (g.tensor.rowBlocks g.byte (g.base + o)) (activations fmt xs) (0, 0)
  else (0, 0)

/-- The wide output of the layer for one input (R177): every output of its tensor, from the golden copy. -/
def Golden.wide (g : Golden) (fmt : Nat) (xs : List F32) : List F32 :=
  (List.range (g.tensor.dim 1)).map (fun o => compValue (g.garnet fmt o xs))

/-- The partials a Garnet core forms for the outputs of a column block over one row block (R220, R221): the inputs of other row blocks
count as zero. -/
def Golden.partials (g : Golden) (fmt : Nat) (p : LayerPlan) (row col : Nat) (xs : List F32) : List (F32 × F32) :=
  let w := if p.sum then 512 else 512 / p.phases
  let mine := (numbered xs).map (fun e => if e.1 / w = row then e.2 else 0)
  (List.range (if p.sum then 1 else p.phases)).flatMap (fun j =>
    (List.range 512).map (fun pair => g.garnet fmt (blockOutput p col pair j) mine))

end Sys2Proof.Machine
end

