-- ==== Sys2Proof/Machine/SiteTests.lean ====
section
/-! DEFINITION. The tests of a site diagnosis (R108): what each of its sweeps converts, the words it sets at the site (R83, R112, R114),
and which readings fail. -/

namespace Sys2Proof.Machine
open Sys2Proof

/-! ### Sequence tables and control words (R83, R86, R112) -/

/-- A sequence-table entry at the integration time of 72 ns (R83, R86). -/
def seqEntry (ref : Bool) (gain first last : Nat) : Word :=
  BitVec.ofNat 32 (packW [(31, 1, 1), (28, 1, boolBit ref), (26, 2, gain), (22, 4, 8), (10, 10, last), (0, 10, first)])

/-- The service table of R86; the calibration table of R119 is the one with the spare range. -/
def serviceTable (gain : Fin 4) (spares : Bool) : List Word :=
  [seqEntry false gain.val 0 511, seqEntry true 0 512 527, if spares then seqEntry false gain.val 528 543 else 0]
    ++ List.replicate 13 0

/-- The control word in the engine's own use (R112): mode, the tier connected, the site's trigger delay. -/
def siteControl (delay mode tier : Nat) : Word :=
  BitVec.ofNat 32 (packW [(30, 2, mode), (27, 3, tier), (18, 6, delay)])

/-! ### Failing readings

A conversion that is not listed gave the code of an ideal path. The limits of the zero and ramp tests are stated; those of the column and
array tests are not: ±2 codes as in the ramp test, and the ±1.5 codes of R121 (log entry 31). -/

/-- Pairs of a position: those it converts (R70). -/
def positionPairs (q : Nat) : List Nat := (List.range 34).map (fun i => 16 * i + q)

/-- Positions whose slice's mean over its pairs' 64 sweeps lies beyond ±2 codes at some gain (step 1). -/
def zeroFails (d : DiagReadings) : List Nat :=
  (List.range 16).filter (fun q => (List.range 4).any (fun g =>
    decide (2 * 34 * 64 < (((d.zero.filter (fun (e : Fin 4 × Nat × Int) => decide (e.1.val = g ∧ e.2.1 % 16 = q))).map (fun (e : Fin 4 × Nat × Int) => e.2.2)).foldl (· + ·) 0).natAbs)))

/-- Pairs of a ramp with a code more than 2 from n / 4 (step 2); with 32 DAC codes between conversions no two of the others agree, so that no
code goes missing. -/
def rampFails (l : List (Nat × Int × Int)) : List Nat := ((l.filter (fun e => decide (8 < (4 * e.2.2 - e.2.1).natAbs))).map (·.1)).eraseDups

/-- Pairs of a column test with a code more than 2 from the +64 or −64 of DAC code +256 (step 3). -/
def columnFails (l : List (Nat × Bool × Int)) : List Nat :=
  ((l.filter (fun e => decide (2 < (e.2.2 - (if e.2.1 then -64 else 64)).natAbs))).map (·.1)).eraseDups

/-- Pairs that fail the swap test too (step 4). -/
def swapFails (d : DiagReadings) : List Nat := rampFails d.swapRamp ++ columnFails d.swapColumn

/-- Pairs that failed steps 2 or 3, which the swap test converts again. -/
def swapPairs (d : DiagReadings) : List Nat := (rampFails d.ramp ++ columnFails d.column).eraseDups

/-- Readings taken sweep by sweep and those reported at the end together. -/
def joinReadings (a b : DiagReadings) : DiagReadings :=
  { zero := a.zero ++ b.zero, ramp := a.ramp ++ b.ramp, column := a.column ++ b.column, swapRamp := a.swapRamp ++ b.swapRamp
    swapColumn := a.swapColumn ++ b.swapColumn, arrays := a.arrays ++ b.arrays }

/-! ### The sweeps of a diagnosis -/

/-- What one sweep of a diagnosis converts (R108). -/
inductive DiagSweep where
  | zero (gain : Fin 4)
  | ramp (code : Int)
  | column (pair : Nat) (negative : Bool)
  | swapRamp (pair : Nat) (code : Int)
  | swapColumn (pair : Nat) (negative : Bool)
  | array (tier block : Fin 8)
  deriving DecidableEq, Repr

/-- DAC code of a ramp's step i. -/
def rampCode (i : Nat) : Int := 32 * Int.ofNat i - 512

/-- The sweep of a diagnosis after k others: 64 at each gain, 32 of the ramp, two a pair of the column test, the same 34 again for each pair
that failed, one block of each tier's calibration pattern after the other; none once all have run (log entry 98). -/
def diagSweep (d : DiagReadings) (k : Nat) : Option DiagSweep :=
  let again := swapPairs d
  if k < 256 then some (.zero (Fin.ofNat 4 (k / 64)))
  else if k < 288 then some (.ramp (rampCode (k - 256)))
  else if k < 1376 then some (.column ((k - 288) / 2) (decide ((k - 288) % 2 = 1)))
  else if k < 1376 + 34 * again.length then
    let pair := lgetD again ((k - 1376) / 34) 0
    let i := (k - 1376) % 34
    some (if i < 32 then .swapRamp pair (rampCode i) else .swapColumn pair (decide (i = 33)))
  else
    let j := k - 1376 - 34 * again.length
    if j < 64 then some (.array (Fin.ofNat 8 (j / 8)) (Fin.ofNat 8 j)) else none

/-- An entry of a diagnosis: Skip correction, and Test input but in the array test. -/
def testEntry (dac : Bool) (gain first last : Nat) : Word :=
  BitVec.ofNat 32 (packW [(31, 1, 1), (30, 1, boolBit dac), (29, 1, 1), (26, 2, gain), (22, 4, 8), (10, 10, last), (0, 10, first)])

/-- DAC control word of a target and a code (R114). -/
def dacWord (target : Nat) (code : Int) : Word := BitVec.ofNat 32 (packW [(10, 2, target), (0, 10, twos 10 code)])

/-- Tier (that of the site's control word unless the array test names one), DAC control word and entry of a sweep. -/
def diagWords (tier : Nat) : DiagSweep → Nat × Word × Word
  | .zero g => (tier, dacWord 0 0, testEntry true g.val 0 543)
  | .ramp n => (tier, dacWord 0 n, testEntry true 0 0 543)
  | .column p neg => (tier, dacWord (if neg then 2 else 1) 256, testEntry true 0 p p)
  | .swapRamp p n => (tier, dacWord 0 n, testEntry true 0 p p)
  | .swapColumn p neg => (tier, dacWord (if neg then 2 else 1) 256, testEntry true 0 p p)
  | .array t _ => (t.val, dacWord 0 0, testEntry false 0 0 543)

/-- The position the spare stands in for during a sweep of a diagnosis: that of the pair of a swap test, else the one it had. -/
def diagSpare (spare : Nat) : Option DiagSweep → Nat
  | some (.swapRamp p _) => p % 16
  | some (.swapColumn p _) => p % 16
  | _ => spare

/-- Pairs a sweep of a diagnosis converts, and its gain. -/
def diagPairs : DiagSweep → List Nat × Fin 4
  | .zero g => (List.range 544, g)
  | .column p _ => ([p], 0)
  | .swapRamp p _ => ([p], 0)
  | .swapColumn p _ => ([p], 0)
  | _ => (List.range 544, 0)

/-- Differential charge that the test DAC injects in a sweep (R105, R106); none where the array is driven. -/
def diagCharge : DiagSweep → Option Int
  | .zero _ => some 0
  | .ramp n => some ((dacCharge 0 n).1 - (dacCharge 0 n).2)
  | .swapRamp _ n => some ((dacCharge 0 n).1 - (dacCharge 0 n).2)
  | .column _ neg => some (if neg then -(dacCharge 2 256).2 else (dacCharge 1 256).1)
  | .swapColumn _ neg => some (if neg then -(dacCharge 2 256).2 else (dacCharge 1 256).1)
  | .array _ _ => none

/-- Codes and flags of a sweep of a diagnosis by pair. For a pair that takes its input from the test DAC the charge given is how far the
injection is off, within the bounds of R105. -/
def diagCodes (w : DiagSweep) (charges : List Int) : List (Nat × Int × Bool) :=
  (diagPairs w).1.map (fun p =>
    let q := lgetD charges p 0
    (p, convert (diagPairs w).2 (match diagCharge w with | some c => c + max (-dacTolerance) (min dacTolerance q) | none => q)))

/-- Adds a code to the sum of its gain and pair. -/
def addZero (g : Fin 4) (l : List (Fin 4 × Nat × Int)) (e : Nat × Int × Bool) : List (Fin 4 × Nat × Int) :=
  if l.any (fun x => decide (x.1 = g ∧ x.2.1 = e.1)) then l.map (fun x => if x.1 = g ∧ x.2.1 = e.1 then (x.1, x.2.1, x.2.2 + e.2.1) else x)
  else l ++ [(g, e.1, e.2.1)]

/-- Readings with those of a sweep. -/
def addSweep (d : DiagReadings) (w : DiagSweep) (cs : List (Nat × Int × Bool)) : DiagReadings :=
  match w with
  | .zero g => { d with zero := cs.foldl (addZero g) d.zero }
  | .ramp n => { d with ramp := d.ramp ++ cs.map (fun e => (e.1, n, e.2.1)) }
  | .column _ neg => { d with column := d.column ++ cs.map (fun e => (e.1, neg, e.2.1)) }
  | .swapRamp _ n => { d with swapRamp := d.swapRamp ++ cs.map (fun e => (e.1, n, e.2.1)) }
  | .swapColumn _ neg => { d with swapColumn := d.swapColumn ++ cs.map (fun e => (e.1, neg, e.2.1)) }
  | .array t b => { d with arrays := d.arrays ++ ((cs.filter (fun e => decide (512 ≤ e.1 ∧ e.1 < 528))).map (fun e => (t, b, e.1, e.2.1))) }

/-- A site set for the next sweep of the diagnosis under way there; after the last it keeps the words of that one. -/
def setDiagWords (x : Site) : Site :=
  match diagSweep x.readings x.tested with
  | none => x
  | some w =>
    let v := diagWords (fld x.control.toNat 29 27) w
    { x with control := siteControl x.delay 2 v.1, dac := v.2.1, dacNow := v.2.1, entries := v.2.2 :: List.replicate 15 0 }

end Sys2Proof.Machine
end

