-- ==== Sys2Proof/Machine/ArrayOps.lean ====
section
/-! DEFINITION. Operations over arrays and sites that several families use: what is in a plan, the firing budget (R20, R47–R50),
programming (R57–R65), retirement and quarantine. -/

namespace Sys2Proof.Machine
open Sys2Proof

/-! ### What plans hold -/

/-- The array sets of a layer: its own, then its replicas' (R283). -/
def layerSets (p : LayerPlan) : List ArraySet := { arrays := p.arrays, lowArrays := p.lowArrays } :: p.replicas

/-- Every array of a layer, replicas included. -/
def layerArrays (p : LayerPlan) : List Nat := (layerSets p).flatMap (fun t => t.arrays.map (fun a => a.1.val))

/-- A layer as one of its array sets drives it: 0 its own, then the replicas. -/
def onReplica (p : LayerPlan) (r : Nat) : LayerPlan :=
  match (layerSets p)[r]? with
  | some t => { p with arrays := t.arrays, lowArrays := t.lowArrays }
  | none => p

/-- The installed plan's lanes (R289). -/
def planLanes (s : State) : List LanePlan := ((s.planner.plan).map (·.lanes)).getD []

/-- The lanes of the plan that waits to become ready. -/
def waitingLanes (s : State) : List LanePlan := ((s.planner.waiting).map (·.lanes)).getD []

/-- Arrays the lanes of a plan serve from. -/
def lanesArrays (ls : List LanePlan) : List Nat := ls.flatMap (fun l => l.layers.flatMap layerArrays)

/-- Whether an array is in the installed plan. -/
def inPlan (s : State) (a : Nat) : Bool := (lanesArrays (planLanes s)).contains a

/-- Whether an array is in the installed plan or in the one that waits: its contents have to be placed again (R62, R135, R137). -/
def inSomePlan (s : State) (a : Nat) : Bool := (lanesArrays (planLanes s ++ waitingLanes s)).contains a

/-- Layers of a plan that use an array: lane and layer. -/
def lanesLayersOf (ls : List LanePlan) (a : Nat) : List (Nat × Nat) :=
  ls.flatMap (fun l => (l.layers.filter (fun y => (layerArrays y).contains a)).map (fun y => (l.graph.val, y.node)))

/-- Lanes and layers that run with an array. -/
def layersOf (s : State) (a : Nat) : List (Nat × Nat) :=
  s.lanes.flatMap (fun e => (e.2.plan.layers.filter (fun y => (layerArrays y).contains a)).map (fun y => (e.1, y.node)))

/-- Serves a layer on the wide path, until something lets it go back. -/
def wideLayer (s : State) (g layer : Nat) : State :=
  laneMod s g (fun l => { l with wideNodes := if l.wideNodes.contains layer then l.wideNodes else layer :: l.wideNodes })

/-- Serves every layer that uses an array on the wide path from now on (R190). -/
def wideLayersOf (s : State) (a : Nat) : State := (layersOf s a).foldl (fun t e => wideLayer t e.1 e.2) s

/-- Serves every layer that uses an array on the wide path from each lane's next boundary on (R136). -/
def wideLayersNext (s : State) (a : Nat) : State :=
  (layersOf s a).foldl (fun t e => laneMod t e.1 (fun l =>
    { l with wideNext := if l.wideNext.contains e.2 then l.wideNext else e.2 :: l.wideNext })) s

/-! ### The firing budget (R20, R44, R47–R50) -/

/-- Sites of one Quartz unit with an activity (R124, R57: one array a unit at a time). -/
def unitActive (s : State) (u : Nat) (p : Activity → Bool) : Bool :=
  s.sites.any (fun e => e.1 / 16 = u && p e.2.activity)

def isProgramming : Activity → Bool | .programming _ => true | _ => false
def isCalibrating : Activity → Bool | .calibrating _ _ _ => true | _ => false
def isHost : Activity → Bool | .host _ => true | _ => false
def isDiagnosing : Activity → Bool | .diagnosing _ => true | _ => false

/-- Whether a site runs continuously under the host's control: it has not reached its sweep limit, and either runs on or ends its
last sweep (R98). -/
def hostRuns (x : Site) : Bool :=
  isHost x.activity && !x.waits && decide (fld x.control.toNat 31 30 = 2) &&
    (x.halting || decide (fld x.control.toNat 15 0 = 0 ∨ x.sweepsRun < fld x.control.toNat 15 0))

/-- Converter sites that may fire at once (R20, R578). -/
def firingBudget (level : Nat) : Nat := 83886 * level / 100

/-- Phases of an array step: every sign phase of every row phase. -/
def stepPhases (a : ArrayStep) : Nat := signPhases a.mode * a.phases

/-- Whether a site fires in an array step: from its first drive to the end of its last sweep (R47). -/
def stepFires (a : ArrayStep) : Bool := decide (a.sweeps.length < stepPhases a)

/-- Whether a site fires for an array step. -/
def servingFires (x : Site) : Bool := ((x.step).map stepFires).getD false || x.nextStep.isSome

/-- Whether a site fires (R47, R99): an array step, work of its own, the start-up calibration of its slices (R82; log entry 104); a site under the
host's control only while it runs. -/
def siteFires (x : Site) : Bool :=
  servingFires x || hostRuns x || (decide (x.activity ≠ .none) && !isHost x.activity) || !x.starting.isEmpty

/-- Mean power of an array step in µW: the energy of R44 over the interval of R42 at N, where power binds first (R46; log entry
83). -/
def stepPower (mode : InputMode) (phases : Nat) : Nat :=
  signPhases mode * (3 + 9 * phases) * 1000000000 / (signPhases mode * phases * 1485000 + 130000)

/-- Mean power in µW of what a site does outside array steps, its start-up calibration if nothing else: a calibration's 0.4 µJ a round of 42 µs (R119, R124), 12 µJ a programming
operation of 1.2 ms (R58), else one sweep after the other (log entry 83). -/
def activityPower : Activity → Nat
  | .none => 5556
  | .calibrating _ _ _ => 9524
  | .programming _ => 10000
  | .diagnosing _ => 5556
  | .host _ => 5556

/-- Power in µW that a site draws: for array steps, and for its other work. -/
def sitePower (x : Site) : Nat × Nat :=
  let step := match x.nextStep, x.step with
    | some a, _ => stepPower a.mode a.phases
    | none, some a => if stepFires a then stepPower a.mode a.phases else 0
    | none, none => 0
  (step, if siteFires x && !servingFires x then activityPower x.activity else 0)

/-- Whether a plan serves: one with lanes is installed, whether or not a step is under way (R49; log entry 83). -/
def planServes (s : State) : Bool := !(planLanes s).isEmpty

/-- Whether powers drawn for array steps and for other work, in µW, are within the budget at an output level: 700 W in all (R20); while a
plan serves, 639 W of them for steps, or 61 W for the rest (R49). -/
def withinPower (serves : Bool) (level : Nat) (steps : Bool) (drawn : Nat × Nat) : Bool :=
  decide (drawn.1 + drawn.2 ≤ 7000000 * level) && (!serves || (if steps then decide (drawn.1 ≤ 6390000 * level) else decide (drawn.2 ≤ 610000 * level)))

/-- Whether a site may begin to fire beside the others, drawing `p` µW: within the firing budget in force (R20, R50, R578), at most
8 of a Quartz unit (R48). -/
def mayFire (s : State) (n p : Nat) (steps : Bool) : Bool :=
  let others := s.sites.filter (fun e => decide (e.1 ≠ n) && siteFires e.2)
  let drawn := others.foldl (fun t e => (t.1 + (sitePower e.2).1, t.2 + (sitePower e.2).2)) (if steps then (p, 0) else (0, p))
  decide (others.length < firingBudget s.thermal.appliedLevel)
    && decide ((others.filter (fun e => e.1 / 16 = n / 16)).length < 8)
    && withinPower (planServes s) s.thermal.appliedLevel steps drawn

/-- A site may begin work other than an array step. -/
def mayWork (s : State) (n : Nat) (w : Activity) : Bool := mayFire s n (activityPower w) false

/-- A site that is free for work: nothing under way, no array step, no slice of the start-up calibration of R82 outstanding. -/
def siteFree (s : State) (n : Nat) : Bool :=
  let x := siteGet s n
  decide (x.activity = .none) && x.step.isNone && x.nextStep.isNone && !x.diagnose && x.starting.isEmpty

/-! ### Work at sites -/

/-- Gain of the layer an array serves (R87), ×1 for an array that is not in the installed plan (R119). -/
def arrayGain (s : State) (a : Nat) : Fin 4 :=
  (((planLanes s).flatMap (·.layers)).find? (fun y => (layerArrays y).contains a)).elim 0 (·.gain)

/-- The spare goes to its next position (R75): 0 to 15 in turn, then it calibrates itself (17), and the rotation is complete. -/
def advanceSpare (x : Site) : Site :=
  if x.fixed then { x with swapDue := false }
  else if x.spare = 17 then { x with swapDue := false, spare := 0, rotations := (x.rotations + 1) % 65536 }
  else { x with swapDue := false, spare := if x.spare = 16 then 0 else if x.spare = 15 then 17 else x.spare + 1 }

/-- A swap that fell due while the site could not make it is made (R77, R78). -/
def settleSwap (x : Site) : Site := if x.swapDue then advanceSpare x else x

/-- The control word of a site with no work of its own: triggered mode, continuous while the start-up calibration of its slices lasts (R82). -/
def restControl (x : Site) (tier : Nat) : Word := siteControl x.delay (if x.starting.isEmpty then 1 else 2) tier

/-- Work of its own at a site ends: the site returns to triggered mode. -/
def siteIdle (s : State) (n : Nat) : State :=
  siteMod s n (fun x => settleSwap { x with activity := .none, control := restControl x (fld x.control.toNat 29 27) })

/-- A diagnosis starts with the words of its zero test (R108): continuous mode, every pair of the test DAC, Skip correction. -/
def diagnosisStarts (requested : Bool) (x : Site) : Site :=
  setDiagWords { x with activity := .diagnosing requested, diagnose := false, tested := 0, readings := {} }

/-- A diagnosis that waits for a site starts when nothing else is under way there and it may fire (R107, R20). -/
def settleDiagnosis (s : State) (n : Nat) : State :=
  let x := siteGet s n
  if x.diagnose ∧ x.activity = .none ∧ x.step.isNone ∧ x.nextStep.isNone ∧ mayWork s n (.diagnosing false) then
    siteMod s n (diagnosisStarts (s.jobs.any (fun j => j.work = .siteDiag n)))
  else s

/-- Work of its own at a site ends, and a diagnosis that waits begins. -/
def siteReleased (s : State) (n : Nat) : State := settleDiagnosis (siteIdle s n) n

/-- A site returns to the engine's own state (R111). The manual does not say what that state holds for a site no array of which serves:
triggered mode, tier 0, no DAC injection and an empty table (log entry 95). -/
def reloadSite (s : State) (n : Nat) : State :=
  settleDiagnosis (siteMod s n (fun x => settleSwap { x with
    control := restControl x 0, dac := 0, dacNow := 0, entries := List.replicate 16 0
    activity := .none, halting := false, waits := false, sweepsRun := 0, sweep := [], corrected := [] })) n

/-- The engine diagnoses a site of its own accord (R107): at once, or when the work there ends. -/
def startDiagnosis (s : State) (n : Nat) : State :=
  settleDiagnosis (siteMod s n (fun x => { x with diagnose := true })) n

/-! ### Retirement and quarantine -/

/-- Answers ARRAY_CAL_RUN when the array's state forbids it, and gives up a calibration of it under way (R141). -/
def settleCal (s : State) (a : Nat) : State :=
  let st := (arrGet s a).state
  let bad := decide (st = .quarantined) || decide (st = .retired) || decide (st = .erased)
  if !bad ∧ st ≠ .programming then s
  else
    let busy := (match (siteGet s (a / 8)).activity with | .calibrating b _ _ => decide (b = a) | _ => false)
    let s1 := if busy then siteReleased s (a / 8) else s
    finishJobs s1 (fun j => match j.work with
      | .arrayCal b _ => if b = a then some (if bad then (.invalid, parDetail 0, []) else (.busy, 0, [])) else none
      | _ => none)

/-- A build places the contents of an array again, where a plan holds it (R62, R135, R137, R301). -/
def replaceContents (s : State) (a : Nat) : State := if inSomePlan s a then forceBuild s .arrays else s

/-- Takes an array out of service for good (R62, R64, R135, R156): state 6, its staged table discarded (R140), its layers
wide from the next boundary until it is re-placed (R136), a forced build. An operation that programs it runs to its end (R611). -/
def retireArray (s : State) (a : Nat) : State :=
  replaceContents (settleCal (arrMod (wideLayersNext s a) a (fun x =>
    { x with state := .retired, staged := none, reprogram := false })) a) a

/-- Retires an array with a kind 0x04 record (R62, R156). -/
def retireReported (s : State) (a cause : Nat) : State :=
  let n := (arrGet s a).stuck.length
  report (retireArray s a) 0x04 3 (arrayUid a) (padTo 4 (leBytes 1 cause) ++ leBytes 2 n)

/-- State 5 for an array (R190, R81, R96): its staged table discarded, its layers wide, a forced build. -/
def quarantineOnly (s : State) (a : Nat) : State :=
  if (arrGet s a).state = .retired then s
  else replaceContents (settleCal (arrMod (wideLayersOf s a) a (fun x => { x with state := .quarantined, staged := none })) a) a

/-- Quarantines an array and has its site diagnosed (R107). -/
def quarantineArray (s : State) (a : Nat) : State := startDiagnosis (quarantineOnly s a) (a / 8)

/-- Quarantines the eight arrays of a site (R81, R109). -/
def quarantineSite (s : State) (n : Nat) : State :=
  (List.range 8).foldl (fun t i => quarantineOnly t (8 * n + i)) s

/-! ### Arrays that can be programmed (R63–R65, R127) -/

/-- Wear count of an array (R63): programming operations started and the erases of R600. -/
def wearOf (s : State) (a : Nat) : Nat := min 131071 ((arrGet s a).wear + s.erases)

/-- Whether an array can be programmed at all (R64, R69). -/
def programmable (a : OrArray) : Bool :=
  !a.wearLimited && decide (a.state ≠ .quarantined) && decide (a.state ≠ .retired) && decide (a.state ≠ .programming)

/-- Whether an array's owner is loaded and still holds the generation it was programmed with (R127); after a module reset or a loss of power,
once the array has been compared with the golden copy that was loaded (R366). -/
def ownerHolds (s : State) (x : OrArray) : Bool :=
  !x.unproven && s.objects.any (fun o => decide (x.ownerKind ≠ 0) && decide (ownerCode o.kind = x.ownerKind) && decide (o.handle = x.owner)
    && o.gens.any (fun g => g.number = x.generation))

/-- A free array that can be programmed (R65, R127), at a site Ezjor may assign (R111). -/
def isFree (s : State) (a : Nat) : Bool :=
  let x := arrGet s a
  programmable x && (decide (x.state = .erased) || (decide (x.state = .programmed) && !ownerHolds s x)) &&
    !isHost (siteGet s (a / 8)).activity

/-! ### What a programming operation writes (R28, R51–R55, R57, R152, R153) -/

/-- Whether an array is the low one of an 8-bit layer (R55). -/
def isLow (p : LayerPlan) (a : Nat) : Bool := p.lowArrays.any (fun e => e.2.val = a)

/-- The low array that belongs to a high one. -/
def lowOf (p : LayerPlan) (a : Nat) : Option Nat := (p.lowArrays.find? (fun e => e.1.val = a)).map (·.2.val)

/-- What part of an 8-bit weight an array of a layer holds. -/
def nibbleOf (p : LayerPlan) (a : Nat) : Nibble :=
  if isLow p a then .low else if (lowOf p a).isSome then .high else .whole

/-- Where a plan places an array: lane, array set, and the layer as that set holds it. -/
structure ArrayPlace where
  lane : Nat
  replica : Nat
  layer : LayerPlan
  deriving DecidableEq, Repr

/-- Places of an array in the plans of lanes. -/
def placesOf (ls : List LanePlan) (a : Nat) : List ArrayPlace :=
  ls.flatMap (fun l => l.layers.flatMap (fun y =>
    ((List.range (layerSets y).length).map (fun r => ({ lane := l.graph.val, replica := r, layer := onReplica y r } : ArrayPlace))).filter
      (fun e => e.layer.arrays.any (fun b => b.1.val = a))))

/-- Every place of an array: in the plan that waits, the installed plan, and the plans lanes still run. -/
def arrayPlaces (s : State) (a : Nat) : List ArrayPlace :=
  (placesOf (waitingLanes s ++ planLanes s ++ s.lanes.map (·.2.plan)) a).eraseDups

/-- Row and column block of an array in a layer. -/
def blockOf (p : LayerPlan) (a : Nat) : Nat × Nat := ((p.arrays.find? (fun e => e.1.val = a)).map (·.2)).getD (0, 0)

/-- A place of an array whose layer's golden weights an object has at hand in a generation, and those of its pairs (R51). -/
def goldenPlace (s : State) (a : Nat) (k : ObjKind) (h gen : Nat) : Option (ArrayPlace × List (List F32)) :=
  (arrayPlaces s a).findSome? (fun e =>
    (goldenAt s e.lane e.layer.node (fun k1 h1 => if k1 = k ∧ h1 = h then some gen else none)).map (fun g =>
      (e, g.pairs e.layer (blockOf e.layer a).1 (blockOf e.layer a).2)))

/-- The data pair whose weights a pair carries (R27, R153): its own, or the one a spare pair is assigned to. -/
def carried (x : OrArray) (pair : Nat) : Option Nat :=
  if pair < 512 then some pair
  else ((x.sparesPending ++ x.spares).find? (fun e => e.2 = pair)).map (·.1)

/-- Levels by pair: data pairs from their golden weights (R51–R55), reference pairs fixed (R28), spare pairs as the data pair they stand
in for (R153) or zero (R29), and what neighbour adjustment chose (R152). -/
def programLevels (x : OrArray) (p : LayerPlan) (a : Nat) (golden : List (List F32)) : List (List Int) :=
  (List.range 544).map (fun pair =>
    if 512 ≤ pair ∧ pair < 528 then (List.range 512).map (referenceWeight pair)
    else match carried x pair with
      | none => List.replicate 512 0
      | some d => (x.adjusted.filter (fun e => e.1 = pair)).foldl (fun l e => lmod l e.2.1 (fun _ => Int.ofNat e.2.2.1 - Int.ofNat e.2.2.2))
          (layerLevels (nibbleOf p a) p.sum p.phases (lgetD golden d [])))

/-- What an operation writes for a layer (R54). -/
def layerContent (x : OrArray) (p : LayerPlan) (a : Nat) (golden : List (List F32)) : ArrayContent :=
  let levels := programLevels x p a golden
  { levels := levels, levelSums := levels.map (pairLevelSums p.phases)
    scales := (List.range 512).map (fun d => layerScales (nibbleOf p a) p.sum p.phases (lgetD golden d [])) }

/-- Whether an operation writes what an array already holds (R67, R153). -/
def sameOwner (x : OrArray) (p : Programming) : Bool :=
  decide (x.ownerKind = ownerCode p.owner ∧ x.owner = p.handle ∧ x.generation = p.generation.toNat)

/-- SHA-256 of the manifest of a held generation, zero if it is not held. -/
def generationDigest (s : State) (k : ObjKind) (h gen : Nat) : BitVec 256 :=
  (((objGet s k h).bind (fun o => o.gens.find? (fun g => g.number = gen))).map (·.digest)).getD 0

/-- What an operation writes: from the golden copy of a layer that a plan places at the array; for an array in no plan, whose levels were
once made from that copy, those levels again. None while neither is there. -/
def contentFor (s : State) (p : Programming) : Option ArrayContent :=
  let a := p.array.val
  let x := arrGet s a
  match goldenPlace s a p.owner p.handle p.generation.toNat with
  | some e => some (layerContent x e.1.layer a e.2)
  | none => if sameOwner x p ∧ !x.levels.isEmpty ∧ x.source = generationDigest s p.owner p.handle p.generation.toNat then some { levels := x.levels, scales := x.scales, levelSums := x.levelSums } else none

/-! ### Programming operations (R57–R65) -/

/-- A wear count that has just been reached is reported at 90,000 (R64). -/
def reportWear (s : State) (a : Nat) : State :=
  if wearOf s a = 90000 then report s 0x05 2 (arrayUid a) (leBytes 4 90000) else s

/-- A programming operation starts (R57, R59, R63, R64): the whole array, its site occupied, the wear count raised. The table that
is active goes with the levels it was fitted to (log entry 84); other contents take none of the adjustments of R152. -/
def beginProgram (s : State) (p : Programming) : State :=
  let a := p.array.val
  let wear := min 131071 (wearOf s a + 1)
  let s0 := arrMod s a (fun x => { x with adjusted := if sameOwner x p then x.adjusted else [] })
  let s1 := arrMod s0 a (fun x => { x with
    state := .programming, wear := x.wear + 1, wearLimited := x.wearLimited || decide (100000 ≤ wear), staged := none,
    active := none, calibrated := false, retry := none, reprogram := false, programmedAt := s.powered, due := false
    program := some p, content := (contentFor s0 p).getD {}, orphaned := false, recovering := false, eraseAfter := false
    source := generationDigest s p.owner p.handle p.generation.toNat })
  reportWear (settleCal (siteMod s1 (a / 8) (fun x => { x with activity := .programming a })) a) a

/-- Whether no lane is in the middle of a step with a part at a site. -/
def siteBetweenSteps (s : State) (n : Nat) : Bool :=
  s.lanes.all (fun e => e.2.step.isNone || !(lanesArrays [e.2.plan]).any (fun a => decide (a / 8 = n)))

/-- Whether a programming operation may start at an array now (R57, R59, R20): what serves there does not change within a step (R21). -/
def mayProgram (s : State) (a : Nat) : Bool :=
  programmable (arrGet s a) && siteFree s (a / 8) && siteBetweenSteps s (a / 8) && mayWork s (a / 8) (.programming a)
    && !unitActive s (a / 128) isProgramming

/-- Starts the programming operations a waiting plan calls for, at most one array a Quartz unit at a time; an array that
is wear-limited is retired instead (R64). -/
def startPrograms (s : State) : State :=
  match s.planner.waiting with
  | none => s
  | some p =>
    p.programs.foldl (fun t g =>
      let done := fun (t : State) => { t with planner := { t.planner with waiting := (t.planner.waiting).map (fun w =>
        { w with programs := w.programs.filter (fun x => x ≠ g) }) } }
      let a := g.array.val
      if (arrGet t a).wearLimited then done (retireArray t a)
      else if isFree t a ∧ mayProgram t a ∧ (contentFor t g).isSome then done (beginProgram t g)
      else t) s

end Sys2Proof.Machine
end

