-- ==== Sys2Proof/Machine/LayerPlans.lean ====
section
/-! DEFINITION. What binds Ezjor's plan of a layer: the settings its graph declares (R158, R275, R276), what has been recorded of the
layer (R100–R102, R162, R170), and the times its correction path takes (R74, R94, R165, R167, R179, R180). -/

namespace Sys2Proof.Machine
open Sys2Proof

/-! ### Settings the graph declares -/

/-- Input mode of a value range (R275, R274). -/
def rangeMode (range : Nat) : InputMode := if range = 1 then .unsigned else if range = 2 then .offset else .signed

/-- The TOPK node that ranks a tensor. -/
def topkOver (g : GraphImage) (tensor : Nat) : Option Node :=
  g.nodes.find? (fun n => decide (n.kind = 0x0A ∧ n.input = tensor))

/-- A layer with the settings its graph gives it: input mode, outputs and their format, correction settings, which the node's word 3
replaces where it overrides them (R276), and the entries a TOPK node asks for (R231). -/
def declaredLayer (im : Bytes) (g : GraphImage) (gs : GraphSettings) (l : LayerPlan) : LayerPlan :=
  match g.nodes[layerNode l.node]? with
  | none => l
  | some n =>
    let w := leAt im (n.off + 12) 4
    let own := decide (fld w 5 5 = 1)
    let top := topkOver g n.output
    { l with
      mode := rangeMode (tensorOf g n.input).range
      perVector := if own then decide (fld w 4 4 = 1) else gs.perVector
      slots := if own then slotsOfCode (fld w 7 6) else gs.slots
      jump := if own then jumpOfField (fld w 31 24) else gs.jump
      theta := if own then thetaOfField (fld w 23 16) else gs.theta
      threshold := if own then thresholdOfField (fld w 15 8) else gs.threshold
      outputs := if n.kind = 0x01 ∨ n.kind = 0x02 ∨ n.kind = 0x09 then (tensorOf g n.weight).dim 1 else 0
      outFormat := BitVec.ofNat 8 (tensorOf g n.output).format
      topK := (top.map (fun m => m.par im 0)).getD 0
      bottomK := (top.map (fun m => decide (m.par im 1 = 1))).getD false }

/-! ### Times of the correction path, in 0.1 ps -/

/-- Times at a lane's planning corner: 0 S, 1 N, 2 F (R272). No figure of these is stated for F, and then F uses the
figure of N (R604). In order: s, the two parts of T_c, V, split passes at c = 8, 16, 24, 32 (R165, R167), the fixed part of D
(R179), a check (R187), the tier settle (R31). -/
def quartzTime (corner i : Nat) : Nat :=
  if corner = 0 then lgetD [155000, 6200000, 36250, 520000, 1450000, 2320000, 3190000, 4060000, 3200000, 34000000, 320000] i 0
  else lgetD [120000, 4800000, 28125, 400000, 1125000, 1800000, 2475000, 3150000, 2480000, 26000000, 250000] i 0

def laneCorner (s : State) (g : Nat) : Nat := ((sget s.graphs g).map (·.settings.corner)).getD 0

/-- Conversion time and fixed part of the handover (R74). -/
def conversionTime (corner : Nat) : Nat := if corner = 0 then 58000 else if corner = 1 then 45000 else 36000
def handoverTime (corner : Nat) : Nat := if corner = 0 then 132000 else if corner = 1 then 90000 else 72000

/-- Result latency L_k (R43, R94), at the largest trigger delay d, in ns, of the layer's sites (R93). -/
def latencyTime (corner : Nat) (p : LayerPlan) (phases : Nat) (spares : Bool) (d : Nat) : Nat :=
  635000 + signPhases p.mode * phases * (if spares then 34 else 33) * conversionTime corner + handoverTime corner + 10000 * d

def tailTime (corner c : Nat) : Nat := quartzTime corner 1 + quartzTime corner 2 * c
def splitTime (corner c : Nat) : Nat := quartzTime corner (3 + c / 8)

/-- Whether an array of the layer has a spare pair assigned (R41). -/
def layerSpares (s : State) (p : LayerPlan) : Bool := (layerArrays p).any (fun a => !(arrGet s a).spares.isEmpty)

/-- The largest trigger delay among the sites of a layer (R93). -/
def layerDelay (s : State) (p : LayerPlan) : Nat := (layerArrays p).foldl (fun m a => max m (siteGet s (a / 8)).delay) 0

/-- L_k of a layer of the plan. -/
def layerLatency (s : State) (corner : Nat) (p : LayerPlan) (phases : Nat) : Nat :=
  latencyTime corner p phases (layerSpares s p) (layerDelay s p)

/-- The memory-tier part of the wide time: golden bytes over the reserved rate (R179). -/
def wideRead (bytes rate : Nat) : Nat := (bytes * 10000000 + rate - 1) / rate

/-- A layer's nominal time (R165). -/
def layerNominal (s : State) (corner : Nat) (p : LayerPlan) : Nat :=
  quartzTime corner 0 + layerLatency s corner p p.phases + tailTime corner p.slots + quartzTime corner 3

/-- A layer's longest time W (R180). -/
def layerWorst (s : State) (corner : Nat) (p : LayerPlan) : Nat :=
  let rest := quartzTime corner 0 + tailTime corner p.slots + splitTime corner p.slots + quartzTime corner 3
  let one := layerLatency s corner p p.phases
  max (2 * (one + rest)) (if 8 ≤ p.phases then 0 else one + layerLatency s corner p (2 * p.phases) + rest) + p.wideTime

/-- The interval at which a layer's array steps follow one another (R89, R94): of its result latency all but the 63.5 ns before the
first sweep. -/
def layerInterval (s : State) (corner : Nat) (p : LayerPlan) (phases : Nat) : Nat := layerLatency s corner p phases - 635000

/-- Rounds a layer's array sets take, after the first, for n sequences (R181, R283). -/
def layerRounds (p : LayerPlan) (n : Nat) : Nat := (n + p.replicas.length) / (p.replicas.length + 1) - 1

/-- Time of a layer step of n sequences, nominal or worst case (R165, R180, R181): each further round of its array sets adds an interval, in the
worst case one for each attempt; the wide output is computed once for all of them (R178). The manual states the times for one sequence
and that a step holds every one of them; how they follow one another is R89 (log entry 109). -/
def layerMany (s : State) (corner : Nat) (worst : Bool) (p : LayerPlan) (n : Nat) : Nat :=
  let one := layerInterval s corner p p.phases
  if worst then layerWorst s corner p + layerRounds p n * max (2 * one) (if 8 ≤ p.phases then 0 else one + layerInterval s corner p (2 * p.phases))
  else layerNominal s corner p + layerRounds p n * one

/-! ### What has been recorded -/

/-- The steps a history looks back over (R162, R170). -/
def historySpan : Nat := 65536

def historyGet (s : State) (g node : Nat) : LayerHistory :=
  (s.histories.find? (fun h => decide (h.lane = g) && decide (h.node = node))).getD { lane := g, node := node }

def historySet (s : State) (h : LayerHistory) : State :=
  if s.histories.any (fun x => decide (x.lane = h.lane) && decide (x.node = h.node)) then
    { s with histories := s.histories.map (fun x => if x.lane = h.lane ∧ x.node = h.node then h else x) }
  else { s with histories := s.histories ++ [h] }

/-- Whether recorded step n lies in the span that ends with step `last`. -/
def inSpan (last n : Nat) : Bool := decide (last < n + historySpan)

/-- One more recorded step: its candidate channels (R162) and its drive integers by row block (R100). -/
def recordStep (h : LayerHistory) (channels : List Nat) (ints : List (List Int)) : LayerHistory :=
  let n := h.steps + 1
  let kept : Store (List Nat) := (h.candidates.map (fun e => (e.1, e.2.filter (inSpan n)))).filter (fun e => !e.2.isEmpty)
  { h with
    steps := n
    replays := h.replays.filter (fun e => inSpan n e.1)
    candidates := channels.foldl (fun c k => sput c k (n :: sgetD c k [])) kept
    tokens := (ints :: h.tokens).take historySpan }

/-- The newest recorded step was replayed under R168, at `phases` row phases (R170). -/
def recordReplay (h : LayerHistory) (phases : Nat) : LayerHistory := { h with replays := (h.steps, phases) :: h.replays }

/-! ### Charges (R100) -/

/-- Rows of a row phase. -/
def phaseSlice {α : Type} (k j : Nat) (xs : List α) : List α := (xs.drop (j * (512 / k))).take (512 / k)

/-- Dot product of levels and drive values. -/
def dotInt (a b : List Int) : Int := (List.zipWith (· * ·) a b).foldl (· + ·) 0

/-- Magnitudes of the charges of an array's data pairs in every sign phase of a drive with k row phases, in level-steps. -/
def phaseCharges (m : InputMode) (k : Nat) (levels : List (List Int)) (ints : List Int) : List Nat :=
  (List.range k).flatMap (fun j => (if m = .signed then [false, true] else [false]).flatMap (fun negative =>
    let pulses := (phaseSlice k j ints).map (fun x => Int.ofNat (pulseSteps m negative x))
    levels.map (fun l => (dotInt (phaseSlice k j l) pulses).natAbs)))

/-- The 99.9th percentile by nearest rank (log entry 76). -/
def percentile999 (l : List Nat) : Nat :=
  lgetD (l.mergeSort (fun a b => decide (a ≤ b))) ((999 * l.length + 999) / 1000 - 1) 0

/-- Q(k) of a layer (R100): over its recorded tokens and the data pairs of its arrays. -/
def chargeQ (s : State) (h : LayerHistory) (p : LayerPlan) (k : Nat) : Nat :=
  percentile999 (h.tokens.flatMap (fun t => p.arrays.flatMap (fun e =>
    phaseCharges p.mode k ((arrGet s e.1.val).levels.take 512) (lgetD t e.2.1 []))))

/-- Row phases and gain that estimates of Q(k) call for (R100). -/
def chosenPhases (q : Nat → Nat) : Nat × Fin 4 :=
  match ([1, 2, 4, 8] : List Nat).find? (fun k => decide (q k ≤ 32512)) with
  | none => (8, 0)
  | some k => (k, (([3, 2, 1] : List (Fin 4)).find? (fun g => decide (q k * 2 ^ g.val ≤ 32512))).getD 0)

/-! ### What the record asks of the next plan -/

/-- Whether some number of row phases has led to more than 64 replays (R170). -/
def replaysMany (h : LayerHistory) (phases : Nat) : Bool := decide (64 < (h.replays.filter (fun e => e.2 = phases)).length)

/-- Row phases and gain (R100–R102, R170): four and ×1 until 4,096 tokens have been recorded, then those of R100; at least twice the
phases in force where these led to more than 64 replays. Of R101 and R170 the manual does not say which goes first below 4,096 tokens: the
doubling does, and it lasts until R100 is applied or its replays are no longer counted (log entry 76). `now` is the layer as it runs, with the
levels of its arrays. -/
def recordedPhases (s : State) (h : LayerHistory) (now : LayerPlan) : Nat × Fin 4 :=
  let base : Nat × Fin 4 := if h.steps < 4096 then (if replaysMany h (now.phases / 2) then max 4 now.phases else 4, 0)
    else chosenPhases (chargeQ s h now)
  if replaysMany h now.phases then (max base.1 (min 8 (2 * now.phases)), base.2) else base

/-- Persistent marks (R162): marks whose channel is a candidate in at least 1 of 512 of the last 65,536 recorded steps stay,
channels above 1 of 64 are marked, at most c / 2 of a row block, present marks first (log entry 76). -/
def recordedMarks (h : LayerHistory) (present : List (Nat × Nat)) (slots : Nat) : List (Nat × Nat) :=
  let rate := fun (m : Nat × Nat) => (sgetD h.candidates (m.1 * 512 + m.2) []).length
  let stay := present.filter (fun m => decide (historySpan / 512 ≤ rate m))
  let fresh := (h.candidates.filter (fun e => decide (historySpan / 64 < e.2.length))).map (fun e => (e.1 / 512, e.1 % 512))
  let all := stay ++ fresh.filter (fun m => !stay.contains m)
  let blocks := (all.map (·.1)).eraseDups
  blocks.flatMap (fun b => (all.filter (fun m => m.1 = b)).take (slots / 2))

/-- The layer as the lane runs it now. -/
def layerNow (s : State) (g layer : Nat) : Option LayerPlan :=
  (sget s.lanes g).bind (fun x => x.plan.layers.find? (fun y => y.node = layer))

/-- Whether statistics may change a lane (R300): it is new, or its interval has passed since its last switch to a plan from a completed
build. -/
def mayAdapt (s : State) (g : Nat) (gs : GraphSettings) : Bool :=
  match sget s.lanes g with
  | none => true
  | some l => decide (gs.replan ≠ 0xFFFF) && decide (l.switchedAt + gs.replan * 1000000000 ≤ hostTime s)

/-- Row phases and gain a finished build gives a layer. -/
def phasesFor (s : State) (gs : GraphSettings) (g : Nat) (l : LayerPlan) : Nat × Fin 4 :=
  match layerNow s g l.node with
  | none => (4, 0)
  | some now => if mayAdapt s g gs then recordedPhases s (historyGet s g l.node) now else (now.phases, now.gain)

/-- The plan of a layer in a finished build: Ezjor's choice of arrays and rates, with what the graph declares, what the record asks for
where the lane may change, and the wide time of R179. A layer keeps its combining mode, which R300 does not list among what may change. -/
def settledLayer (s : State) (im : Bytes) (t : GraphImage) (gs : GraphSettings) (g : Nat) (l : LayerPlan) : LayerPlan :=
  let d := declaredLayer im t gs l
  let now := layerNow s g l.node
  let k := phasesFor s gs g l
  let keep := !mayAdapt s g gs
  let bytes := ((layerTensor t l.node).map (fun e => layerBytes e.1)).getD 0
  { d with
    phases := k.1, gain := k.2
    sum := (now.map (·.sum)).getD d.sum
    persistent := if keep then (now.map (·.persistent)).getD [] else recordedMarks (historyGet s g l.node) ((now.map (·.persistent)).getD []) d.slots
    inputScale := if keep then (now.map (·.inputScale)).getD d.inputScale else d.inputScale
    wideTime := wideRead bytes l.wideRate + quartzTime gs.corner 8 }

end Sys2Proof.Machine
end

