-- ==== Sys2Proof/Machine/Mesh.lean ====
section
/-! DEFINITION. The Pergola as the manual describes it: what attaches where and how far apart (R236–R239), latencies, rates and bounds
of its paths (R238, R243), which channel a router output grants (R241, R242), credits (R244), rates of the memory ports (R254). Times
are in 0.1 ns and rates in MB/s. No command shows a single flit: these are what a plan is built from (log entry 103). -/

namespace Sys2Proof.Machine
open Sys2Proof

/-! ### Attachment and distance (R236, R237, R239) -/

/-- A unit attached to the on-chip network. -/
inductive MeshUnit where
  | core (c : CoreId)
  | pavilionBank (quarter : Fin 4) (bank : Fin 256)
  | quartz (u : UnitNo)
  | site (n : SiteNo)
  | hbmPort (quarter : Fin 4) (stack : Fin 4)
  /-- A bridge from a quarter to its neighbour in the row (east or west), in the column (north or south), or to the Gatehouse. -/
  | rowBridge (quarter : Fin 4)
  | columnBridge (quarter : Fin 4)
  | gatehouseBridge (quarter : Fin 4)
  deriving DecidableEq, Repr

/-- Routers of its quarter a unit attaches to (R236): Q0 and Q2 have their row neighbour to the east, Q0 and Q1 their column neighbour to
the south (R239). -/
def MeshUnit.routers : MeshUnit → List Nat
  | .core c => match c.core with
    | .garnet n => [n.val]
    | .jet n => [96 + n.val]
    | .opal n => [n.val / 3]
  | .pavilionBank _ b => [b.val / 2]
  | .quartz u => [u.val % 4096 / 32]
  | .site n => [n.val % 65536 / 512]
  | .hbmPort _ k => [lgetD [0, 15, 112, 127] k.val 0]
  | .rowBridge q => (List.range 8).map (fun y => if q.val % 2 = 0 then 16 * y + 15 else 16 * y)
  | .columnBridge q => (List.range 16).map (fun x => if q.val < 2 then 112 + x else x)
  | .gatehouseBridge _ => (List.range 16).map (56 + ·)

/-- Hops between two routers of a quarter: along x, then along y (R237). -/
def hops (a b : Nat) : Nat := (max (a % 16) (b % 16) - min (a % 16) (b % 16)) + (max (a / 16) (b / 16) - min (a / 16) (b / 16))

/-- Quarters traffic passes from one quarter to another, the diagonal by the bridge in the row first (R239). -/
def quarterPath (a b : Nat) : List Nat := if a = b then [a] else if a ^^^ b = 3 then [a, a ^^^ 1, b] else [a, b]

/-! ### Latency, bandwidth and bounds (R238, R243) -/

/-- A path of R238. -/
inductive MeshPath where
  | ownTile
  | neighbour
  | sameQuarter (hops : Nat)
  | pavilionBank
  | hbmPort
  | adjacent
  | diagonal
  | gatehouse
  deriving DecidableEq, Repr

/-- Path of a core's access to another core's tile memory (R238). -/
def coreToCore (quarterA routerA quarterB routerB : Nat) : MeshPath :=
  if quarterA = quarterB then (if hops routerA routerB ≤ 1 then .neighbour else .sameQuarter (hops routerA routerB))
  else if quarterA ^^^ quarterB = 3 then .diagonal else .adjacent

/-- Least and greatest latency from request to first data at corner N, or at S (R238); none where the table gives none. -/
def MeshPath.latency (slow : Bool) : MeshPath → Option (Nat × Nat)
  | .ownTile => some (if slow then (155, 155) else (120, 120))
  | .neighbour => some (if slow then (258, 258) else (200, 200))
  | .sameQuarter h => some (if slow then (452 + 32 * h, 452 + 32 * h) else (350 + 25 * h, 350 + 25 * h))
  | .pavilionBank => some (if slow then (580, 1419) else (450, 1100))
  | .hbmPort => none
  | .adjacent => some (if slow then (2064, 2580) else (1600, 2000))
  | .diagonal => some (if slow then (2580, 3096) else (2000, 2400))
  | .gatehouse => some (if slow then (4515, 4515) else (3500, 3500))

/-- Greatest rate of one port or flow (R238); none where the table gives none. -/
def MeshPath.rate (slow : Bool) : MeshPath → Option Nat
  | .ownTile => none
  | .neighbour => some (if slow then 397000 else 512000)
  | .sameQuarter _ => some (if slow then 99000 else 128000)
  | .pavilionBank => some (if slow then 99000 else 128000)
  | .hbmPort => some (if slow then 99000 else 128000)
  | .adjacent => some (if slow then 49600 else 64000)
  | .diagonal => some (if slow then 49600 else 64000)
  | .gatehouse => some (if slow then 49600 else 64000)

/-- Rate of one HBM stack, whatever the corner (R238). -/
def stackRate : Nat := 2048000

/-- Rate of a bridge in each direction, between quarters or to the Gatehouse (R239). -/
def bridgeRate (slow toGatehouse : Bool) : Nat :=
  if toGatehouse then (if slow then 1550000 else 2000000) else (if slow then 6200000 else 8000000)

/-- Latency bound of a planned transfer or a VC1 packet, one resend included (R243). -/
def MeshPath.bound (slow : Bool) : MeshPath → Option Nat
  | .ownTile => none
  | .neighbour => some (if slow then 410 else 320)
  | .sameQuarter _ => some (if slow then 1420 else 1100)
  | .pavilionBank => some (if slow then 1680 else 1300)
  | .hbmPort => none
  | .adjacent => some (if slow then 3870 else 3000)
  | .diagonal => some (if slow then 3870 else 3000)
  | .gatehouse => some (if slow then 5420 else 4200)

/-- Longest delay that sending a flit again adds (R240). -/
def resendTime (slow : Bool) : Nat := if slow then 103 else 80

/-! ### Virtual channels (R241, R242, R244) -/

/-- The four channels: plan, control, remote, maintenance (R241). -/
inductive MeshChannel where
  | vc0 | vc1 | vc2 | vc3
  deriving DecidableEq, Repr

/-- Largest packet of a channel in bytes (R241). -/
def MeshChannel.packetLimit : MeshChannel → Nat
  | .vc1 => 64
  | _ => 4096

/-- Flit slots of a link that plans may reserve for VC0: 3/4 of 256 (R241, R243). -/
def vc0Slots : Nat := 192

/-- Slots of a link that some reservations hold. -/
def slotsReserved (uses : List SlotUse) (link : MeshLink) : Nat := ((uses.filter (fun u => u.link = link)).eraseDups).length

/-- Whether reservations keep within the share of VC0 on every link (R243). -/
def vc0Within (uses : List SlotUse) : Bool := uses.all (fun u => decide (slotsReserved uses u.link ≤ vc0Slots))

/-- Whether a link of a unit's router has a slot reserved. -/
def vc0Serves (uses : List SlotUse) (quarter : Nat) (u : MeshUnit) : Bool :=
  uses.any (fun x => decide (x.link.quarter.val = quarter) && u.routers.contains x.link.router.val)

/-- The channel that slot `n` of a link goes to, the first of R242 that has traffic: `used` are the grants of its last 256 slots, `plan` the
slots the installed plan reserves. -/
def grantSlot (plan : List SlotUse) (link : MeshLink) (n : Fin 256) (used : List MeshChannel) (waiting : MeshChannel → Bool) : Option MeshChannel :=
  let reserved := plan.contains ⟨link, n⟩
  let share := fun (c : MeshChannel) => decide (16 * ((used.take 256).filter (· = c)).length < 256)
  if waiting .vc1 && share .vc1 then some .vc1
  else if waiting .vc0 && reserved then some .vc0
  else if waiting .vc3 && share .vc3 then some .vc3
  else if waiting .vc2 then some .vc2
  else if waiting .vc3 then some .vc3
  else none

/-- Credits a VC2 sender holds at a receiving port once the port has granted `n` more: at most 64, one for each 64-byte line (R244). -/
def grantCredits (held n : Nat) : Nat := min 64 (held + n)

/-- A VC2 sender sends a line only against a credit, which it uses up (R244). -/
def sendLine (held : Nat) : Option Nat := if held = 0 then none else some (held - 1)

/-! ### Rates of the memory ports (R254) -/

/-- Number of 64-byte source lines that hold the elements a descriptor selects. -/
def Access.sourceLines (a : Access) : Nat :=
  (((List.range a.destRows).flatMap (fun r => (List.range (a.rowBytes / a.size)).map (fun c => a.source r c / 64))).eraseDups).length

/-- Rate at which a port of rate `r` delivers the elements of a descriptor (R254). -/
def Access.rate (a : Access) (r : Nat) : Nat :=
  if a.mode = 0 then r
  else if a.mode = 2 then r / 2
  else r * (a.destRows * a.rowBytes) / (64 * a.sourceLines)

end Sys2Proof.Machine
end

