-- ==== Sys2Proof/Machine/Builds.lean ====
section
/-! DEFINITION. What binds Ezjor's plan of a lane and of the module: stated times (R181, R286–R288, R296), the scratch map (R249,
R265–R267), windows and buffers (R234, R245–R248, R255, R256), pins (R280), array sets (R56, R220, R358), resources (R282, R284), and
the arrays a build programs (R65). -/

namespace Sys2Proof.Machine
open Sys2Proof

/-! ### Levels (R291, R296, R297) -/

/-- Level of a variant code in per cent. -/
def levelOf (code : Nat) : Nat :=
  if code = 0 then 100 else if code = 1 then 85 else if code = 2 then 70 else if code = 3 then 55
  else if code = 4 then 40 else 25

/-- The highest level at or below an output level, as its code. -/
def codeFor (level : Nat) : Nat := ((List.range 6).find? (fun c => levelOf c ≤ level)).getD 5

/-- The next epoch (R291). -/
def nextEpoch (e : Nat) : Nat := if e = 0xFFFFFFFF then 1 else e + 1

/-! ### The scratch map (R23, R249, R265–R267) -/

/-- Whether a unit is left out of placement (R262, R506); tier and sub-unit do not matter. -/
def leftOutUnit (s : State) (uid : Word) : Bool := s.planner.leftOut.any (fun x => decide (x.toNat / 2048 = uid.toNat / 2048))

/-- Bytes of plannable Pavilion memory of a quarter: banks 8 to 255 of 4 MiB but for those retired or left out (R249, R262, R506). -/
def pavilionBytes (s : State) (q : Nat) : Nat :=
  if s.planner.lostQuarters.contains q then 0
  else 4194304 * ((List.range 256).filter (fun b => decide (8 ≤ b) && !leftOutUnit s (uidOf q 6 b 0 0)
    && !s.reliability.retiredBanks.any (fun x => match x with
      | .pavilion r n => decide (r.val = q ∧ n.val = b)
      | _ => false))).length

/-- Bytes of a repair adapter: its factors in FP32, 4 MiB while it is trained (R154). -/
def adapterBytes (a : RepairAdapter) : Nat :=
  match a.trained with
  | some t => 4 * ((t.inputs ++ t.outputs).foldl (fun n v => n + v.length) 0)
  | none => 4194304

/-- The quarter whose units read a layer's rows and adapters: that of its first array. -/
def layerQuarter (p : LayerPlan) : Fin 4 :=
  match p.arrays.head? with
  | some a => ⟨a.1.val / 524288 % 4, Nat.mod_lt _ (by decide)⟩
  | none => 0

/-- The kind of a node of a lane's graph. -/
def nodeKind (s : State) (g node : Nat) : Nat :=
  (((sget s.graphs g).bind (fun x => (graphTables x.image).nodes[node]?)).map (·.kind)).getD 0

/-- First quarter of the cores that run the ADAPTER nodes of a lane (R266, R276). -/
def adapterQuarter (s : State) (l : LanePlan) : Fin 4 :=
  match l.nodes.find? (fun n => decide (nodeKind s l.graph.val n.node = 0x0C)) with
  | some n => ((List.range 4).find? (fun q => n.quarters.toNat.testBit q)).elim 0 (fun q => ⟨q % 4, Nat.mod_lt _ (by decide)⟩)
  | none => 0

/-- Adapters in use at a build: those that admitted requests of the lane hold, each generation once (R266 item 4, R369). -/
def adapterItems (s : State) (l : LanePlan) : List ScratchItem :=
  (((s.requests.filter (fun e => decide (e.2.graph = l.graph.val) && decide (e.2.state ≠ .deferred) && !e.2.ended)).filterMap
    (fun e => e.2.adapter)).eraseDups).filterMap (fun a =>
      ((objGet s .adapter a.1).bind (fun o => o.gens.find? (fun g => g.number = a.2))).map (fun g =>
        { order := 4, quarter := adapterQuarter s l, rate := l.adapterRate
          bytes := g.shards.foldl (fun n x => n + x.length) 0 }))

/-- The items that Ezjor lists: staging, ranking models, embedding caches (R266). -/
def listedItems (l : LanePlan) : List ScratchItem := l.items.filter (fun i => decide (i.order.val ∈ [2, 5, 6]))

/-- What a lane wants to keep in scratch: what Ezjor lists, the adapters in use, a repair adapter of each layer that has one, and the E4M3 copies of
persistent outlier rows with a scale per 512 elements (R163, R266). -/
def scratchWants (s : State) (l : LanePlan) : List ScratchItem :=
  listedItems l ++ adapterItems s l ++ l.layers.flatMap (fun p =>
    (s.repairAdapters.filter (fun a => decide (a.lane = l.graph.val ∧ a.node = p.node))).map (fun a =>
      { order := 1, quarter := layerQuarter p, bytes := adapterBytes a, rate := p.scratchRate, layer := p.node })
    ++ (if p.persistent.isEmpty then [] else
      [{ order := 3, quarter := layerQuarter p, rate := p.scratchRate, layer := p.node
         bytes := 516 * (p.persistent.foldl (fun n m => n + (p.arrays.filter (fun e => e.2.1 = m.1)).length) 0) }]))

/-- Room left in each quarter's Pavilion memory, and after them in the memory tier. -/
abbrev ScratchRoom := List Nat

/-- The other-quarter rate of one flow, in MB/s (R238): the figure of N stands for F (R604). -/
def quarterRate (corner : Nat) : Nat := (MeshPath.adjacent.rate (decide (corner = 0))).getD 0

/-- Where an item goes that no Pavilion memory takes (R23, R266): the memory tier; an embedding cache for which that has no room left, the
outer tier. The other items have their place there already: staging in the engine reserve (R355), the rest in their golden copies. -/
def spillItem (room : ScratchRoom) (i : ScratchItem) : ScratchRoom × ScratchItem :=
  if i.order.val ≠ 6 then (room, { i with place := .memoryTier })
  else if i.bytes ≤ lgetD room 4 0 then (lmod room 4 (fun b => b - i.bytes), { i with place := .memoryTier })
  else (room, { i with place := .outerTier })

/-- Where an item goes (R266, R267): the quarter whose cores read it, else an adjacent one if the other-quarter rate meets the reserved
rate, east or west before north or south (log entry 86), else where it spills to. -/
def placeItem (corner : Nat) (room : ScratchRoom) (i : ScratchItem) : ScratchRoom × ScratchItem :=
  let q := i.quarter.val
  let near := ([q, q ^^^ 1, q ^^^ 2] : List Nat).filter (fun c => decide (i.bytes ≤ lgetD room c 0) && decide (c = q ∨ i.rate ≤ quarterRate corner))
  match near.head? with
  | some c =>
    if h : c < 4 then (lmod room c (fun b => b - i.bytes), { i with place := .pavilion ⟨c, h⟩ }) else spillItem room i
  | none => spillItem room i

/-- Places one order of R266 for every lane; the lanes stand in the order of R284. -/
def placeOrder (corner : Nat → Nat) (o : Nat) (wants : List (Nat × List ScratchItem)) (room : ScratchRoom) :
    ScratchRoom × List (Nat × ScratchItem) :=
  wants.foldl (fun st w => (w.2.filter (fun i => i.order.val = o)).foldl (fun (t : ScratchRoom × List (Nat × ScratchItem)) i =>
    let r := placeItem (corner w.1) t.1 i
    (r.1, t.2 ++ [(w.1, r.2)])) st) (room, [])

/-- The order in which lanes are served (R284): by latency class, then by acceptance. -/
def serveOrder (s : State) (ls : List LanePlan) : List LanePlan :=
  let key := fun (l : LanePlan) => ((sget s.graphs l.graph.val).map (fun g => (g.settings.latency, g.accepted))).getD (4, 0)
  ls.mergeSort (fun a b => decide ((key a).1 < (key b).1 ∨ (key a).1 = (key b).1 ∧ (key a).2 ≤ (key b).2))

/-- The scratch map of a plan: every item of every lane in the order of R266, lanes in that of R284. -/
def scratchMap (s : State) (ls : List LanePlan) : List (Nat × ScratchItem) :=
  let wants := (serveOrder s ls).map (fun l => (l.graph.val, scratchWants s l))
  ((List.range 7).foldl (fun st o =>
    let r := placeOrder (laneCorner s) o wants st.1
    (r.1, st.2 ++ r.2)) ((List.range 4).map (pavilionBytes s) ++ [goldenRoom s - goldenUsed s], ([] : List (Nat × ScratchItem)))).2

/-- Whether a place is Pavilion memory. -/
def inPavilion : ScratchPlace → Bool | .pavilion _ => true | _ => false

/-- A lane plan with its part of the scratch map. -/
def withScratch (m : List (Nat × ScratchItem)) (l : LanePlan) : LanePlan :=
  let mine := (m.filter (fun e => e.1 = l.graph.val)).map (·.2)
  { l with
    items := mine
    layers := l.layers.map (fun p => { p with
      rowsInPavilion := mine.any (fun i => decide (i.order = 3) && decide (i.layer = p.node) && inPavilion i.place) }) }

/-- Bytes of Pavilion memory the installed plan leaves in a quarter. -/
def pavilionRoom (s : State) (q : Nat) : Nat :=
  pavilionBytes s q - ((planLanes s).flatMap (·.items)).foldl (fun n i => match i.place with
    | .pavilion r => if r.val = q then n + i.bytes else n
    | _ => n) 0

/-! ### Stated times (R181, R286, R296, R369), in 0.1 ps -/

/-- A time that follows the corner, at a level (R296). -/
def atLevel (code x : Nat) : Nat := (x * 100 + levelOf code - 1) / levelOf code

/-- Array layers of a node: one, or one an expert. -/
def nodeLayers (l : LanePlan) (node : Nat) : List LayerPlan := l.layers.filter (fun y => layerNode y.node = node)

/-- The node of a lane plan. -/
def planNode (l : LanePlan) (node : Nat) : NodePlan := (l.nodes.find? (fun x => x.node = node)).getD { node := node }

/-- Rate of one memory-tier flow at a level, in MB/s (R238, R296). -/
def flowRate (corner code : Nat) : Nat := ((MeshPath.hbmPort.rate (decide (corner = 0))).getD 0) * levelOf code / 100

/-- Flows a read of some rate is split into, at most one a core (R296). -/
def flowsFor (corner code rate cores : Nat) : Nat := max 1 (min cores ((rate + flowRate corner code - 1) / flowRate corner code))

/-- The rate a memory-tier read keeps at a level: the reserved one wherever the flows to the cores that read still carry it (R296). A read to
no core of the node goes to Quartz units, which the slower mesh does not bind (R165). -/
def carriedRate (corner code rate cores : Nat) : Nat := if cores = 0 then rate else min rate (cores * flowRate corner code)

/-- Requests a step kind computes at most: of a main step the batch, twice that on a paired module (R487). -/
def stepSlots (gs : GraphSettings) (doubled prefill : Bool) : Nat :=
  if prefill then 1 else if doubled then 2 * gs.batch else gs.batch

/-- Sequences that a layer takes in a step: the tokens of a prefill chunk, the positions of a packed step, else one a request (R181, R285,
R316). -/
def stepTokens (gs : GraphSettings) (doubled prefill : Bool) (chunk : Nat) : Nat :=
  if prefill then chunk else if gs.rowLength ≠ 0 then gs.rowLength * gs.rows else stepSlots gs doubled false

/-- Time of a layer at a level, nominal or worst case; the reading of its golden copy keeps its rate (R165, R180, R296). -/
def layerTime (s : State) (corner code cores n : Nat) (worst : Bool) (p : LayerPlan) : Nat :=
  if worst then
    let read := p.wideTime - quartzTime corner 8
    let rate := carriedRate corner code p.wideRate cores
    atLevel code (layerMany s corner true p n - read) + (if rate = p.wideRate then read else (read * p.wideRate + rate - 1) / rate)
  else atLevel code (layerMany s corner false p n)

/-- Time that reading an item of the scratch map takes of a step, from the place where it stands (R265): Pavilion memory at the reserved rate, that
of another quarter at most at the other-quarter rate, the memory tier as its flows carry it, the outer tier at the host link's rate. -/
def itemTime (corner code cores hostRate : Nat) (i : ScratchItem) : Nat :=
  if i.rate = 0 then 0
  else match i.place with
    | .pavilion q => atLevel code (wideRead i.bytes (if q = i.quarter then i.rate else min i.rate (quarterRate corner)))
    | .memoryTier => wideRead i.bytes (carriedRate corner code i.rate cores)
    | .outerTier => wideRead i.bytes (min i.rate hostRate)

/-- Bytes of an adapter at rank 64 for an ADAPTER node: its two factors in BF16 (R346, R369). -/
def rank64Bytes (t : GraphImage) (n : Node) : Nat := 128 * ((tensorOf t n.input).dim 0 + (tensorOf t n.output).dim 0)

/-- What an ADAPTER node's time holds for the adapters: every slot reads its own at rank 64 (R369). -/
def adapterTime (t : GraphImage) (corner code slots cores : Nat) (l : LanePlan) (node : Nat) : Nat :=
  match t.nodes[node]? with
  | some n => if n.kind = 0x0C then wideRead (slots * rank64Bytes t n) (carriedRate corner code l.adapterRate cores) else 0
  | none => 0

/-- What a node adds to its layers, or takes on its own: its planned time, its memory-tier reads, the items it reads, adapters. -/
def nodeExtra (t : GraphImage) (gs : GraphSettings) (doubled : Bool) (code : Nat) (worst prefill : Bool) (l : LanePlan) (node : Nat) : Nat :=
  let n := planNode l node
  let x := if prefill then n.prefill else n.main
  let own := if worst then max x.nominal x.worst else x.nominal
  atLevel code own + (if x.bytes = 0 then 0 else wideRead x.bytes (carriedRate gs.corner code x.rate n.cores.length))
    + (((l.items.filter (fun i => decide (i.order.val ∈ [2, 5, 6]) && decide (i.layer = node))).map
        (itemTime gs.corner code n.cores.length l.hostReadRate)).foldl (· + ·) 0)
    + adapterTime t gs.corner code (stepSlots gs doubled prefill) n.cores.length l node

/-- When each node of a step ends, nodes in plan order: each starts when everything it waits for has ended. -/
def pathEnds (deps : Nat → List Nat) (dur : Nat → Nat) (order : List Nat) : Store Nat :=
  order.foldl (fun t n => sput t n (dur n + ((deps n).map (fun m => sgetD t m 0)).foldl max 0)) []

/-- Length of a step: the longest path, and at least the check of every array layer, which follows its handover (R187, R286). -/
def stepTime (s : State) (t : GraphImage) (gs : GraphSettings) (doubled : Bool) (code check : Nat) (worst prefill : Bool) (l : LanePlan) : Nat :=
  let corner := gs.corner
  let n := stepTokens gs doubled prefill l.chunk
  let extra := nodeExtra t gs doubled code worst prefill l
  let deps := fun i => match t.nodes[i]? with | some x => dependsOn t.nodes t.edges i x | none => []
  let dur := fun i => extra i + ((nodeLayers l i).map (layerTime s corner code (planNode l i).cores.length n worst)).foldl max 0
  let ends := pathEnds deps dur (l.nodes.map (·.node))
  let checked := fun (e : Nat × Nat) => ((nodeLayers l e.1).map (fun p =>
    e.2 - extra e.1 - atLevel code (tailTime corner p.slots + quartzTime corner 3) + atLevel code (quartzTime corner 9))).foldl max 0
  ends.foldl (fun m e => max m (max e.2 (if check = 0 then 0 else checked e))) 0

/-- The interval of R125, in ms, at a planning corner's temperature (R5): 105 °C at S, the lowest band at N and F; at a derated level that of the 110 °C
band (R296); half of it where a site of the lane has its spare fixed. -/
def planInterval (s : State) (corner code : Nat) (l : LanePlan) : Nat :=
  let full := if code ≠ 0 then 500 else if corner = 0 then 1000 else 8000
  if (lanesArrays [l]).any (fun a => (siteGet s (a / 8)).fixed) then full / 2 else full

/-- Calibration gaps inside a step of some length in 0.1 ps, if gaps fall inside steps at all: nine a site and interval, spread over the steps of
the interval (R128; log entry 110); none in HOLD mode (R143). -/
def gapsIn (s : State) (gs : GraphSettings) (code : Nat) (l : LanePlan) (inside : Bool) (length : Nat) : Nat :=
  if gs.hold ∨ !inside then 0
  else let i := planInterval s gs.corner code l * 10000000000
    max 1 ((9 * length + i - 1) / i)

/-- The times a lane's plan states at a level, in ns rounded up (R286, R290), with the calibration gaps that fall inside a step, each of 265 µs
and the tier settle (R128). -/
def statedAt (s : State) (t : GraphImage) (gs : GraphSettings) (doubled : Bool) (check : Nat) (l : LanePlan) (code : Nat) : StatedTimes :=
  let ns := fun worst prefill =>
    let x := stepTime s t gs doubled code check worst prefill l
    (x + gapsIn s gs code l (if prefill then l.gapInPrefill else l.gapInMain) x * (2650000000 + quartzTime gs.corner 10) + 9999) / 10000
  { mainNominal := ns false false, mainWorst := ns true false
    prefillNominal := if gs.cls = 2 then ns false true else 0, prefillWorst := if gs.cls = 2 then ns true true else 0 }

/-- Times a lane's plan states at a level (R286, R296). -/
def statedTimes (l : LanePlan) (code : Nat) : StatedTimes := (l.times[code]?).getD ((l.times.head?).getD {})

/-- Whether a lane plan at full level meets the graph's declared limits (R288). -/
def meetsLimits (g : GraphSettings) (l : LanePlan) : Bool :=
  let t := statedTimes l 0
  decide (g.nominalLimit = 0 ∨ t.mainNominal ≤ g.nominalLimit) && decide (g.worstLimit = 0 ∨ t.mainWorst ≤ g.worstLimit)

/-- The plan of a lane in a finished build: Ezjor's choices within what the graph declares (R283); its times follow from the whole plan. -/
def settledLane (s : State) (gr : Graph) (l : LanePlan) : LanePlan :=
  let t := graphTables gr.image
  let g := l.graph.val
  let chunk := if gr.settings.cls ≠ 2 then 0 else if gr.settings.chunk ≠ 0 then gr.settings.chunk
    else match sget s.lanes g with
      | some x => if mayAdapt s g gr.settings then l.chunk else x.plan.chunk
      | none => l.chunk
  { l with
    layers := l.layers.map (settledLayer s gr.image t gr.settings g)
    quarters := l.nodes.foldl (fun (q : BitVec 4) (n : NodePlan) => q ||| n.quarters) 0
    chunk := chunk }

/-- A lane plan with the times it states at every level (R265, R286, R296). -/
def timedLane (s : State) (doubled : Bool) (check : Nat) (l : LanePlan) : LanePlan :=
  match sget s.graphs l.graph.val with
  | none => l
  | some gr => { l with times := (List.range 6).map (statedAt s (graphTables gr.image) gr.settings doubled check l) }

/-- The lanes of a finished build: settled, with the scratch map of them all, and the times that follow from it (R265, R286). -/
def settledLanes (s : State) (doubled : Bool) (check : Nat) (ls : List LanePlan) : List LanePlan :=
  let base := ls.map (fun l => match sget s.graphs l.graph.val with
    | some gr => settledLane s gr l
    | none => l)
  let scratch := scratchMap s base
  base.map (fun l => timedLane s doubled check (withScratch scratch l))

/-- A node's reads split as a level asks for (R296). -/
def splitReads (corner code : Nat) (n : NodePlan) : NodePlan :=
  let split := fun (t : NodeTime) => { t with flows := if t.bytes = 0 then 1 else flowsFor corner code t.rate n.cores.length }
  { n with main := split n.main, prefill := split n.prefill }

/-- A lane plan as a level runs it (R289, R296): the plan again, its memory-tier reads split for that level, its times those of all levels. -/
def variantLane (s : State) (code : Nat) (l : LanePlan) : LanePlan := { l with nodes := l.nodes.map (splitReads (laneCorner s l.graph.val) code) }

/-! ### Golden copies across the tiers (R23, R355, R357) -/

/-- Bytes of a tensor that shard i of a generation holds, from its first byte to its last. -/
def shardOverlap (g : Generation) (t : Tensor) (i : Nat) : Nat :=
  let start := (g.shards.take i).foldl (fun n x => n + x.length) 0
  let len := ((g.shards[i]?).map (·.length)).getD 0
  min (start + len) t.imageEnd - max start t.ownerOff

/-- One node's use of a shard: whether by a layer in arrays, whether in a rank lane, bytes read of it in a main step, and the quarter whose cores
read it. -/
structure ShardUse where
  arrays : Bool
  ranks : Bool
  bytes : Nat
  quarter : Nat
  deriving DecidableEq, Repr

/-- Bytes a main step reads of a node's weights in a shard that holds `overlap` bytes of them: of an EMBED table a row a slot, of an
EXPERT_LINEAR the experts its slots can choose, else all (R357). -/
def stepReads (im : Bytes) (n : Node) (w : Tensor) (slots overlap : Nat) : Nat :=
  if n.kind = 0x08 then min overlap (slots * w.rowBytes)
  else if n.kind = 0x02 then overlap * min (slots * n.par im 0) (w.dim 2) / max 1 (w.dim 2)
  else overlap

/-- What a plan's lanes read of shard i of a generation. -/
def shardUses (s : State) (ls : List LanePlan) (k : ObjKind) (h : Nat) (g : Generation) (i : Nat) : List ShardUse :=
  ls.flatMap (fun l => match sget s.graphs l.graph.val with
    | none => []
    | some gr =>
      let t := graphTables gr.image
      ((numbered t.nodes).filter (fun e => e.2.weight ≠ 0xFFFF)).filterMap (fun e =>
        let w := tensorOf t e.2.weight
        if w.ownerKind ≠ 0 ∧ ownerObject w.ownerKind = k ∧ w.owner = h ∧ 0 < shardOverlap g w i then
          some { arrays := l.layers.any (fun y => decide (layerNode y.node = e.1)), ranks := decide (gr.settings.cls = 1)
                 bytes := stepReads gr.image e.2 w gr.settings.batch (shardOverlap g w i)
                 quarter := ((List.range 4).find? (fun q => (planNode l e.1).quarters.toNat.testBit q)).getD 0 }
        else none))

/-- Place of a shard in the order of R357: its class, then the bytes read of it per main step. Every adapter counts as in use: R368 asks
for its golden copy in the memory tier before it is usable (log entry 88). -/
def tierOrder (k : ObjKind) (uses : List ShardUse) : Nat × Nat :=
  if uses.any (·.arrays) then (1, 0)
  else if uses.any (·.ranks) ∨ k = .adapter then (2, 0)
  else if k = .store then (4, 0)
  else (3, uses.foldl (fun n u => n + u.bytes) 0)

/-- The quarter whose cores read a shard most (R357), the lowest among equals. -/
def readingQuarter (uses : List ShardUse) : Nat :=
  let read := fun q => (uses.filter (fun u => u.quarter = q)).foldl (fun n u => n + u.bytes) 0
  ([1, 2, 3] : List Nat).foldl (fun m q => if read m < read q then q else m) 0

/-- A verified shard, its place in the order, the quarter it is to lie in, and the stack it lies in if it lies in the memory tier. -/
structure TierEntry where
  kind : ObjKind
  handle : Nat
  gen : Nat
  index : Nat
  length : Nat
  order : Nat × Nat
  quarter : Nat
  stack : Option Nat
  deriving DecidableEq, Repr

/-- Shards that are to lie in the memory tier, each with its stack: in the order of R357, each that fits in the room left (R355). One that lies in
the quarter that reads it most stays there. -/
def tierChosen (s : State) (room : Nat) (es : List TierEntry) : List (TierEntry × Nat) :=
  let sorted := es.mergeSort (fun a b => decide (a.order.1 < b.order.1 ∨ a.order.1 = b.order.1 ∧ b.order.2 ≤ a.order.2))
  (sorted.foldl (fun (t : Nat × List Nat × List (TierEntry × Nat)) e =>
    let at_ := match e.stack.filter (fun n => decide (n / 4 = e.quarter) && !stackLost s n) with
      | some n => some n
      | none => pickStack s t.2.1 e.quarter e.length
    match at_ with
    | none => t
    | some n => if e.length ≤ t.1 then (t.1 - e.length, lmod t.2.1 n (· + e.length), (e, n) :: t.2.2) else t)
    (room, List.replicate 16 0, [])).2.2

/-- Places golden copies for the lanes of a plan (R357): with `pull`, from the outer tier too, as a build does; without, only what no
longer fits goes to its source (R23). -/
def settleTier (pull : Bool) (s : State) (ls : List LanePlan) : State :=
  let entries := s.objects.flatMap (fun o => o.gens.flatMap (fun g =>
    ((numbered g.shards).filter (fun x => x.2.verified && (pull || x.2.inMemoryTier))).map (fun x =>
      let uses := shardUses s ls o.kind o.handle g x.1
      { kind := o.kind, handle := o.handle, gen := g.number, index := x.1, length := x.2.length, order := tierOrder o.kind uses
        quarter := if pull || !x.2.inMemoryTier then readingQuarter uses else x.2.stack / 4
        stack := if x.2.inMemoryTier then some x.2.stack else none : TierEntry })))
  let chosen := tierChosen s (goldenRoom s) entries
  { s with objects := s.objects.map (fun o => { o with gens := o.gens.map (fun g => { g with
      shards := (numbered g.shards).map (fun x =>
        let at_ := (chosen.find? (fun c => decide ((c.1.kind, c.1.handle, c.1.gen, c.1.index) = (o.kind, o.handle, g.number, x.1)))).map (·.2)
        if x.2.verified then { x.2 with inMemoryTier := at_.isSome, stack := at_.getD x.2.stack, home := at_.isSome } else x.2) }) }) }

/-! ### Nodes and pins (R233, R280, R283, R285) -/

/-- Whether a lane's nodes are those of its graph, each once and after what it waits for (R182). -/
def nodesInOrder (t : GraphImage) (l : LanePlan) : Bool :=
  let order := l.nodes.map (·.node)
  decide (order.Nodup) && decide (order.length = t.nodes.length) && (numbered order).all (fun e =>
    match t.nodes[e.2]? with
    | some n => (dependsOn t.nodes t.edges e.2 n).all (fun m => (order.take e.1).contains m)
    | none => false)

/-- Quarters a lane plan gives a node. -/
def nodeQuarters (l : LanePlan) (n : Nat) : BitVec 4 := (planNode l n).quarters

/-- Array sets of a layer that hold anything. -/
def heldSets (y : LayerPlan) : Nat := ((layerSets y).filter (fun t => !t.arrays.isEmpty)).length

/-- Whether a plan keeps a pin (R280): "at least this many array replicas" asks for array layers. -/
def keepsPin (l : LanePlan) (p : Pin) : Bool :=
  if p.kind = 0 then
    l.nodes.all (fun n => decide (p.node ≠ 0xFFFF ∧ p.node ≠ n.node) || decide (n.quarters.toNat &&& p.value % 16 = n.quarters.toNat))
  else if p.kind = 1 then decide ((nodeLayers l p.node).isEmpty = decide (p.value = 1))
  else if p.kind = 2 then decide (nodeQuarters l p.node = nodeQuarters l p.value)
  else if p.kind = 3 then decide (nodeQuarters l p.node &&& nodeQuarters l p.value = 0)
  else !(nodeLayers l p.node).isEmpty && (nodeLayers l p.node).all (fun y => decide (p.value ≤ heldSets y))

/-- Whether arrays and cores of each node lie in its quarters, and every node has one (R283, R289). -/
def nodesInQuarters (l : LanePlan) : Bool :=
  l.nodes.all (fun n => decide (n.quarters ≠ 0) && n.cores.all (fun c => n.quarters.toNat.testBit c.quarter.val)
    && (nodeLayers l n.node).all (fun y => (layerArrays y).all (fun a => n.quarters.toNat.testBit (a / 524288))))
  && l.layers.all (fun y => l.nodes.any (fun n => n.node = layerNode y.node))

/-- Whether a kind of core does the work of a node (R233, R277): the kinds that can run it, Garnet cores for the wide path of array layers too,
and the Garnet ports of EMBED. -/
def coreFits (x : Node) (layers : Bool) (c : CoreKind) : Bool :=
  (nodeCores x.kind).contains c || decide (c = .garnet) && (layers || decide (x.kind = 0x08))

/-- Whether a lane's nodes run on the kinds of core that R233 gives their work: a node with array layers has a Garnet core for its wide path
(R177), a node without them a core of its own unless memory ports run it. -/
def coresServe (t : GraphImage) (l : LanePlan) : Bool :=
  l.nodes.all (fun n => match t.nodes[n.node]? with
    | none => false
    | some x =>
      let layers := !(nodeLayers l n.node).isEmpty
      n.cores.all (fun c => coreFits x layers c.core.kind)
        && (if layers then n.cores.any (fun c => decide (c.core.kind = .garnet)) else (nodeCores x.kind).isEmpty || !n.cores.isEmpty))

/-- Whether the reads of a node's plan have a rate (R238, R369). -/
def ratesGiven (t : GraphImage) (l : LanePlan) : Bool :=
  l.nodes.all (fun n => decide (n.main.bytes = 0 ∨ 0 < n.main.rate) && decide (n.prefill.bytes = 0 ∨ 0 < n.prefill.rate))
    && (decide (0 < l.adapterRate) || t.nodes.all (fun x => decide (x.kind ≠ 0x0C)))

/-! ### Windows, buffers, transfers (R234, R243, R245–R248, R250, R255, R256) -/

/-- Whether a core may do plan work: not one of Ezjor's Jet cores (R234), not left out of placement (R262, R506). -/
def coreMayWork (s : State) (c : CoreId) : Bool :=
  (match c.core with | .jet n => decide (8 ≤ n.val) | _ => true) && !s.planner.leftOut.contains (coreUid c 0)
    && !s.planner.lostQuarters.contains c.quarter.val

/-- Whether a window lies in the plannable space of its core (R245, R255), opens at least once a step, and each time with another tag (R256). -/
def windowFits (w : PlanWindow) : Bool :=
  decide (128 ≤ w.base) && decide (1 ≤ w.lines) && decide (w.base + w.lines ≤ w.owner.core.lines) && decide (w.stride ≠ 0)
    && !w.spans.isEmpty && decide (w.readers.length ≤ 255) && decide (w.readers.Nodup)

/-- Whether two windows of a core keep apart (R255). -/
def windowsApart (a b : PlanWindow) : Bool :=
  decide (a.owner ≠ b.owner) || (decide (a.slot ≠ b.slot) && decide (a.base + a.lines ≤ b.base ∨ b.base + b.lines ≤ a.base))

/-- Whether the other buffer of a streamed operand is a window of the same size that names this one (R246). -/
def buffersMatch (ws : List PlanWindow) (w : PlanWindow) : Bool :=
  match w.other with
  | none => decide (w.spans.length = 1)
  | some k => ws.any (fun v => decide (v.owner = w.owner ∧ v.slot = k ∧ v.lines = w.lines ∧ v.other = some w.slot ∧ v.slot ≠ w.slot))

/-- Whether the windows of a lane keep the rules of windows and buffers, each at a core of the node it serves. -/
def windowsAllowed (s : State) (l : LanePlan) : Bool :=
  l.windows.all (fun w => coreMayWork s w.owner && windowFits w && buffersMatch l.windows w && (planNode l w.node).cores.contains w.owner)
    && decide (l.windows.Pairwise (fun a b => windowsApart a b = true))
    && l.nodes.all (fun n => n.cores.all (coreMayWork s))

/-- The unit of a number. -/
def unitOf (u : Nat) : MeshUnit := .quartz ⟨u % 16384, Nat.mod_lt _ (by decide)⟩

/-- Whether a lane's plan reserves VC0 slots for its transfers (R243): into every window that no VC2 sender fills, and between the units of a
layer that stands in several. Which links a transfer takes the model leaves to Ezjor: it asks for a slot at the receiving router (log entry
111). -/
def transfersReserved (l : LanePlan) : Bool :=
  vc0Within l.vc0
    && l.windows.all (fun w => w.vc2 || vc0Serves l.vc0 w.owner.quarter.val (.core w.owner))
    && l.layers.all (fun y =>
      let units := ((layerArrays y).map (· / 128)).eraseDups
      decide (units.length ≤ 1) || units.all (fun u => vc0Serves l.vc0 (u / 4096) (unitOf u)))

/-- Whether the access-pattern descriptors of a lane's plan are well formed and belong to its nodes, that of every COPY node among them (R250,
R253, R277, R289). -/
def descriptorsAllowed (im : Bytes) (t : GraphImage) (l : LanePlan) : Bool :=
  l.descriptors.all (fun d => decide (d.2.length = 16) && (firstBad (accessChecks d.2 0)).isNone && l.nodes.any (fun n => n.node = d.1))
    && (numbered t.nodes).all (fun e => decide (e.2.kind ≠ 0x0D) || l.descriptors.contains (e.1, slice im e.2.parOff 16))

/-! ### Array sets (R19, R55, R56, R111, R220, R262, R358) -/

/-- Whether every golden weight of a layer lies in the memory tier, in every generation held (R358). -/
def goldenNear (s : State) (t : GraphImage) (y : LayerPlan) : Bool :=
  match layerTensor t y.node with
  | none => false
  | some e => match objGet s (ownerObject e.1.ownerKind) e.1.owner with
    | some o => !o.gens.isEmpty && (o.gens.filter (fun g => decide (g.state ≠ 1) || g.shards.all (·.verified))).all (fun g =>
        (numbered g.shards).all (fun x => x.2.inMemoryTier || (!x.2.verified && x.2.home) || decide (shardOverlap g e.1 x.1 = 0)))
    | none => false

/-- Whether the low array of each high one stands for the same block, on another site of the same Quartz unit (R55, R56). -/
def nibblesApart (t : ArraySet) : Bool :=
  t.lowArrays.all (fun e => decide (e.1.val / 8 ≠ e.2.val / 8) && decide (e.1.val / 128 = e.2.val / 128)
    && t.arrays.any (fun a => decide (a.1 = e.1) && t.arrays.any (fun b => decide (b.1 = e.2 ∧ b.2 = a.2))))

/-- Whether a site may be planned: not under the host's control (R111), neither it nor its Quartz unit left out (R262), its quarter not lost. -/
def sitePlannable (s : State) (n : Nat) : Bool :=
  !isHost (siteGet s n).activity && !leftOutUnit s (siteUid n 0) && !leftOutUnit s (arrayUid (8 * n))
    && !leftOutUnit s (uidOf (n / 65536) 2 (n / 16 % 4096) 0 0) && !s.planner.lostQuarters.contains (n / 65536)

/-- Whether an array can serve a plan once it has been programmed and calibrated: one the build programs, or one whose owner still
holds its contents. -/
def arrayUsable (s : State) (programs : List Programming) (a : Nat) : Bool :=
  let x := arrGet s a
  (programs.any (fun g => g.array.val = a) || (ownerHolds s x && decide (x.state ≠ .quarantined) && decide (x.state ≠ .retired)))
    && sitePlannable s (a / 8)

/-- Whether a layer's arrays keep the rules (R19, R38, R56, R101, R220, R358). In SEPARATE mode the row phases decide what each array holds,
so that Ezjor's own must be those of R100 and R101. -/
def layerAllowed (s : State) (t : GraphImage) (gs : GraphSettings) (g : Nat) (programs : List Programming) (given y : LayerPlan) : Bool :=
  let width := if y.sum then 512 else 512 / y.phases
  decide (0 < y.wideRate) && (layerSets y).all nibblesApart && (layerArrays y).all (arrayUsable s programs)
    && (y.sum || decide ((given.phases, given.gain) = phasesFor s gs g given))
    && goldenNear s t y
    && (match layerTensor t y.node with | some e => decide ((e.1.dim 0 + width - 1) / width ≤ 4096) | none => false)

/-! ### Resources (R282, R284) -/

/-- Quartz units and cores of a lane plan. -/
def laneUnits (l : LanePlan) : List Nat := (l.layers.flatMap (fun y => (layerArrays y).map (· / 128))).eraseDups
def laneCores (l : LanePlan) : List Nat := ((l.nodes.flatMap (·.cores) ++ l.windows.map (·.owner)).map coreKey).eraseDups

/-- Whether two lanes share no site, Quartz unit, core, window or reserved VC0 slot (R282). -/
def lanesApart (a b : LanePlan) : Bool :=
  !(laneUnits a).any (fun u => (laneUnits b).contains u) && !(laneCores a).any (fun c => (laneCores b).contains c)
    && !a.vc0.any (fun u => b.vc0.contains u)

/-- Faults after which a lane may miss its limits (R302). -/
def faultCause : BuildCause → Bool
  | .arrays => true | .quarter => true | .stack => true | .hbmRegion => true | .bank => true | .planDigest => true
  | .hostLink => true | _ => false

/-- Latency class of a lane plan's graph. -/
def planClass (s : State) (l : LanePlan) : Nat := ((sget s.graphs l.graph.val).map (·.settings.latency)).getD 0

/-! ### What may change in a build (R284, R300, R301) -/

/-- A node plan but for how its reads are split, which follows from the level. -/
def unsplit (n : NodePlan) : NodePlan := { n with main := { n.main with flows := 1 }, prefill := { n.prefill with flows := 1 } }

/-- Whether two lane plans place nodes and arrays alike. -/
def samePlacement (a b : LanePlan) : Bool :=
  decide (a.nodes.map (fun n => (n.node, n.quarters, n.cores)) = b.nodes.map (fun n => (n.node, n.quarters, n.cores)))
    && decide (a.layers.map (·.node) = b.layers.map (·.node)) && decide (a.layers.map layerSets = b.layers.map layerSets)

/-- Whether two lane plans are alike in all Ezjor chooses for a lane whose placement stands: schedule, times, rates, items. -/
def sameSchedule (a b : LanePlan) : Bool :=
  decide (a.nodes.map unsplit = b.nodes.map unsplit) && decide (a.windows = b.windows) && decide (a.vc0 = b.vc0)
    && decide (a.descriptors = b.descriptors) && decide (a.gapInMain = b.gapInMain) && decide (a.gapInPrefill = b.gapInPrefill)
    && decide (a.layers.map (fun y => (y.wideRate, y.scratchRate)) = b.layers.map (fun y => (y.wideRate, y.scratchRate)))
    && decide (a.hostReadRate = b.hostReadRate) && decide (a.adapterRate = b.adapterRate)
    && decide ((listedItems a).map (fun i => { i with place := .memoryTier }) = (listedItems b).map (fun i => { i with place := .memoryTier }))

/-- Whether a build has moved a golden copy of an object that a lane's graph names between the tiers. -/
def goldenMoved (old s : State) (g : Nat) : Bool :=
  (((sget s.graphs g).map (·.settings.owners)).getD []).any (fun o =>
    decide (((objGet old o.1 o.2).map (fun x => x.gens.map (fun y => y.shards.map (·.inMemoryTier))))
      ≠ ((objGet s o.1 o.2).map (fun x => x.gens.map (fun y => y.shards.map (·.inMemoryTier))))))

/-- Whether an object that a lane's graph names is being replaced, or arrays of the lane have lost what they held. -/
def objectsTouch (s : State) (g : Nat) (l : LanePlan) : Bool :=
  (((sget s.graphs g).map (·.settings.owners)).getD []).any (fun o => match objGet s o.1 o.2 with
    | some x => decide (2 ≤ x.gens.length) || x.gens.any (fun y => decide (y.state ≠ 3))
    | none => true)
  || (lanesArrays [l]).any (fun a => !ownerHolds s (arrGet s a))

/-- Whether a cause of a forced build asks for a change in an installed lane (R301): `new` are the lanes the build adds. -/
def causeTouches (old s : State) (new : List LanePlan) (g : Nat) (l : LanePlan) : BuildCause → Bool
  | .graphs => new.any (fun n => decide (planClass s n ≤ planClass s l))
  | .objects => objectsTouch s g l || goldenMoved old s g
  | .arrays => (lanesArrays [l]).any (fun a => !arrayUsable s [] a)
  | .quarter => (List.range 4).any (fun q => s.planner.lostQuarters.contains q && l.quarters.toNat.testBit q) || goldenMoved old s g
  | .stack => goldenMoved old s g
  | .hbmRegion => goldenMoved old s g
  | .adapterSpace => goldenMoved old s g
  | .hostLink => decide (0 < l.hostReadRate)
  | .bank => l.items.any (fun i => inPavilion i.place) || (l.nodes.flatMap (·.cores)).any (fun c => !coreMayWork s c)
  | .checkFraction => false
  | .pair => true
  | .planDigest => true

/-- Whether an installed lane keeps what a build may not change in it (R284, R300, R301): all of it where neither its interval has passed nor a
cause asks for a change; where only arrays have gone, the sets of the layers that have lost none; where the placement stands, the
schedule. -/
def laneKept (old s : State) (causes : List BuildCause) (new : List LanePlan) (g : Nat) (now l : LanePlan) : Bool :=
  let adapts := ((sget s.graphs g).map (fun gr => mayAdapt s g gr.settings)).getD true
  let touching := causes.filter (causeTouches old s new g now)
  let layersStand := now.layers.all (fun y => (layerArrays y).any (fun a => !arrayUsable s [] a)
    || l.layers.any (fun z => decide (z.node = y.node) && decide (layerSets z = layerSets y)))
  if !touching.isEmpty then (adapts || touching.any (fun c => decide (c ≠ .arrays)) || layersStand)
  else (adapts || samePlacement l now) && (!samePlacement l now || sameSchedule l now)

/-- Whether a lane is one whose limits a fault among the causes may cost it (R302). -/
def faultTouches (old s : State) (causes : List BuildCause) (g : Nat) (l : LanePlan) : Bool :=
  causes.any (fun c => faultCause c && causeTouches old s [] g l c)

/-- Whether a build takes resources only as R284 lets it: a new lane uses nothing of an installed lane of a lower-numbered class, nor of one that
misses its limits; every installed lane that met its limits still meets them, but for one that a fault has touched. -/
def takesFairly (old s : State) (causes : List BuildCause) (ls : List LanePlan) : Bool :=
  let new := ls.filter (fun l => !shas s.lanes l.graph.val)
  s.lanes.all (fun e =>
    new.all (fun n => (decide (planClass s n ≤ planClass s e.2.plan) && !e.2.limitsMissed) || lanesApart n e.2.plan)
    && (e.2.limitsMissed || faultTouches old s causes e.1 e.2.plan || (match ls.find? (fun l => l.graph.val = e.1), sget s.graphs e.1 with
      | some l, some gr => meetsLimits gr.settings l
      | _, _ => true)))

/-! ### What a build programs (R65) -/

/-- The lane and layer that an array of a build serves, and the array it forms an 8-bit pair with. -/
def programUse (ls : List LanePlan) (a : Nat) : Option (LanePlan × LayerPlan × Option Nat) :=
  ls.findSome? (fun l => l.layers.findSome? (fun y =>
    if (layerArrays y).contains a then
      some (l, y, (layerSets y).findSome? (fun t => t.lowArrays.findSome? (fun e =>
        if e.1.val = a then some e.2.val else if e.2.val = a then some e.1.val else none)))
    else none))

/-- Whether a free array could take the place of one that a build programs (R56, R65, R280, R282): in a quarter in which the plan runs the node, at a
site that may be planned, in a Quartz unit that no other lane uses; of an 8-bit pair in the unit of its partner, at another site. -/
def eligible (s : State) (ls : List LanePlan) (use : LanePlan × LayerPlan × Option Nat) (e : Nat) : Bool :=
  let (l, y, partner) := use
  (nodeQuarters l (layerNode y.node)).toNat.testBit (e / 524288) && sitePlannable s (e / 8)
    && !ls.any (fun m => decide (m.graph ≠ l.graph) && (laneUnits m).contains (e / 128))
    && (match partner with | some b => decide (e / 128 = b / 128 ∧ e / 8 ≠ b / 8) | none => true)

/-- How many arrays the model does not list could take that place: erased, their wear that of R600 alone. -/
def unlistedEligible (s : State) (ls : List LanePlan) (use : LanePlan × LayerPlan × Option Nat) : Nat :=
  let (l, y, partner) := use
  let known := ((s.arrays.map (·.1) ++ lanesArrays ls).eraseDups.filter (eligible s ls use)).length
  let barred := (s.sites.filter (fun e => !sitePlannable s e.1)).length * 8
  match partner with
  | some _ => 120 - known - barred
  | none =>
    let quarters := (List.range 4).filter (fun q => (nodeQuarters l (layerNode y.node)).toNat.testBit q && !s.planner.lostQuarters.contains q)
    let others := ((ls.filter (fun m => decide (m.graph ≠ l.graph))).flatMap laneUnits).eraseDups.filter (fun u => quarters.contains (u / 4096))
    524288 * quarters.length - 128 * others.length - 2048 * s.planner.leftOut.length - known - barred

/-- Whether every array a build programs is free and serves a lane of it, and no array that could take its place and is left alone has a lower wear
count (R65). -/
def leastWorn (s : State) (ls : List LanePlan) (programs : List Programming) : Bool :=
  let chosen := programs.map (·.array.val)
  programs.all (fun p =>
    let a := p.array.val
    match programUse ls a with
    | none => false
    | some use => isFree s a
      && s.arrays.all (fun e => chosen.contains e.1 || !isFree s e.1 || decide (wearOf s a ≤ wearOf s e.1) || !eligible s ls use e.1)
      && (decide (wearOf s a ≤ min 131071 s.erases) || decide (unlistedEligible s ls use = 0)))

/-! ### The whole build -/

/-- Whether a lane plan keeps every rule that concerns it alone; `given` is what Ezjor handed over. -/
def laneAllowed (s : State) (programs : List Programming) (given l : LanePlan) : Bool :=
  match sget s.graphs l.graph.val with
  | none => false
  | some gr =>
    let t := graphTables gr.image
    nodesInOrder t l && nodesInQuarters l && coresServe t l && ratesGiven t l && t.pins.all (keepsPin l) && windowsAllowed s l
      && transfersReserved l && descriptorsAllowed gr.image t l
      && (List.zip given.layers l.layers).all (fun e => layerAllowed s t gr.settings l.graph.val programs e.1 e.2)

/-- Whether a finished build is one Ezjor can hand over: lanes `given`, settled as `ls`; every installed lane but those the build removes has a plan
in it. A BUILD_COMPLETE with any other reports what Ezjor never does (log entry 7). `old` is the state before golden copies moved. -/
def buildAllowed (old s : State) (causes : List BuildCause) (removes : List Nat) (programs : List Programming) (given ls : List LanePlan) : Bool :=
  (List.zip given ls).all (fun e => laneAllowed s programs e.1 e.2)
    && decide ((ls.map (·.graph)).Nodup) && decide ((lanesArrays ls).Nodup) && decide ((programs.map (·.array)).Nodup)
    && decide (ls.Pairwise (fun a b => lanesApart a b = true)) && vc0Within (ls.flatMap (·.vc0))
    && s.lanes.all (fun e => removes.contains e.1 || (match ls.find? (fun l => l.graph.val = e.1) with
      | some l => laneKept old s causes (ls.filter (fun x => !shas s.lanes x.graph.val)) e.1 e.2.plan l
      | none => false))
    && takesFairly old s causes ls && leastWorn s ls programs

end Sys2Proof.Machine
end

