-- ==== Sys2Proof/Machine/Planner.lean ====
section
/-! DEFINITION. Graphs, builds and plans (R268–R302, R462): submissions and retirements, forced and adaptive builds, plans
that become ready, lanes that switch, derated variants. -/

namespace Sys2Proof.Machine
open Sys2Proof

/-! ### Submitting and retiring (R268–R271) -/

/-- Submissions not yet answered, in order of arrival. -/
def submissionJobs (s : State) : List Job := s.jobs.filter (fun j => match j.work with | .graphSubmit _ _ => true | _ => false)

/-- Submissions the running build has taken: the first of them. -/
def takenSubmissions (s : State) : List Job := (submissionJobs s).take (((s.planner.build).map (·.submissions)).getD 0)

/-- Submissions that wait for a build (R270): those that arrived after the running one started. -/
def waitingSubmissions (s : State) : List Job := (submissionJobs s).drop (((s.planner.build).map (·.submissions)).getD 0)

def bodyGraphSubmit (c : Ctx) (s : State) : State :=
  if 16 ≤ (waitingSubmissions s).length then replySt c s .busy
  else if !c.data.readable then replySt c s .notFound
  else forceBuild (startJob c s (.graphSubmit (padTo (min (c.par 8 4) 16777216) c.data.first) (c.par 8 4))) .graphs

def bodyGraphRetire (c : Ctx) (s : State) : State :=
  match sget s.graphs (c.par 0 1) with
  | none => replySt c s .notFound
  | some g =>
    if g.fn ≠ c.fn ∨ g.retiring then replySt c s .notFound
    else
      let s1 := { s with graphs := smod s.graphs (c.par 0 1) (fun x => { x with retiring := true }) }
      forceBuild (startJob c s1 (.graphRetire (c.par 0 1))) .graphs

/-- One plan report record (R290). -/
def planRecord (s : State) (g : Nat) (l : Lane) : Bytes :=
  match sget s.graphs g with
  | none => []
  | some gr =>
    let t := statedTimes l.plan l.level
    let batch := if l.doubled then 2 * gr.settings.batch else gr.settings.batch
    wordBytes
      [ packW [(26, 6, g), (24, 2, gr.settings.cls), (22, 2, gr.settings.latency), (20, 2, gr.settings.corner),
          (19, 1, boolBit l.limitsMissed), (18, 1, boolBit gr.settings.hold), (15, 3, l.level),
          (11, 4, l.plan.quarters.toNat), (0, 11, batch - 1)],
        l.epoch, t.mainNominal, t.mainWorst, t.prefillNominal, t.prefillWorst, l.plan.chunk, l.switchWait ]

def bodyPlanRead (c : Ctx) (s : State) : State :=
  replyBuffer c s 0 (s.lanes.flatMap (fun e => planRecord s e.1 e.2))

/-! ### Builds (R270, R300, R301) -/

/-- A retiring graph that no open request names any longer (R271). -/
def removable (s : State) (g : Nat) (x : Graph) : Bool := x.retiring && !s.requests.any (fun e => e.2.graph = g)

/-- Graphs whose lanes the first build from now on removes (R271). -/
def removableGraphs (s : State) : List Nat := (s.graphs.filter (fun e => removable s e.1 e.2)).map (·.1)

/-- Whether a cause of R301 stands; a removal that a waiting plan carries is none. -/
def causeStands (s : State) (c : BuildCause) : Bool :=
  s.planner.queued.contains c || (decide (c = .graphs) &&
    (removableGraphs s).any (fun g => !(((s.planner.waiting).map (·.removes)).getD []).contains g))

/-- A build starts, taking every cause and submission that waits, and the retired graphs whose last request has ended. -/
def startBuild (s : State) (extra : List BuildCause) : State :=
  let b : Build := { startedAt := hostTime s, begunAt := s.now, causes := extra ++ s.planner.queued
                     submissions := (waitingSubmissions s).length, removes := removableGraphs s }
  { s with planner := { s.planner with build := some b, queued := [] } }

/-- Whether Ezjor can build: it runs on Jet cores of the quarters (R234), which are off in Dormant. -/
def canBuild (s : State) : Bool := isRunning s && s.planner.build.isNone && decide (s.power.state ≠ .dormant)

/-- BUILD_START (R301). -/
def buildStarts (c : BuildCause) (s : State) : State :=
  if canBuild s ∧ causeStands s c then startBuild s (if s.planner.queued.contains c then [] else [c]) else s

/-- REPLAN_INTERVAL (R300): an adaptive build, no earlier than the lane's interval after its last switch; none at 0xFFFF. -/
def replanStarts (g : Nat) (s : State) : State :=
  match sget s.lanes g, sget s.graphs g with
  | some l, some gr =>
    if canBuild s ∧ gr.settings.replan ≠ 0xFFFF ∧ l.switchedAt + gr.settings.replan * 1000000000 ≤ hostTime s then
      startBuild s []
    else s
  | _, _ => s

/-- The check fraction a build's plan carries (R183). -/
def buildCheck (s : State) : Nat := (s.planner.wantCheck).getD s.planner.checkCode

/-- What the engine keeps of an accepted graph. -/
def acceptedGraph (fn order : Nat) (im : Bytes) : Graph :=
  { fn := fn, image := im, settings := graphSettings im, digest := sha256 im, accepted := order }

/-- Lane plans settled together as one plan, once golden copies lie as they need them (R265, R283, R286, R357). -/
def settledPlan (s : State) (ls : List LanePlan) : List LanePlan :=
  settledLanes (settleTier true s ls) (pairHalves s || s.pair.building) (buildCheck s) ls

/-- Offset of the first tensor descriptor whose golden weights are not what it says they are (R206, R211; log entry 80). -/
def badWeights (s : State) (g : GraphImage) : Option Nat := (g.tensors.find? (fun t => (tensorFault s t).isSome)).map (fun t => t.off + 2)

/-- The refusal a submission meets at its build (R269, R274, R306, R330, R288), none if it is accepted; `fits` tells whether a plan meets its
pins and limits beside the other lanes. -/
def submissionRefusal (s : State) (im : Bytes) (len : Nat) (fits : Bool) : Option (Status × Nat) :=
  match graphInvalid im len with
  | some o => some (.invalid, imageDetail o)
  | none =>
    let g := graphTables im
    if (graphOwners im g).any (fun o => !objLoaded s o.1 o.2) then some (.notFound, 0)
    else if (cachedNodes im g).any (fun n => s.graphs.any (fun e =>
        (cachedNodes e.2.image (graphTables e.2.image)).any (fun m => m.2.1 = n.2.1))) then some (.notFound, 0)
    else match (keyTooNarrow im g (fun h => (((objGet s .model h).bind currentGen).map (·.keyWidth)).getD 0)).or (badWeights s g) with
      | some o => some (.invalid, imageDetail o)
      | none => if fits then none else some (.refusedCapacity, 0)

/-- One submission of a finished build: refused and answered, or accepted under a free handle, its lane's plan kept; `base` are the plans of the
other lanes. -/
def placeSubmission (base : List LanePlan) (st : State × List LanePlan) (jp : Job × Placement) : State × List LanePlan :=
  let (s, lanes) := st
  let (j, p) := jp
  match j.work with
  | .graphSubmit im len =>
    let rest := { s with jobs := s.jobs.erase j }
    let free := firstFree s.graphs 0 64
    let h : LaneId := Fin.ofNat 64 (free.getD 0)
    let gr := acceptedGraph j.origin.fn s.nextOrder im
    let plan := { p.plan with graph := h }
    let taken : State := { rest with
      graphs := sput rest.graphs h.val gr, jobs := rest.jobs ++ [{ j with work := .graphReady h.val }], nextOrder := s.nextOrder + 1 }
    let fits := p.found && free.isSome &&
      ((settledPlan taken (base ++ lanes ++ [plan])).find? (fun l => l.graph = h)).any (meetsLimits gr.settings)
    match submissionRefusal s im len fits with
    | some (x, d) => (replyTo rest j.origin x d [], lanes)
    | none => (taken, lanes ++ [plan])
  | _ => st

/-! ### Readiness and switching (R292, R293) -/

/-- Whether a site can serve: nothing programs there (R60), no continuous run of a diagnosis or of the host (R99, R111), no slice of
its start-up calibration outstanding (R82). -/
def siteServes (x : Site) : Bool :=
  !isProgramming x.activity && !isHost x.activity && x.starting.isEmpty &&
    (match x.activity with | .diagnosing _ => false | _ => true)

/-- Whether an array can serve a plan: programmed, verified since the last reset (R68), with a table from a calibration that converged
after its programming (R292, R140). -/
def arrayReady (s : State) (a : Nat) : Bool :=
  let x := arrGet s a
  x.active.isSome && x.calibrated && x.verified && x.program.isNone
    && decide (x.state = .programmed ∨ x.state = .serving ∨ x.state = .calibrating) && siteServes (siteGet s (a / 8))

/-- Quarters that hold a part of a plan. -/
def planQuarters (s : State) : List Nat := (List.range 4).filter (fun q => !s.planner.lostQuarters.contains q)

/-- A built plan is ready (R292): stored, every array it serves from programmed and calibrated, no site it needs being programmed. -/
def planIsReady (s : State) (p : Plan) : Bool :=
  p.master && (planQuarters s).all (fun q => p.parts.contains q) && p.programs.isEmpty && (lanesArrays p.lanes).all (arrayReady s)

/-- Whether an array serves: in the installed plan, or in the plan a lane still runs (R21). -/
def inService (s : State) (a : Nat) : Bool := inPlan s a || !(layersOf s a).isEmpty

/-- The state an array is in when nothing occupies it (R69). -/
def restState (s : State) (a : Nat) : ArrayState := if inService s a then .serving else .programmed

/-- Arrays enter and leave service (R69): of those nothing else occupies, the ones a plan uses serve. -/
def settleServing (s : State) : State :=
  { s with arrays := smapAll s.arrays (fun a x =>
      if x.state = .programmed ∨ x.state = .serving then { x with state := restState s a, everServed := x.everServed || inService s a } else x) }

/-- Arrays of a lane's plan. -/
def laneArrays (l : Lane) : List Nat := (lanesArrays [l.plan]).eraseDups

/-- One array step in how many is checked (R184), none for the fraction 0. -/
def checkPeriod (code : Nat) : Option Nat :=
  if code = 1 then some 256 else if code = 2 then some 64 else if code = 3 then some 16 else if code = 4 then some 4 else none

/-- The chosen array steps of a lane's arrays under a new plan, spread over the period (R184; log entry 87). -/
def spreadChecks (s : State) (code : Nat) (arrays : List Nat) : State :=
  match checkPeriod code with
  | none => s
  | some n => (numbered arrays).foldl (fun t e => arrMod t e.2 (fun x => { x with sinceCheck := e.1 % n })) s

/-- Generations a lane runs from a switch on (R364): the newest of each object that is not loading. -/
def laneGenerations (s : State) (g : Nat) : List (ObjKind × Nat × Nat) :=
  (((sget s.graphs g).map (·.settings.owners)).getD []).filterMap (fun o =>
    ((objGet s o.1 o.2).bind currentGen).map (fun x => (o.1, o.2, x.number)))

/-- Layers of a lane that run on the wide path until a repair adapter takes effect, under a new plan too (R155). -/
def adapterLayers (s : State) (g : Nat) : List Nat := (s.repairAdapters.filter (fun a => decide (a.lane = g) && a.wide && !a.inEffect)).map (·.node)

def adapterAwaited (s : State) (g node : Nat) : Bool := (adapterLayers s g).contains node

/-- A staged table becomes active (R138): the time and the epoch are set, τ returns to 1.0 (R130), spare pairs that were programmed and
calibrated take effect (R29, R153), and a withdrawn array serves again (R132). -/
def activateTable (s : State) (a : Nat) : State :=
  arrMod s a (fun x => match x.staged with
    | none => x
    | some t =>
      let now := x.sparesPending.filter (fun e => x.sparesWritten.contains e)
      { x with
        active := some t, staged := none, tau := 32768, tracking := [], withdrawn := false, due := false
        tableEpoch := (x.tableEpoch + 1) % 65536, activatedAt := hostTime s
        spares := x.spares.filter (fun e => !now.any (fun n => n.1 = e.1)) ++ now
        sparesPending := x.sparesPending.filter (fun e => !now.contains e), sparesWritten := [] })

/-- Layers of a plan with an array that has failed since the plan became ready: wide until the next plan (R136). -/
def failedLayers (s : State) (p : LanePlan) : List Nat :=
  (p.layers.filter (fun y => (layerArrays y).any (fun a =>
    decide ((arrGet s a).state = .retired) || decide ((arrGet s a).state = .quarantined)))).map (·.node)

/-- Lanes protected in a pair (R488, R569): the partner holds a lane of the same image and generations, and neither module
is Dormant. -/
def protectLanes (s : State) : State :=
  let held := ((s.pair.partner).map (·.lanes)).getD []
  let both := decide (s.pair.phase = .paired ∨ s.pair.phase = .partitioned) && !s.pair.partnerDormant
    && decide (s.power.state ≠ .dormant)
  let same := fun g => ((sget s.graphs g).map (fun x => held.contains x.digest)).getD false
  { s with lanes := smapAll s.lanes (fun g l => { l with protected_ := both && same g }) }

/-- Whether the modules of a pair differ in a lane (R488). -/
def lanesDiffer (s : State) : Bool :=
  decide (s.pair.phase = .paired) && !s.pair.partnerDormant && s.lanes.any (fun e => !e.2.protected_)

/-- A pair event is reported (R488, R495). -/
def reportPair (s : State) (severity code : Nat) : State := report s 0x3A severity kioskUid (leBytes 1 code)

/-- Brings protection up to date; a difference that is new, or that takes protection from a lane, is reported (R488). -/
def settlePair (s : State) (fresh : Bool) : State :=
  let t := protectLanes s
  if lanesDiffer t ∧ (fresh ∨ s.lanes.any (fun e => e.2.protected_ && !((sget t.lanes e.1).map (·.protected_)).getD true)) then
    reportPair t 2 2
  else t

/-- Generations that no lane uses any longer are freed (R363): the older of two once the newer is served. -/
def settleGens (s : State) : State :=
  s.objects.foldl (fun t o =>
    match o.kind, o.gens with
    | .adapter, _ => t
    | k, [a, b] =>
      if b.state ≠ 1 ∧ !t.lanes.any (fun e => e.2.generation.contains (k, o.handle, a.number)) then freeGen t k o.handle a.number
      else t
    | _, _ => t) s

/-- Generations a lane runs that a switch now would change (R364, R365). -/
def changedGenerations (s : State) (g : Nat) : List (ObjKind × Nat) :=
  let now := laneGenerations s g
  (((sget s.lanes g).map (·.generation)).getD []).filterMap (fun e =>
    match now.find? (fun x => x.1 = e.1 ∧ x.2.1 = e.2.1) with
    | some x => if x.2.2 = e.2.2 then none else some (e.1, e.2.1)
    | none => none)

/-- A lane whose generation changes is no longer the partner's lane (R488). -/
def unpairLane (s : State) (g : Nat) : State :=
  let d := (sget s.graphs g).map (·.digest)
  settlePair { s with pair := { s.pair with partner := s.pair.partner.map (fun p =>
    { p with lanes := p.lanes.filter (fun x => some x ≠ d) }) } } false

/-- Lane plans of a plan at a level (R296). -/
def variantOf (p : Plan) (code : Nat) : List LanePlan := (p.variants[code]?).getD p.lanes

/-- A lane switches to the newest ready plan at the level in force (R293, R294, R297), but not while a site the plan needs is being
programmed (R60); the re-plan interval counts from its last switch to a plan from a completed build (R300). Tables staged for the
arrays it ran become active (R138); generations that only it still used are freed (R363), and its next boundary ends what retires with
them (R337, R365). -/
def switchLane (s : State) (g : Nat) : State :=
  match s.planner.plan, sget s.graphs g with
  | some b, some gr =>
    match (variantOf b s.planner.variant).find? (fun l => l.graph.val = g) with
    | none => s
    | some p =>
      let fresh := decide (((sget s.lanes g).map (·.built)) ≠ some b.epoch)
      if (lanesArrays [p]).any (fun a => isProgramming (siteGet s (a / 8)).activity) then s
      else
        let changed := changedGenerations s g
        let left := ((sget s.lanes g).map laneArrays).getD []
        let s0 := left.foldl activateTable (if changed.isEmpty then s else unpairLane s g)
        let s1 := laneMod s0 g (fun l => { l with
          plan := p, epoch := s.planner.epoch, level := s.planner.variant, generation := laneGenerations s g
          checkCode := b.checkCode
          changed := (l.changed ++ changed).eraseDups
          limitsMissed := l.limitsMissed && !meetsLimits gr.settings p
          wideNodes := if fresh then adapterLayers s g ++ failedLayers s p else l.wideNodes
          wideNext := if fresh then [] else l.wideNext
          built := b.epoch, switchedAt := if fresh then hostTime s else l.switchedAt
          lastSwitch := hostTime s, switchWait := 0, waitFrom := none, switching := true
          doubled := b.doubled })
        settleGens (settleServing (if fresh then spreadChecks s1 b.checkCode (lanesArrays [p]).eraseDups else s1))
  | _, _ => s

/-- Lanes with no step in progress switch at once (R293). -/
def switchIdle (s : State) : State := s.lanes.foldl (fun t e => if e.2.step.isNone then switchLane t e.1 else t) s

/-- Whether every array a plan serves from for an object holds one generation of it (R292, R360). -/
def planHolds (s : State) (p : Plan) (k : ObjKind) (h gen : Nat) : Bool :=
  p.lanes.all (fun l => match sget s.graphs l.graph.val with
    | none => true
    | some gr => l.layers.all (fun y => match layerTensor (graphTables gr.image) y.node with
        | none => true
        | some e => decide (ownerObject e.1.ownerKind ≠ k ∨ e.1.owner ≠ h) || (layerArrays y).all (fun a =>
            decide ((arrGet s a).ownerKind = ownerCode k ∧ (arrGet s a).owner = h ∧ (arrGet s a).generation = gen))))

/-- What a ready plan does to one generation that was verified when its build decided (R360–R362, R369): a replacement becomes servable wide; or, when
it asked for that, placed, if the plan's arrays hold it; and is answered. One served wide whose arrays the plan has programmed
becomes placed. An adapter no longer waits for a plan that makes room. -/
def planObject (p : Plan) (s : State) (e : ObjKind × Nat × Nat) : State :=
  let (k, h, n) := e
  match (objGet s k h).bind (fun o => o.gens.find? (fun g => g.number = n)) with
  | none => s
  | some g =>
    let set := fun (c : Nat) => genMod s k h n (fun y => { y with state := c })
    let held := planHolds s p k h n
    if k = .adapter then (if p.causes.contains .adapterSpace then genMod s k h n (fun y => { y with awaitsPlan := false }) else s)
    else if g.state = 1 then
      if !g.whenPlaced then forceBuild (answerLoad (set 2) k h n .ok 0 (leBytes 2 n)) .objects
      else if held then answerLoad (set 3) k h n .ok 0 (leBytes 2 n)
      else forceBuild s .objects
    else if g.state = 2 ∧ held then set 3
    else s

def planObjects (s : State) (p : Plan) : State := p.gens.foldl (planObject p) s

/-- Lanes that miss their declared limits under a plan that follows a fault are marked and reported, at each such plan (R302). -/
def markMissed (s : State) (p : Plan) : State :=
  if p.causes.any faultCause then
    p.lanes.foldl (fun t l =>
      match sget t.graphs l.graph.val, sget t.lanes l.graph.val with
      | some gr, some _ =>
        if meetsLimits gr.settings l then laneMod t l.graph.val (fun x => { x with limitsMissed := false })
        else report (laneMod t l.graph.val (fun x => { x with limitsMissed := true })) 0x20 2 kioskUid
          (leBytes 4 t.planner.epoch)
      | _, _ => t) s
  else s

/-- The plan of step 4 of R485 is ready: mirroring begins, the pair is established, PAIR_CONFIGURE is answered. -/
def pairPlanned (s : State) (p : Plan) : State :=
  if s.pair.building ∧ p.causes.contains .pair then
    finishJobs { s with
        pair := { s.pair with phase := .paired, building := false, startedAt := hostTime s }
        ports := s.ports.zipIdx.map (fun e => if e.2 < 4 then { e.1 with lastHeartbeatIn := s.now } else e.1) }
      (fun j => match j.work with | .pair _ => some (.ok, 0, []) | _ => none)
  else s

/-- The lowest variant code whose level the output level has held for 100 ms of host time (R297). -/
def raiseTo (s : State) : Option Nat :=
  (List.range s.planner.variant).find? (fun c =>
    match s.thermal.raiseSince.find? (fun e => e.1 = c) with
    | some e => decide (e.2 + 100000000 ≤ hostTime s) && decide (levelOf c ≤ outputLevel s.thermal)
    | none => false)

/-- The variant a new plan is installed at: a lower level at once, a higher one only when it has been held (R297). -/
def readyVariant (s : State) : Nat :=
  let c := codeFor (outputLevel s.thermal)
  if s.planner.plan.isNone ∨ s.planner.variant ≤ c then c else (raiseTo s).getD s.planner.variant

/-- Whether the golden copies of everything a lane runs have been verified (R366). -/
def laneVerified (s : State) (l : Lane) : Bool :=
  l.generation.all (fun x => match (objGet s x.1 x.2.1).bind (fun o => o.gens.find? (fun y => y.number = x.2.2)) with
    | some y => y.shards.all (·.verified)
    | none => true)

/-- A lane takes up a plan that has just become ready (R293): a new lane starts, and waits until what it runs has been verified (R366); a lane with no
step in progress switches at once. -/
def takeUpPlan (epoch : Nat) (s : State) (l : LanePlan) : State :=
  let g := l.graph.val
  if !shas s.graphs g then s
  else match sget s.lanes g with
    | none =>
      let t := switchLane { s with lanes := sput s.lanes g { plan := l, epoch := epoch } } g
      laneMod t g (fun x => { x with sitsOut := !laneVerified t x })
    | some ln => if ln.step.isNone then switchLane s g else s

/-- A lane whose graph a build has removed is gone (R271): tables staged for its arrays become active (R138). -/
def removeLane (s : State) (g : Nat) : State :=
  let t := (((sget s.lanes g).map laneArrays).getD []).foldl activateTable s
  { t with
    graphs := t.graphs.filter (fun x => x.1 ≠ g), lanes := t.lanes.filter (fun x => x.1 ≠ g)
    histories := t.histories.filter (fun h => h.lane ≠ g) }

/-- A plan becomes ready (R291, R292): it takes the next epoch; new lanes start, lanes without a step switch at once, lanes
of retired graphs go; answers to GRAPH_SUBMIT, GRAPH_RETIRE and CHECK_FRACTION_SET are written. -/
def makeReady (s : State) (p : Plan) : State :=
  let e := nextEpoch s.planner.epoch
  let gone := p.removes.filter (fun g => ((sget s.graphs g).map (·.retiring)).getD false && !p.lanes.any (fun l => l.graph.val = g))
  let s1 : State := gone.foldl removeLane { s with
    planner := { s.planner with
      epoch := e, plan := some { p with epoch := e, ready := true }, waiting := none, checkCode := p.checkCode,
      variant := readyVariant s, wantCheck := if s.planner.wantCheck = some p.checkCode then none else s.planner.wantCheck }
    freeIdx := s.freeIdx + 1 }
  let s2 := p.lanes.foldl (takeUpPlan e) (adaptersAtRest (planObjects s1 p))
  let s3 := markMissed (settleGens s2) p
  let entering := (lanesArrays p.lanes).eraseDups.filter (fun a => !inService s a)
  let s4 := settleServing (entering.foldl (fun t a => arrMod t a (fun x => { x with lastStep := [] })) s3)
  finishJobs (settlePair (pairPlanned s4 p) (s.pair.building || p.lanes.any (fun l => !shas s.lanes l.graph.val))) (fun j => match j.work with
    | .graphReady g => if p.lanes.any (fun l => l.graph.val = g) then some (.ok, 0, padTo 4 (leBytes 1 g) ++ leBytes 4 e) else none
    | .graphRetire g => if gone.contains g then some (.ok, 0, []) else none
    | .checkFraction prev code => if p.checkCode = code then some (.ok, 0, padTo 4 (leBytes 1 prev) ++ leBytes 4 e) else none
    | _ => none)

/-- PLAN_READY (R292). -/
def planBecomesReady (s : State) : State :=
  match s.planner.waiting with
  | none => s
  | some p => if planIsReady s p then makeReady s p else s

/-- Repair adapters that find no place in Pavilion memory (R266): the adapter goes, its arrays are retired and re-placed. -/
def dropUnplaced (s : State) (ls : List LanePlan) : State :=
  let out := s.repairAdapters.filter (fun e => ls.any (fun l => decide (l.graph.val = e.lane) && l.items.any (fun i =>
    decide (i.order.val = 1 ∧ i.layer = e.node) && !inPavilion i.place)))
  out.foldl (fun t e => e.arrays.foldl (fun u a => retireReported u a.val 2)
    { t with repairAdapters := t.repairAdapters.filter (fun x => x ≠ e) }) s

/-- What a finished build decides: the state with its submissions answered and golden copies placed, the lanes it adds, the plans Ezjor gives for
all lanes, and those plans settled within what graphs declare and the records ask. -/
structure Decided where
  state : State
  new : List LanePlan
  given : List LanePlan
  settled : List LanePlan

/-- Plans of the lanes that stood before a build: those Ezjor gives, but for graphs the build removes; and those of graphs accepted earlier whose
plan still waits. -/
def standingLanes (r : BuildResult) (b : Build) (s : State) : List LanePlan :=
  let given := r.lanes.filter (fun l => shas s.graphs l.graph.val && !b.removes.contains l.graph.val)
  given ++ (waitingLanes s).filter (fun l => !given.any (fun x => x.graph = l.graph) && s.jobs.any (fun j => j.work = .graphReady l.graph.val))

/-- Whether a build changes nothing: it was forced by graphs alone, has accepted none and removes none (R269). -/
def changesNothing (b : Build) (new : List LanePlan) : Bool :=
  !b.causes.isEmpty && b.causes.all (fun c => decide (c = .graphs)) && new.isEmpty && b.removes.isEmpty

/-- The decisions of a build (R269, R270, R357): `r.placements` answers the submissions it has taken, in order of arrival. -/
def buildDecides (r : BuildResult) (b : Build) (s : State) : Decided :=
  let base := standingLanes r b s
  let (s1, new) := ((takenSubmissions s).zip r.placements).foldl (placeSubmission base) (s, [])
  if changesNothing b new then { state := s1, new := [], given := [], settled := [] }
  else { state := settleTier true s1 (base ++ new), new := new, given := base ++ new, settled := settledPlan s1 (base ++ new) }

/-- Whether a build may complete now: within 2 s of its start (R270; log entry 7), every submission it took decided, and what it decides keeps the rules
of this manual that bind one, new lanes their limits among them (R288). -/
def buildStands (r : BuildResult) (b : Build) (s : State) : Bool :=
  let d := buildDecides r b s
  decide (hostTime s ≤ b.startedAt + 2000000000 ∨ s.now ≤ b.begunAt + 2000000000)
    && decide (r.placements.length = (takenSubmissions s).length)
    && (changesNothing b d.new || (buildAllowed s d.state b.causes b.removes r.programs d.given d.settled
      && (d.settled.filter (fun l => d.new.any (fun n => n.graph = l.graph))).all (fun l =>
        ((sget d.state.graphs l.graph.val).map (fun g => meetsLimits g.settings l)).getD false)))

/-- Generations that are verified: those a build decided now places and switches to. -/
def verifiedGens (s : State) : List (ObjKind × Nat × Nat) :=
  s.objects.flatMap (fun o => (o.gens.filter (fun g => g.shards.all (·.verified))).map (fun g => (o.kind, o.handle, g.number)))

/-- The plan a build hands over, stored in Gatehouse SRAM and the firmware region of every quarter (R289, R292), with its variants (R296). A plan that
waited still passes its causes on (R302). -/
def builtPlan (s : State) (b : Build) (programs : List Programming) (ls : List LanePlan) : Plan :=
  { epoch := 0, lanes := ls, digest := Config.planDigest s.freeIdx
    checkCode := buildCheck s, programs := programs
    causes := (b.causes ++ ((s.planner.waiting).map (·.causes)).getD []).eraseDups
    doubled := pairHalves s || s.pair.building
    variants := (List.range 6).map (fun code => ls.map (variantLane s code))
    parts := planQuarters s, removes := b.removes, gens := verifiedGens s }

/-- BUILD_COMPLETE (R269, R270): submissions the build took are refused or accepted; programming starts; the plan, with its scratch map
(R265), is ready at once if nothing holds it back. A build that breaks a rule of this manual never completes (log entry 7). -/
def buildCompletes (r : BuildResult) (s : State) : State :=
  match s.planner.build with
  | none => s
  | some b =>
    if !buildStands r b s then s
    else
      let d := buildDecides r b s
      let t := { d.state with planner := { d.state.planner with build := none } }
      if changesNothing b d.new then t
      else
        let p := builtPlan t b r.programs d.settled
        let s1 := nextFree { t with planner := { t.planner with waiting := some p } }
        planBecomesReady (startPrograms (dropUnplaced s1 d.settled))

/-! ### Variants (R297) -/

/-- Installs a variant of the newest ready plan under a new epoch: lanes without a step switch at once, others at their boundary (R293). -/
def installVariant (s : State) (code : Nat) : State :=
  switchIdle { s with planner := { s.planner with variant := code, epoch := nextEpoch s.planner.epoch } }

/-- At a boundary: a lower output level moves to the variant below it at once (R297). -/
def variantDown (s : State) : State :=
  if s.planner.plan.isSome ∧ s.planner.variant < codeFor (outputLevel s.thermal) then
    installVariant s (codeFor (outputLevel s.thermal))
  else s

/-- VARIANT_RAISE (R297). -/
def variantRaises (s : State) : State :=
  match s.planner.plan, raiseTo s with
  | some _, some c => installVariant s c
  | _, _ => s

/-! ### Check fraction (R183, R467) -/

def bodyCheckFractionSet (c : Ctx) (s : State) : State :=
  if 4 < c.par 0 1 then replyInvalid c s (parDetail 0)
  else
    let s1 := { s with planner := { s.planner with wantCheck := some (c.par 0 1) } }
    forceBuild (startJob c s1 (.checkFraction s.planner.checkCode (c.par 0 1))) .checkFraction

/-! ### The rows -/

def execGraphSubmit (p : Pkt) (s : State) : Out State := .next (packetRow 0x0201 p s id bodyGraphSubmit)
def execGraphRetire (p : Pkt) (s : State) : Out State := .next (packetRow 0x0202 p s id bodyGraphRetire)
def execPlanRead (p : Pkt) (s : State) : Out State := .next (packetRow 0x0203 p s id bodyPlanRead)
def execCheckFractionSet (p : Pkt) (s : State) : Out State := .next (packetRow 0x0508 p s id bodyCheckFractionSet)
def execBuildStart (cause : BuildCause) (s : State) : Out State := .next (buildStarts cause s)
def execReplanInterval (lane : LaneId) (s : State) : Out State := .next (replanStarts lane.val s)
def execBuildComplete (r : BuildResult) (s : State) : Out State := .next (buildCompletes r s)
def execPlanReady (s : State) : Out State := .next (planBecomesReady s)
def execVariantRaise (s : State) : Out State := .next (variantRaises s)

end Sys2Proof.Machine
end

