-- ==== Sys2Proof/Machine/Kv.lean ====
section
/-! DEFINITION. The KV cache (R318–R338): pages, blocks and their descriptors, the pool and its headroom, pre-emption,
copies out and back. -/

namespace Sys2Proof.Machine
open Sys2Proof

/-! ### Sizes (R320, R326, R330) -/

/-- Minimum key width of a model's newest generation that serves (R330). -/
def keyWidthOf (s : State) (h : Nat) : Nat := (((objGet s .model h).bind currentGen).map (·.keyWidth)).getD 0

/-- Cached nodes of a lane's graph. -/
def laneCached (s : State) (g : Nat) : List (Nat × Nat × Nat × Nat × Nat × Nat) :=
  match sget s.graphs g with
  | some x => cachedNodes x.image (graphTables x.image)
  | none => []

def round4k (n : Nat) : Nat := (n + 4095) / 4096 * 4096

/-- Bytes of a sealed block of a lane: every cached node and head group in its written format (R326, R330). -/
def sealedBytes (s : State) (g : Nat) : Nat :=
  round4k ((laneCached s g).foldl (fun t n => t + n.2.2.2.1 * pageBytes (writtenFormat n.2.2.1 (keyWidthOf s n.2.1)) n.2.2.2.2.1) 0)

/-- Bytes of a lane's open block: BF16 pages (R323, R326). -/
def openBytes (s : State) (g : Nat) : Nat :=
  round4k ((laneCached s g).foldl (fun t n => t + n.2.2.2.1 * pageBytes 0x03 n.2.2.2.2.1) 0)

/-- Whether a lane's graph has cached nodes. -/
def cachedGraph (s : State) (g : Nat) : Bool := ((sget s.graphs g).map (·.settings.cached)).getD false

/-- Bytes of the KV pool for a module's own requests: half of it in a pair (R487). -/
def poolBytes (s : State) : Nat :=
  let p := ((s.kv.newPool).getD s.kv.poolGib) * 1073741824
  if pairHalves s then p / 2 else p

/-- Blocks that occupy pool space. -/
def inPool (b : Block) : Bool :=
  decide (b.location = .memoryTier) || decide (b.location = .leaving) || decide (b.location = .returning)

def ownBlocks (s : State) : List Block := s.requests.flatMap (fun e => if e.2.mirrored then [] else e.2.blocks ++ e.2.reserved)

def usedBytes (s : State) : Nat := (ownBlocks s).foldl (fun t b => if inPool b then t + b.bytes else t) 0

def leavingBytes (s : State) : Nat := (ownBlocks s).foldl (fun t b => if b.location = .leaving then t + b.bytes else t) 0

/-- Free bytes of the pool; below zero while blocks do not fit a smaller size (R329). -/
def freeBytes (s : State) : Int := Int.ofNat (poolBytes s) - Int.ofNat (usedBytes s)

/-- Free descriptors of the page tables (R327). -/
def freeDescriptors (s : State) : Nat := 1048576 - (s.requests.foldl (fun t e => t + e.2.blocks.length + e.2.reserved.length) 0)

/-- The headroom (R331). -/
def headroom (s : State) : Nat :=
  s.lanes.foldl (fun t e => match sget s.graphs e.1 with
    | some g => if g.settings.cached then
        t + (2 * g.settings.batch + 2 * e.2.plan.chunk / 32) * sealedBytes s e.1 else t
    | none => t) 0

/-! ### Placing blocks in the pool -/

/-- Whether a range of 4 KiB units is free of blocks. -/
def rangeFree (used : List (Nat × Nat)) (a n : Nat) : Bool := used.all (fun e => decide (a + n ≤ e.1 ∨ e.1 + e.2 ≤ a))

/-- The lowest free place for n units below a limit (log entry 12). -/
def lowestFree (used : List (Nat × Nat)) (limit n : Nat) : Option Nat :=
  let tops := (0 :: used.map (fun e => e.1 + e.2)).filter (fun a => rangeFree used a n && decide (a + n ≤ limit))
  tops.foldl (fun m a => match m with | some b => some (min a b) | none => some a) none

/-- End of the pool in 4 KiB units; of the smaller size while a new one waits (R329). -/
def poolEnd (s : State) : Nat := min s.kv.poolGib (s.kv.newPool.getD s.kv.poolGib) * 262144

/-- Where a block of some bytes goes. -/
def placeBlock (s : State) (bytes : Nat) : Option Nat :=
  let used := ((s.requests.flatMap (fun e => e.2.blocks ++ e.2.reserved)).filter inPool).map (fun b => (b.address, b.bytes / 4096))
  lowestFree used (poolEnd s) (bytes / 4096)

/-- Allocates a block, if there is room. -/
def allocBlock (s : State) (bytes : Nat) (isOpen : Bool) (gen : Nat) : Option Block :=
  if freeBytes s < Int.ofNat bytes ∨ freeDescriptors s = 0 then none
  else (placeBlock s bytes).map (fun a => { address := a, bytes := bytes, open_ := isOpen, generation := gen })

/-! ### Appending and sealing (R311, R319, R323–R326) -/

/-- Generation of the model a lane runs. -/
def laneModelGen (s : State) (g : Nat) : Nat :=
  match (sget s.lanes g).bind (fun l => l.generation.find? (fun e => e.1 = .model)) with
  | some e => e.2.2
  | none => match (sget s.lanes g).bind (fun l => l.generation.head?) with
    | some e => e.2.2
    | none => 0

/-- Generation that a lane runs of the model whose manifest governs a cached node's keys (R305 word 6). -/
def keyGen (s : State) (g model : Nat) : Nat :=
  (((sget s.lanes g).bind (fun l => l.generation.find? (fun e => e.1 = .model ∧ e.2.1 = model))).map (·.2.2)).getD
    ((((objGet s .model model).bind currentGen).map (·.number)).getD 0)

/-- Empty open pages of a lane from a position on. -/
def openPages (s : State) (g first : Nat) : List Page :=
  (laneCached s g).flatMap (fun n => (List.range n.2.2.2.1).map (fun h =>
    { node := n.1, group := h, first := first, generation := keyGen s g n.2.1 }))

/-- An ATTENTION node of a lane as its graph gives it (R303, R305): parameters, format of the queries, whether it is packed. -/
structure LaneAttention where
  params : AttnParams
  format : Nat
  packed : Bool
  deriving DecidableEq, Repr

def laneAttention (s : State) (g node : Nat) : Option LaneAttention :=
  (sget s.graphs g).bind (fun x =>
    let t := graphTables x.image
    ((t.nodes[node]?).filter (fun n => n.kind = 0x04)).map (fun n =>
      { params := attnParams x.image n, format := (tensorOf t n.input).format, packed := decide (n.weight = 0xFFFF) }))

/-- One token's keys, rotated (R308), and values of a head group, as BF16 codes, in an open page. -/
def pushToken (kv : List NewKv) (par : Nat → Option LaneAttention) (i : Nat) (p : Page) : Page :=
  match kv.find? (fun x => x.node = p.node ∧ x.group = p.group), par p.node with
  | some x, some a =>
    let at_ := fun (l : List F32) => (l.drop (i * a.params.dim)).take a.params.dim
    withHeader { p with
      tokens := p.tokens + 1
      k := p.k ++ (a.params.place (p.first + p.tokens) (at_ x.k)).map (toFormat 0x03)
      v := p.v ++ (at_ x.v).map (toFormat 0x03) }
  | _, _ => p

/-- Whether a step of n tokens brings the keys and values of every head group of every cached node (R303, R311). -/
def bringsKeys (s : State) (g n : Nat) (kv : List NewKv) : Bool :=
  (laneCached s g).all (fun c => (List.range c.2.2.2.1).all (fun h => kv.any (fun x =>
    decide (x.node = c.1 ∧ x.group = h ∧ x.k.length = n * c.2.2.2.2.1 ∧ x.v.length = n * c.2.2.2.2.1))))

/-- Seals the pages of a block that is full (R324, R326). -/
def sealPages (s : State) (g : Nat) (ps : List Page) : List Page :=
  ps.map (fun p =>
    match (laneCached s g).find? (fun n => n.1 = p.node) with
    | some n => sealPage (writtenFormat n.2.2.1 (keyWidthOf s n.2.1)) (keyGen s g n.2.1) p
    | none => p)

/-- Generation of a block's first page (R328). -/
def pagesGen (ps : List Page) : Nat := ((ps.head?).map (·.generation)).getD 0

/-- Appends token `i` of a step to a request's open block; a block that reaches 32 positions is sealed into a new block and
the open block is used again (R326). -/
def appendToken (h g : Nat) (kv : List NewKv) (s : State) (i : Nat) : State :=
  match sget s.requests h with
  | none => s
  | some r =>
    match r.blocks.find? (·.open_) with
    | none => s
    | some b =>
      let pages := if b.pages.isEmpty then openPages s g r.length else b.pages
      let full := pages.map (pushToken kv (laneAttention s g) i)
      let fill := b.fill + 1
      if fill < 32 then
        reqMod s h (fun q => { q with
          length := q.length + 1
          blocks := q.blocks.map (fun x => if x.open_ then { x with fill := fill, pages := full, generation := pagesGen full } else x) })
      else
        let done : Block := match r.reserved.head? with
          | some x => x
          | none => (allocBlock s (sealedBytes s g) false 0).getD { location := .unallocated, bytes := sealedBytes s g }
        let pages := sealPages s g full
        let shut := { done with fill := 32, generation := pagesGen pages, pages := pages }
        reqMod s h (fun q => { q with
          length := q.length + 1
          reserved := q.reserved.drop 1
          blocks := q.blocks.filter (fun x => !x.open_) ++ [shut, { b with fill := 0, pages := [], generation := shut.generation }] })

/-- Appends the keys and values of `n` tokens of a step (R311). -/
def appendKv (s : State) (h g n : Nat) (kv : List NewKv) : State :=
  (List.range n).foldl (appendToken h g kv) s

/-! ### Attention over a request's pages (R307–R314) -/

/-- Keys and values of a head group of a cached node by page, oldest first, each with its position (R319, R322). -/
def pageKeys (r : Request) (node group d : Nat) : List (List (Nat × List F32 × List F32)) :=
  (r.blocks.flatMap (fun b => b.pages.filter (fun p => decide (p.node = node ∧ p.group = group)))).map (fun p =>
    (numbered (pageVectors d p)).map (fun e => (p.first + e.1, e.2)))

/-- Pages in n spans, 1 to 64, all but the last of equal size (R312). -/
def spansOf {α : Type} (n : Nat) (pages : List (List α)) : List (List α) :=
  let m := max 1 (min 64 n)
  (chunks ((pages.length + m - 1) / m) m pages).map List.flatten

/-- A query of a head at a position of a segment over keys in spans, each with its segment and position (R309, R330). -/
def scoredOver (a : LaneAttention) (x : AttnQuery) (segment position : Nat) (spans : List (List (Nat × Nat × List F32 × List F32))) :
    ScoredQuery :=
  let p := a.params
  let q := p.place position x.q
  { segment := segment, position := position, causal := p.causal
    spans := spans.map (fun s => s.map (fun k =>
      { segment := k.1, position := k.2.1, score := p.score (activationFormat a.format) x.head position k.2.1 q k.2.2.1, value := k.2.2.2 })) }

/-- Head group of a query head (R303). -/
def headGroup (a : AttnParams) (head : Nat) : Nat := head / (a.heads / a.groups)

/-- A query of a cached node in a step of n tokens, which the request's pages hold by now (R307, R310–R312): segment 1, at the index of its token in the
sequence. -/
def cachedQuery (a : LaneAttention) (r : Request) (n : Nat) (x : AttnQuery) : ScoredQuery :=
  scoredOver a x 1 (r.length - n + x.index)
    ((spansOf x.spans (pageKeys r x.node (headGroup a.params x.head) a.params.dim)).map (fun s => s.map (fun k => (1, k))))

/-- Tokens of a request's sequences in a packed step, one after the other: row, segment, index in the segment (R307, R339). -/
def packedTokens (packed : List PackedSeq) (h : Nat) : List (Nat × Nat × Nat) :=
  (packed.filter (fun q => q.request = h)).flatMap (fun q => (List.range q.length).map (fun i => (q.row, q.segment, i)))

/-- A query of a packed node (R303, R307, R310, R312): its row as one span, with the keys of its head group. Keys of other requests in the row belong to
other segments, and are masked. A query that no sequence holds is in segment 0. -/
def packedQuery (a : LaneAttention) (packed : List PackedSeq) (kv : List NewKv) (h : Nat) (x : AttnQuery) : ScoredQuery :=
  let places := packedTokens packed h
  let me := (places[x.index]?).getD (0, 0, 0)
  let d := a.params.dim
  let vec := fun (l : List F32) (i : Nat) => (l.drop (i * d)).take d
  let new := kv.find? (fun y => y.node = x.node ∧ y.group = headGroup a.params x.head)
  let keys := (numbered places).filterMap (fun e => if e.2.1 = me.1 then
    new.map (fun y => (e.2.2.1, e.2.2.2, a.params.place e.2.2.2 (vec y.k e.1), vec y.v e.1)) else none)
  scoredOver a x me.2.1 me.2.2 [keys]

/-- Whether a step read a page narrower than its model's minimum key width (R330). -/
def widened (s : State) (g : Nat) (r : Request) : Bool :=
  r.blocks.any (fun b => b.pages.any (fun p =>
    match (laneCached s g).find? (fun n => n.1 = p.node) with
    | some n => decide (formatWidth p.format < keyWidthOf s n.2.1)
    | none => false))

/-! ### Descriptors (R328) -/

def locationCode : Location → Nat
  | .memoryTier => 0 | .hostSwap => 1 | .partner => 2 | .peer => 3 | .leaving => 4 | .returning => 5 | .unallocated => 7

def blockDescriptor (b : Block) : Bytes :=
  wordBytes [ packW [(29, 3, locationCode b.location), (0, 29, b.address)],
    packW [(26, 6, b.fill), (25, 1, boolBit b.open_), (16, 4, if b.location = .peer then b.port else 0), (0, 16, b.generation)] ]

/-- KV_MAP_READ (R327, R466): from the first descriptor named to the open block; the opener or the physical function. -/
def bodyKvMapRead (c : Ctx) (s : State) : State :=
  match sget s.requests (c.par 0 4) with
  | none => replySt c s .notFound
  | some r =>
    if r.mirrored ∨ (r.fn ≠ c.fn ∧ c.fn ≠ 0) then replySt c s .notFound
    else replyBuffer c s 8 ((r.blocks.drop (c.par 4 4)).flatMap blockDescriptor)

/-! ### Pre-emption (R331–R335) -/

/-- Bytes a request holds in the pool. -/
def footprint (r : Request) : Nat := r.blocks.foldl (fun t b => if inPool b then t + b.bytes else t) 0

/-- Latency class of a lane's graph. -/
def latencyOf (s : State) (g : Nat) : Nat := ((sget s.graphs g).map (·.settings.latency)).getD 0

/-- Over budget (R380). -/
def overBudget (s : State) (r : Request) : Bool := decide ((bucketOf s r.account r.cls).level < 0)

/-- Requests that pre-emption may take (R332). -/
def victimsOf (s : State) : List (Nat × Request) :=
  s.requests.filter (fun e =>
    (decide (e.2.state = .prefill) || decide (e.2.state = .running)) && !e.2.mirrored && !e.2.ended
      && (((sget s.graphs e.2.graph).map (·.settings.cached)).getD false)
      && !e.2.blocks.any (fun b => decide (b.location = .leaving ∨ b.location = .returning)))

/-- Time since a request's last step ended, 0 for those in the step now starting (R332); for one that has run none, since it was admitted (log entry
116). -/
def idleTime (s : State) (starting : List Nat) (e : Nat × Request) : Nat :=
  if starting.contains e.1 then 0 else hostTime s - e.2.lastStepEnd

/-- Whether victim a goes before victim b (R332). -/
def victimBefore (s : State) (starting : List Nat) (a b : Nat × Request) : Bool :=
  let key := fun (e : Nat × Request) =>
    [boolBit (overBudget s e.2), latencyOf s e.2.graph, idleTime s starting e, footprint e.2, e.1]
  let rec cmp : List Nat → List Nat → Bool
    | x :: xs, y :: ys => if x = y then cmp xs ys else decide (y < x)
    | _, _ => true
  cmp (key a) (key b)

def orderedVictims (s : State) (starting : List Nat) : List (Nat × Request) :=
  (victimsOf s).mergeSort (victimBefore s starting)

/-- Address and bytes of every block that lies at a destination or holds space there, on its way out or back. -/
def heldAt (s : State) (dest : Location) (port : Nat) : List (Nat × Nat) :=
  ((s.requests.flatMap (fun e => e.2.blocks)).filter (fun b => decide (dest ≠ .peer ∨ b.port = port))).filterMap (fun b =>
    if b.location = dest then some (b.address, b.bytes)
    else if (b.location = .leaving ∨ b.location = .returning) ∧ b.dest = dest then some (b.destAt, b.bytes) else none)

/-- Bytes a destination takes; no limit is known of the partner's mirror half (R492). -/
def destLimit (s : State) (dest : Location) (port : Nat) : Option Nat :=
  match dest with
  | .peer => (sget s.kv.peers port).map (fun p => p.capacity * 1073741824)
  | .hostSwap => (s.kv.swap).map (·.2)
  | _ => none

/-- Addresses of some blocks at a destination, in 4 KiB units, the lowest free place for one after the other (R333; log entry 12); none if it has
no room. -/
def destPlaces (s : State) (dest : Location) (port : Nat) (sizes : List Nat) : Option (List Nat) :=
  let held := heldAt s dest port
  let total := (held.map (·.2) ++ sizes).foldl (· + ·) 0
  let limit := ((destLimit s dest port).map (· / 4096)).getD (((held.map (fun e => e.1 + e.2 / 4096)).foldl max 0) + total / 4096)
  (sizes.foldl (fun (t : Option (List (Nat × Nat) × List Nat)) n => t.bind (fun u =>
    (lowestFree u.1 limit (n / 4096)).map (fun a => ((a, n / 4096) :: u.1, u.2 ++ [a]))))
    (some (held.map (fun e => (e.1, e.2 / 4096)), []))).map (·.2)

/-- Where blocks of some sizes go (R333, R481): the first peer, registered, its port up, not known full, that has room for them; else the host swap
area. -/
def copyDestination (s : State) (sizes : List Nat) : Option (Location × Nat × List Nat) :=
  match s.kv.peers.findSome? (fun e =>
      if !e.2.full ∧ 2 ≤ (portGet s e.1).state ∧ (portGet s e.1).state ≤ 3 then (destPlaces s .peer e.1 sizes).map (fun l => (e.1, l)) else none) with
  | some (p, l) => some (.peer, p, l)
  | none => if s.kv.swap.isSome then (destPlaces s .hostSwap 0 sizes).map (fun l => (.hostSwap, 0, l)) else none

/-- Where a victim's blocks go (R333, R492): the partner's mirror half, a peer, the host swap area, none. -/
def destinationFor (s : State) (r : Request) : Option (Location × Nat × List Nat) :=
  let sizes := r.blocks.map (·.bytes)
  if s.pair.phase = .paired ∧ ((sget s.lanes r.graph).map (·.protected_)).getD false then
    (destPlaces s .partner 0 sizes).map (fun l => (.partner, 0, l))
  else copyDestination s sizes

/-- The bytes of a block's pages (R319, R326). -/
def blockImage (b : Block) : Bytes := b.pages.flatMap pageImage

/-- The copy of a leaving block starts: to a peer it travels as writes (R333, R479). -/
def copyBlock (h : Nat) (s : State) (i : Nat) : State :=
  match (sget s.requests h).bind (fun r => r.blocks[i]?) with
  | none => s
  | some b => if b.location = .leaving ∧ b.dest = .peer then sendBlock b.port b.destAt (.block h i) (blockImage b) s else s

/-- The copies of a request's leaving blocks start, in page-table order (R333). -/
def copyBlocks (s : State) (h : Nat) : State :=
  (List.range (((sget s.requests h).map (·.blocks.length)).getD 0)).foldl (copyBlock h) s

/-- Host address of a block in the swap area. -/
def swapAddress (s : State) (b : Block) : Nat := ((s.kv.swap).map (·.1.toNat)).getD 0 + b.destAt * 4096

/-- A request leaves its lane's batch, in a step under way too: what that step computes for it is not delivered (log entry 117). -/
def leaveBatch (s : State) (g h : Nat) : State :=
  let t := unlane s g h
  { t with
    lanes := smod t.lanes g (fun l => { l with step := l.step.map (fun x => { x with recompute := x.recompute.filter (fun q => q ≠ h) }) })
    quartz := smapAll t.quartz (fun _ q => { q with topk := q.topk.filter (fun e => e.1 ≠ h) }) }

/-- Pre-empts a request (R333, R334, R403): it leaves the batch, its blocks start to leave, a kind 2 record reports it; with
no destination it ends with REFUSED_CAPACITY. -/
def preempt (s : State) (h : Nat) : State :=
  match sget s.requests h with
  | none => s
  | some r =>
    match destinationFor s r with
    | none => endRequest s h .refusedCapacity
    | some (dest, port, places) =>
      let s1 := reqMod (leaveBatch s r.graph h) h (fun q => { q with
        state := .preempted
        preemptedAt := hostTime s
        resumed := true
        reserved := []
        blocks := (numbered q.blocks).map (fun e =>
          if dest = .partner then { e.2 with location := .partner, address := lgetD places e.1 0 }
          else { e.2 with location := .leaving, dest := dest, port := port, destAt := lgetD places e.1 0 }) })
      postRecord (copyBlocks (reqMod s1 h (fun q => { q with budgetHold := false })) h) h
        { bytes := tokenRecordBytes (noticeRecord s1 h r 2 false .ok (laneEpoch s r.graph)), request := some h }

/-! ### The pool's size (R329) -/

/-- Blocks of a request, open and sealed or reserved, that lie in the pool past an end. -/
def pastEnd (limit : Nat) (b : Block) : Bool := inPool b && decide (limit < b.address + b.bytes / 4096)

/-- Moves the blocks that lie past the end of a smaller pool into free space below it (R329; log entry 118), request by request; none while one of
them is being copied or finds no space. -/
def relocateBlocks (s : State) : Option State :=
  (s.requests.map (·.1)).foldl (fun t h => t.bind (fun u => match sget u.requests h with
    | none => some u
    | some r => (List.range (r.blocks ++ r.reserved).length).foldl (fun (v : Option State) i => v.bind (fun w =>
        let q := (sget w.requests h).getD r
        let b := lgetD (q.blocks ++ q.reserved) i {}
        if !pastEnd (poolEnd w) b then some w
        else if b.location ≠ .memoryTier then none
        else (placeBlock w b.bytes).map (fun a => reqMod w h (fun x =>
          if i < x.blocks.length then { x with blocks := lmod x.blocks i (fun y => { y with address := a }) }
          else { x with reserved := lmod x.reserved (i - x.blocks.length) (fun y => { y with address := a }) })))) (some u))) (some s)

/-- What the blocks become once those that leave have left. -/
def onceLeft (s : State) : State :=
  { s with requests := smapAll s.requests (fun _ r => { r with blocks := r.blocks.filter (fun b => b.location ≠ .leaving) }) }

/-- Whether the blocks will fit the pool's new size once those that leave have left (R329). -/
def willFit (s : State) : Bool := s.kv.newPool.isNone || (relocateBlocks (onceLeft s)).isSome

/-- Pre-empts at a boundary until the headroom is met, and blocks fit a smaller pool (R329, R331); `starting` is the batch of the step now
starting. -/
def preemptFor (s : State) (starting : List Nat) : State :=
  (orderedVictims s starting).foldl (fun t e =>
    if freeBytes t + Int.ofNat (leavingBytes t) < Int.ofNat (headroom t) ∨ freeDescriptors t < 4096 ∨ !willFit t then preempt t e.1 else t) s

/-- Whether the boundary pre-empts at all (R329, R331); `need` are the open blocks new requests take. -/
def mustPreempt (s : State) (need : Nat) : Bool :=
  decide (freeBytes s - Int.ofNat need < Int.ofNat (headroom s) ∨ freeDescriptors s < 4096) || !willFit s

/-- Bytes a generation request needs to be admitted (R338). -/
def admissionBytes (s : State) (g prompt : Nat) : Nat := (prompt + 31) / 32 * sealedBytes s g + openBytes s g

/-- Whether the pool has some bytes free beyond the headroom (R336, R338). -/
def hasRoom (s : State) (n : Nat) : Bool := decide (Int.ofNat (headroom s + n) ≤ freeBytes s)

/-- Makes room for an admission (R338): victims of the same or a higher-numbered latency class whose last step ended at least 1 s ago; nobody
leaves if they would not make enough room. -/
def makeRoom (s : State) (g need : Nat) (starting : List Nat) : State :=
  if hasRoom s need then s
  else
    let vs := (orderedVictims s starting).filter (fun e =>
      decide (latencyOf s g ≤ latencyOf s e.2.graph) && e.2.ran && decide (e.2.lastStepEnd + 1000000000 ≤ hostTime s))
    let gain := vs.foldl (fun t e => t + footprint e.2) 0
    if Int.ofNat (headroom s + need) ≤ freeBytes s + Int.ofNat (leavingBytes s + gain) then
      vs.foldl (fun t e => if freeBytes t + Int.ofNat (leavingBytes t) < Int.ofNat (headroom t + need) then preempt t e.1 else t) s
    else s

/-! ### Copies out and back (R333, R336, R337) -/

/-- KV_POOL_SET is answered once the blocks in use fit the new size (R329), those past its end moved below it; golden copies for which a larger
pool leaves no room go to the outer tier (R23). -/
def settlePool (s : State) : State :=
  match s.kv.newPool with
  | none => s
  | some n =>
    match (if usedBytes s ≤ poolBytes s then relocateBlocks s else none) with
    | none => s
    | some t =>
      finishJobs (settleTier false { t with kv := { t.kv with poolGib := n, newPool := none } } (planLanes t)) (fun j => match j.work with
        | .kvPool _ => some (.ok, 0, []) | _ => none)

/-- Whether the engine can move a block to or from its place outside: the host swap area is reached by DMA. -/
def moveAllowed (s : State) (b : Block) : Bool := decide (b.dest ≠ .hostSwap) || dmaAllowed s 0

/-- What the copy of a block leaves behind: its bytes in the host swap area (R333, R411), if it goes there. -/
def copyLands (s : State) (b : Block) : State :=
  if b.dest = .hostSwap then hostWrite s (swapAddress s b) (blockImage b) else s

/-- The pages of a block that returns: from the host swap area as its bytes read there; a peer returns what it took (log entry 51). -/
def returnedPages (s : State) (b : Block) : List Page :=
  let image := blockImage b
  let read := memReadBytes s.hostMem (swapAddress s b) image.length
  if b.dest ≠ .hostSwap ∨ read = image then b.pages else pagesRead b.pages read

/-- KV_BLOCK_COPY_COMPLETE (R333): the first leaving block of a request has been copied; its pool space becomes free. -/
def blockCopied (h : Nat) (s : State) : State :=
  match sget s.requests h with
  | none => s
  | some r =>
    match r.blocks.findIdx? (fun b => b.location = .leaving) with
    | none => s
    | some i =>
      let b := lgetD r.blocks i {}
      if !moveAllowed s b then s
      else settlePool (reqMod (forgetBlock (copyLands s b) h i) h (fun q => { q with blocks := lmod q.blocks i (fun x =>
        { x with location := x.dest, address := x.destAt }) }))

/-- KV_BLOCK_RETURNED (R336): the first returning block is resident again; a peer that frees it is no longer full (R481). -/
def blockReturned (h : Nat) (s : State) : State :=
  match sget s.requests h with
  | none => s
  | some r =>
    match r.blocks.findIdx? (fun b => b.location = .returning) with
    | none => s
    | some i =>
      let b := lgetD r.blocks i {}
      let s1 := reqMod s h (fun q => { q with blocks := lmod q.blocks i (fun x => { x with
        location := .memoryTier, pages := returnedPages s x }) })
      if !moveAllowed s b then s
      else if b.dest = .peer then { s1 with kv := { s1.kv with peers := smod s1.kv.peers b.port (fun p => { p with full := false }) } }
      else s1

/-- Bytes a pre-empted request needs to come back (R336). -/
def awayBytes (r : Request) : Nat := r.blocks.foldl (fun t b => if inPool b then t else t + b.bytes) 0

/-- Whether pre-empted request a comes back before b (R336). -/
def returnsBefore (s : State) (a b : Nat × Request) : Bool :=
  let la := latencyOf s a.2.graph
  let lb := latencyOf s b.2.graph
  if la = lb then decide (a.2.preemptedAt ≤ b.2.preemptedAt) else decide (la < lb)

/-- A request's blocks start to come back (R336), each to a free place in the pool; none if one finds no place. -/
def returnBlocks (s : State) (h : Nat) (r : Request) : Option State :=
  r.blocks.zipIdx.foldl (fun u bi => u.bind (fun t =>
    if inPool bi.1 then some t
    else (placeBlock t bi.1.bytes).map (fun a =>
      let v := reqMod t h (fun q => { q with blocks := lmod q.blocks bi.2 (fun x =>
        { x with location := .returning, dest := bi.1.location, destAt := bi.1.address, address := a }) })
      if bi.1.location = .peer then readBlock bi.1.port bi.1.address (blockImage bi.1).length v else v))) (some s)

/-- Starts bringing pre-empted requests back, in the order of R336, while the room lasts. -/
def bringBack (s : State) : State :=
  let away := (s.requests.filter (fun e => decide (e.2.state = .preempted) && !e.2.mirrored && !e.2.ended
    && !e.2.blocks.any (fun b => decide (b.location = .leaving)) && e.2.blocks.any (fun b => !inPool b))).mergeSort (returnsBefore s)
  let rec go : List (Nat × Request) → State → State
    | [], t => t
    | e :: es, t => match (if hasRoom t (awayBytes e.2) then returnBlocks t e.1 e.2 else none) with
      | some u => go es u
      | none => t
  go away s

/-! ### Pool and swap area (R329) -/

def bodyKvPoolSet (c : Ctx) (s : State) : State :=
  if c.par 0 2 < 64 ∨ 1024 < c.par 0 2 then replyInvalid c s (parDetail 0)
  else if s.jobs.any (fun j => match j.work with | .kvPool _ => true | _ => false) then replySt c s .busy
  else settlePool (startJob c { s with kv := { s.kv with newPool := some (c.par 0 2) } } (.kvPool (c.par 0 2)))

def bodyKvSwapRegister (c : Ctx) (s : State) : State :=
  if c.par 0 8 % 4096 ≠ 0 then replyInvalid c s (parDetail 0)
  else if c.par 8 8 % 4096 ≠ 0 ∨ 1099511627776 < c.par 8 8 then replyInvalid c s (parDetail 8)
  else if (ownBlocks s).any (fun b => decide (b.location = .hostSwap) ||
      decide ((b.location = .leaving ∨ b.location = .returning) ∧ b.dest = .hostSwap)) then replySt c s .busy
  else
    let area := if c.par 8 8 = 0 then none else some (BitVec.ofNat 64 (c.par 0 8), c.par 8 8)
    replyOk c { s with kv := { s.kv with swap := area } } []

/-! ### The rows -/

def execKvPoolSet (p : Pkt) (s : State) : Out State := .next (packetRow 0x0401 p s id bodyKvPoolSet)
def execKvSwapRegister (p : Pkt) (s : State) : Out State := .next (packetRow 0x0402 p s id bodyKvSwapRegister)
def execKvMapRead (p : Pkt) (s : State) : Out State := .next (packetRow 0x0403 p s id bodyKvMapRead)
def execKvBlockCopyComplete (seq : BitVec 32) (s : State) : Out State := .next (blockCopied seq.toNat s)
def execKvBlockReturned (seq : BitVec 32) (s : State) : Out State := .next (blockReturned seq.toNat s)

end Sys2Proof.Machine
end

