-- ==== Sys2Proof/Machine/StuckCells.lean ====
section
/-! DEFINITION. Cells of arrays: their targets (R26, R28, R61, R149, R152), and what stuck cells contribute to a layer's outputs (R155). -/

namespace Sys2Proof.Machine
open Sys2Proof

/-! ### Cells and their targets (R26, R28, R61, R149) -/

/-- Levels of a pair's two cells in a row: of a reference pair those of R28, of a row that neighbour adjustment changed those it chose (R152),
else those of the weight level (R26). -/
def cellsOf (x : OrArray) (pair row : Nat) : Nat × Nat :=
  let level := lgetD (lgetD x.levels pair []) row 0
  if 512 ≤ pair ∧ pair < 528 then referenceLevels pair row
  else match x.adjusted.find? (fun e => decide (e.1 = pair ∧ e.2.1 = row ∧ Int.ofNat e.2.2.1 - Int.ofNat e.2.2.2 = level)) with
    | some e => e.2.2
    | none => cellLevels level

/-- Target of a cell in 1/1,000 level. -/
def cellTarget (x : OrArray) (c : CellReading) : Int :=
  let w := cellsOf x c.pair c.row
  1000 * Int.ofNat (if c.positive then w.1 else w.2)

/-- How far a cell is from its target. -/
def cellError (x : OrArray) (c : CellReading) : Nat := (c.level - cellTarget x c).natAbs

/-- An array as an operation that programs it will leave it: the targets its cells are verified against (R61). -/
def programTarget (x : OrArray) : OrArray := { x with levels := x.content.levels }

/-- The pair whose result stands for a data pair (R29). -/
def standIn (arr : OrArray) (p : Nat) : Nat := ((arr.spares.find? (fun e => e.1 = p)).map (·.2)).getD p

/-! ### Expected errors over recorded inputs (R152, R155) -/

/-- Count squared times the variance of a list. -/
def spread (es : List Int) : Nat := (Int.ofNat es.length * es.foldl (fun t e => t + e * e) 0 - (es.foldl (· + ·) 0) ^ 2).toNat

/-- Whether an expected error of some count squared is at most n / d times a residual σ in 0.001 % of full scale. -/
def withinSigma (gain : Fin 4) (tokens spread sigma n d : Nat) : Bool :=
  decide (spread * (100000 * 2 ^ gain.val * d) ^ 2 ≤ (sigma * n * 1000 * tokens * 32512) ^ 2)

/-- What part of an 8-bit weight's product an array's result counts as (R55). -/
def nibbleWeight (n : Nibble) : Int := match n with | .high => 16 | _ => 1

/-- Count squared times the expected squared error that the stuck cells of a layer's arrays bring to an output, over its recorded inputs: the
output of a pair of a column block and, in SEPARATE mode, of a row phase (R39, R155). -/
def outputSpread (s : State) (place : ArrayPlace) (tokens : List (List (List Int))) (col pair phase : Nat) : Nat :=
  let p := place.layer
  let mine := fun (row : Nat) => p.sum || decide (row / (512 / p.phases) = phase)
  let rows := fun (a : Nat) =>
    let x := arrGet s a
    ((x.stuck.filter (fun c => decide (c.pair = standIn x pair) && mine c.row)).map (fun c =>
      (c.row, nibbleWeight (nibbleOf p a) * (if c.positive then c.level - cellTarget x c else cellTarget x c - c.level))))
  let arrays := p.arrays.filter (fun e => e.2.2 = col)
  spread (tokens.map (fun t => arrays.foldl (fun n e =>
    (rows e.1.val).foldl (fun m r => m + r.2 * lgetD (lgetD t e.2.1 []) r.1 0) n) 0))

/-- Whether a layer's stuck cells have a predicted contribution above three times an array's σ, in any output (R155); without recorded
inputs none is predicted (log entry 99). -/
def contributionHigh (s : State) (place : ArrayPlace) (a : Nat) : Bool :=
  let p := place.layer
  let tokens := (historyGet s place.lane p.node).tokens
  ((p.arrays.map (·.2.2)).eraseDups).any (fun col => (List.range 512).any (fun pair =>
    (List.range (if p.sum then 1 else p.phases)).any (fun j =>
      !withinSigma p.gain tokens.length (outputSpread s place tokens col pair j) (arrGet s a).sigma 3 1)))

/-- Whether the stuck cells that a repair adapter is to absorb have so high a contribution now (R155). -/
def adapterHigh (s : State) (e : RepairAdapter) : Bool :=
  e.arrays.any (fun a => (arrayPlaces s a.val).any (fun p =>
    decide (p.lane = e.lane ∧ p.layer.node = e.node ∧ p.replica = e.replica) && contributionHigh s p a.val))

end Sys2Proof.Machine
end

