-- ==== Sys2Proof/Machine/Drift.lean ====
section
/-! DEFINITION. What happens to arrays at step boundaries and at calibration gaps (R125–R132, R138–R140, R143): intervals,
activation, tracking, programming again, and which calibration starts. -/

namespace Sys2Proof.Machine
open Sys2Proof

/-! ### Intervals and due times (R125, R126) -/

/-- Highest reading of a quarter's four remote diodes (R117), in 0.125 °C; R572's quarter temperature if all have failed. -/
def diodeTop (s : State) (q : Nat) : Int :=
  (hottest ((s.thermal.channels.drop (4 * q)).take 4)).getD (quarterTemp s.thermal q)

/-- The calibration interval in force, in ms (R125, R80), by the quarter's temperature (R572). -/
def intervalMs (s : State) (a : Nat) : Nat :=
  let t := quarterTemp s.thermal (a / 524288)
  let full := if t < 640 then 8000 else if t < 720 then 4000 else if t < 800 then 2000 else if t < 880 then 1000 else 500
  if (siteGet s (a / 8)).fixed then full / 2 else full

/-- Whether a factor leaves 1 ± n/1000 (R131, R132). -/
def tauOutside (n tau : Nat) : Bool := decide (tau * 1000 < (1000 - n) * 32768) || decide ((1000 + n) * 32768 < tau * 1000)

/-- Due times are computed anew where the interval in force is no longer what it was in state `old` (R126): one that has passed makes
the calibration due, one that has moved away withdraws it unless τ asks for it (R131). -/
def recomputeDue (old s : State) : State :=
  { s with arrays := smapAll s.arrays (fun a x =>
      if intervalMs old a = intervalMs s a ∨ x.active.isNone then x
      else { x with due := decide (x.activatedAt + intervalMs s a * 1000000 ≤ hostTime s) || tauOutside 15 x.tau }) }

/-! ### Tracking (R130–R132) -/

/-- The tracking factor at a boundary (R130); 1.0 until 256 array steps have passed. The quotient is rounded to the nearest value of the
field, ties to even (log entry 89); where it is no value of the field the manual states none (log entry 13). -/
def trackTau (x : OrArray) : Nat :=
  if x.tracking.length < 256 then x.tau
  else
    let p := x.tracking.foldl (fun t e => t + e.1) 0
    let m := x.tracking.foldl (fun t e => t + e.2) 0
    let q := if m = 0 then -1 else rneInt (p * 32768 * m.sign) m.natAbs
    if q < 0 ∨ 65535 < q then Config.tauUnstated p m % 65536 else q.toNat

/-- What a boundary of its lane does to an array (R130–R132, R138). -/
def boundaryArray (s : State) (a : Nat) : State :=
  let s1 := activateTable s a
  let old := intervalMs s a * 8000000
  arrMod s1 a (fun x =>
    let tau := trackTau x
    { x with
      tau := tau
      due := x.due || tauOutside 15 tau
      withdrawn := x.withdrawn || tauOutside 50 tau || (x.active.isSome && decide (x.activatedAt + old < hostTime s)) })

/-- A changed trigger delay takes effect at a site (R92). -/
def boundaryDelay (s : State) (n : Nat) : State :=
  let x := siteGet s n
  if x.delay = x.nextDelay then s
  else siteMod s n (fun y => { y with
    delay := y.nextDelay
    control := if isHost y.activity then y.control
      else siteControl y.nextDelay (fld y.control.toNat 31 30) (fld y.control.toNat 29 27) })

/-! ### Programming again (R57, R67, R68, R153) -/

/-- What an array is programmed with again: the generation it holds, while its golden copy is at hand (R51, R67). -/
def sameContents (s : State) (a : Nat) : Option Programming :=
  let x := arrGet s a
  s.objects.findSome? (fun o =>
    if x.ownerKind ≠ 0 ∧ ownerCode o.kind = x.ownerKind ∧ o.handle = x.owner
        ∧ o.gens.any (fun g => decide (g.number = x.generation) && g.shards.all (·.verified)) then
      if h : a < 2097152 then
        some { array := ⟨a, h⟩, owner := o.kind, handle := o.handle, generation := BitVec.ofNat 16 x.generation }
      else none
    else none)

/-- Whether an array is to be programmed again: a repair or a refresh waits for it, or a reset cut its programming short, so that it
fails the verification of R68 (log entry 26). -/
def wantsProgram (x : OrArray) : Bool :=
  (decide (x.state = .programmed) || decide (x.state = .serving)) && !x.wearLimited && (x.reprogram || (x.levels.isEmpty && decide (x.wear ≠ 0)))

/-- Programs an array again if it is to be and may be. -/
def programAgain (s : State) (a : Nat) : State :=
  if wantsProgram (arrGet s a) ∧ mayProgram s a then
    match sameContents s a with
    | some p => if (contentFor s p).isSome then beginProgram s p else s
    | none => s
  else s

/-! ### Which calibration starts (R124, R127, R129, R141, R143) -/

/-- A request of ARRAY_CAL_RUN that waits for an array. -/
def calRequested (s : State) (a : Nat) : Bool := s.jobs.any (fun j => match j.work with | .arrayCal b _ => decide (b = a) | _ => false)

/-- Whether an array wants a calibration: requested (R141), a retry pending (R134), or due (R126, R127). R127 leaves a free array out of
those calibrated at an interval, and R141 refuses no request for one: a requested one runs (log entry 90). -/
def calWanted (s : State) (a : Nat) : Bool :=
  let x := arrGet s a
  (decide (x.state = .programmed) || decide (x.state = .serving)) && !x.levels.isEmpty &&
    (calRequested s a || (ownerHolds s x && (x.retry.isSome || x.due)))

/-- Whether array a goes before array b at a gap: no table, then the older active table (R129), then the lower number. -/
def olderTable (s : State) (a b : Nat) : Bool :=
  let x := arrGet s a
  let y := arrGet s b
  if x.active.isNone ∨ y.active.isNone then decide (x.active.isNone ∧ (y.active.isSome ∨ a ≤ b))
  else if x.activatedAt = y.activatedAt then decide (a ≤ b) else decide (x.activatedAt < y.activatedAt)

/-- The array whose calibration starts next at a site, among those `may` admits. -/
def nextDue (s : State) (may : Nat → Bool) (n : Nat) : Option Nat :=
  (((List.range 8).map (fun i => 8 * n + i)).filter (fun a => may a && calWanted s a)).foldl (fun m a => match m with
    | none => some a
    | some b => if olderTable s a b then some a else some b) none

/-- A calibration starts at the Connect phase (R119): it occupies the site and takes up the requests that wait; the temperature of R117 is
taken. A retry is a calibration of its own: its rounds and temperature are what R117 and R141 give (log entry 91). -/
def startCalibration (s : State) (a : Nat) : State :=
  let s1 := arrMod s a (fun x => { x with
    state := .calibrating, due := false, calTemp := diodeTop s (a / 524288), fit := [], zeroCodes := [] })
  let s2 := { s1 with jobs := s1.jobs.map (fun j => match j.work with
    | .arrayCal b _ => if b = a then { j with work := .arrayCal b true } else j
    | _ => j) }
  siteMod s2 (a / 8) (fun x => { x with
    activity := .calibrating a 1 s.now, entries := serviceTable (arrayGain s a) true, control := siteControl x.delay 2 (a % 8) })

/-- The oldest calibration wanted at a site starts, one at a time in a Quartz unit (R124, R129). -/
def calibrateSite (may : Nat → Bool) (s : State) (n : Nat) : State :=
  if siteFree s n ∧ mayWork s n (.calibrating 0 0 0) ∧ !unitActive s (n / 16) isCalibrating then
    match nextDue s may n with
    | some a => startCalibration s a
    | none => s
  else s

/-- Whether a lane is in HOLD mode (R142). -/
def holdLane (s : State) (g : Nat) : Bool := ((sget s.graphs g).map (·.settings.hold)).getD false

/-- Whether an array serves a lane in HOLD mode, whose plan has no gaps (R143). -/
def holdArray (s : State) (a : Nat) : Bool := (layersOf s a ++ lanesLayersOf (planLanes s) a).any (fun e => holdLane s e.1)

/-! ### A lane's boundary -/

/-- Whether two entries are of one layer and replica (R154). -/
def sameAdapter (a b : RepairAdapter) : Bool := decide (a.lane = b.lane ∧ a.node = b.node ∧ a.replica = b.replica)

/-- A trained repair adapter takes effect, in place of the one its layer and replica had (R154). -/
def adapterTakes (l : List RepairAdapter) (e : RepairAdapter) : List RepairAdapter :=
  let old := l.filter (fun x => x.inEffect && sameAdapter x e)
  l.filter (fun x => !(sameAdapter x e && (x.inEffect || decide (x = e)))) ++
    [{ e with inEffect := true, wide := false, arrays := (old.flatMap (·.arrays) ++ e.arrays).eraseDups }]

/-- Repair adapters of a lane that have been trained take effect, and their layers leave the wide path (R154, R155) unless an array of
theirs has failed. -/
def adaptersTakeEffect (s : State) (g : Nat) : State :=
  let ready := s.repairAdapters.filter (fun e => decide (e.lane = g) && e.trained.isSome && !e.inEffect)
  if ready.isEmpty then s
  else
    let s1 := { s with repairAdapters := ready.foldl adapterTakes s.repairAdapters }
    laneMod s1 g (fun l => { l with wideNodes := l.wideNodes.filter (fun n =>
      !ready.any (fun e => e.node = n) || (failedLayers s l.plan).contains n || adapterAwaited s1 g n) })

/-- Adapters of a lane that are in training are judged again at its boundary: a layer whose stuck cells contribute too much runs on the wide path
until its adapter takes effect, any other as it is (R155). -/
def adaptersJudged (s : State) (g : Nat) : State :=
  let training := s.repairAdapters.filter (fun e => decide (e.lane = g) && !e.inEffect)
  if training.isEmpty then s
  else
    let s1 := { s with repairAdapters := s.repairAdapters.map (fun e =>
      if e.lane = g ∧ !e.inEffect then { e with wide := adapterHigh s e } else e) }
    let high := ((s1.repairAdapters.filter (fun e => decide (e.lane = g) && !e.inEffect && e.wide)).map (·.node)).eraseDups
    laneMod s1 g (fun l =>
      let stay := l.wideNodes.filter (fun n => !training.any (fun e => decide (e.node = n) && e.wide) || (failedLayers s l.plan).contains n
        || high.contains n)
      { l with wideNodes := stay ++ high.filter (fun n => !stay.contains n) })

/-- The first array a lane's plan has at a site, with its layer. -/
def siteUse (l : Lane) (n : Nat) : Option (LayerPlan × Nat) :=
  l.plan.layers.findSome? (fun p => ((layerArrays p).find? (fun a => a / 8 = n)).map (fun a => (p, a)))

/-- The sequence table and the tier of a lane's plan are loaded at a site (R86), unless other work holds it; where a step's layers differ
in gain or spares, each array step brings its own (log entry 25). -/
def loadTable (l : Lane) (s : State) (n : Nat) : State :=
  match siteUse l n with
  | none => s
  | some (p, a) => siteMod s n (fun x =>
      if x.activity ≠ .none ∨ x.step.isSome ∨ !x.starting.isEmpty then x
      else { x with entries := serviceTable p.gain (!(arrGet s a).spares.isEmpty), control := siteControl x.delay 1 (a % 8) })

/-- What a lane's boundary does to its arrays: layers of retired arrays become wide (R136), repair adapters and delays take effect,
tables become active, sites take up the plan's sequence tables, arrays that wait for it are programmed again; in HOLD mode calibrations that are due start (R143). -/
def boundaryArrays (s : State) (g : Nat) : State :=
  match sget s.lanes g with
  | none => s
  | some l =>
    let arrays := laneArrays l
    let sites := (arrays.map (· / 8)).eraseDups
    let s1 := adaptersJudged (adaptersTakeEffect (laneMod s g (fun x => { x with
      wideNodes := x.wideNodes ++ x.wideNext.filter (fun n => !x.wideNodes.contains n), wideNext := [] })) g) g
    let s2 := arrays.foldl programAgain (sites.foldl (loadTable l) (sites.foldl boundaryDelay (arrays.foldl boundaryArray s1)))
    if holdLane s g then sites.foldl (calibrateSite (fun _ => true)) s2 else s2

/-- Whether an array awaits the verification and the calibration that R68 and R568 ask for before lanes resume. -/
def awaitsTable (s : State) (x : OrArray) : Bool :=
  (decide (x.state = .programmed) || decide (x.state = .serving) || decide (x.state = .calibrating))
    && (x.active.isNone || !x.verified) && ownerHolds s x

/-- Whether a lane that waits may step again (R366, R513, R533, R568): its quarters are there, the golden copies of what it
runs have been fetched, and every programmed array has been verified and calibrated. -/
def laneRecovered (s : State) (g : Nat) : Bool :=
  match sget s.lanes g with
  | none => false
  | some l =>
    s.planner.lostQuarters.all (fun q => !(l.plan.quarters.toNat.testBit q))
      && !s.arrays.any (fun e => awaitsTable s e.2)
      && laneVerified s l

/-- A lane that waited steps again from this boundary on (R513, R533, R568). -/
def resumeLane (s : State) (g : Nat) : State :=
  if laneRecovered s g then laneMod s g (fun l => { l with sitsOut := false }) else s

/-! ### Layers on the wide path -/

/-- Whether an array holds another generation than a lane runs: its layer is wide until the new one is placed (R360, R361). -/
def otherGeneration (l : Lane) (x : OrArray) : Bool :=
  l.generation.any (fun e => decide (ownerCode e.1 = x.ownerKind ∧ e.2.1 = x.owner ∧ x.ownerKind ≠ 0 ∧ e.2.2 ≠ x.generation))

/-- Whether an array cannot serve a lane now: withdrawn (R132), without a table, quarantined (R190), of another generation, or at a site
that is being programmed (R59) or diagnosed (R107). -/
def arrayAway (s : State) (l : Lane) (a : Nat) : Bool :=
  let x := arrGet s a
  let work := (siteGet s (a / 8)).activity
  x.withdrawn || x.active.isNone || decide (x.state = .quarantined) || otherGeneration l x || isProgramming work
    || (match work with | .diagnosing _ => true | _ => false)

/-- Whether a layer runs on the wide path: told so (R136, R155, R177), or one of its arrays cannot serve. -/
def layerIsWide (s : State) (g node : Nat) : Bool :=
  match sget s.lanes g with
  | none => false
  | some l => l.wideNodes.contains node
      || (l.plan.layers.filter (fun y => y.node = node)).any (fun y => (layerArrays y).any (arrayAway s l))

end Sys2Proof.Machine
end

