-- ==== Sys2Proof/Machine/Calibrate.lean ====
section
/-! DEFINITION. Calibration of arrays (R115–R141): the fit, what ends a round, timeouts and retirement; the spare slice and the
slices' own calibration (R75–R82). -/

namespace Sys2Proof.Machine
open Sys2Proof

/-! ### When a calibration is due (R126–R129) -/

/-- CALIBRATION_DUE: one interval of host time has passed since the active table took effect, or none is active (R118). -/
def calibrationFallsDue (a : Nat) (s : State) : State :=
  let x := arrGet s a
  if x.active.isNone ∨ x.activatedAt + intervalMs s a * 1000000 ≤ hostTime s then arrMod s a (fun y => { y with due := true }) else s

/-- CALIBRATION_GAP (R129), while the engine runs: programming that waits for the site starts, else the oldest calibration wanted there;
an array of a lane in HOLD mode waits for the lane's boundary (R143). -/
def calibrationGap (n : Nat) (s : State) : State :=
  if !isRunning s ∨ s.power.state = .dormant then s
  else
    let s1 := ((List.range 8).map (fun i => 8 * n + i)).foldl programAgain (startPrograms s)
    calibrateSite (fun a => !holdArray s1 a) s1 n

/-! ### The fit (R119–R123) -/

/-- Sum of a pair's levels over a 64-row block. -/
def blockSum (x : OrArray) (pair b : Nat) : Int := (((lgetD x.levels pair []).drop (64 * b)).take 64).foldl (· + ·) 0

/-- Whether a pair is a reference pair, converted at ×1. -/
def isReference (pair : Nat) : Bool := decide (512 ≤ pair ∧ pair < 528)

/-- A sweep's prediction for a pair is blockSum over this, in codes: 32 / g pulse steps, 256 / g level-steps a code, or 256 at
×1. -/
def predictionUnit (g : Fin 4) (pair : Nat) : Nat := if isReference pair then 8 * 2 ^ g.val else 8

/-- The block sums of the 144 sweeps: 16 without a row driven, then 16 of each block (R119). -/
def sweepSums (x : OrArray) (pair : Nat) : List Int :=
  List.replicate 16 0 ++ (List.range 8).flatMap (fun b => List.replicate 16 (blockSum x pair b))

/-- Whether all eight block predictions lie below 64 level-steps (R123). -/
def gainUnmeasured (x : OrArray) (g : Fin 4) (pair : Nat) : Bool :=
  (List.range 8).all (fun b => decide ((blockSum x pair b).natAbs * 32 < 64 * 2 ^ g.val))

/-- Sum of a list. -/
def sumInt (l : List Int) : Int := l.foldl (· + ·) 0

/-- Least-squares gain and offset of a pair from its codes and block sums (R120): the gain kept where it cannot be measured
(R123), both rounded to their fields (log entry 27). Codes that are all equal fit no gain either, and the rule names none for them: the
pair keeps its gain too (log entry 92). -/
def fitPair (keep : Nat) (unmeasured : Bool) (unit : Nat) (codes sums : List Int) : Nat × Int :=
  let n := Int.ofNat codes.length
  let sx := sumInt codes
  let sy := sumInt sums
  let var := n * sumInt (List.zipWith (· * ·) codes codes) - sx * sx
  let gain := if unmeasured ∨ var ≤ 0 then keep
    else (max 0 (min 65535 (rneInt (32768 * (n * sumInt (List.zipWith (· * ·) codes sums) - sx * sy)) (unit * var.toNat)))).toNat
  let num := if gain = 0 then 256 * sx else 256 * (sx * Int.ofNat (unit * gain) - 32768 * sy)
  let den := if gain = 0 then codes.length else codes.length * unit * gain
  (gain, max (-32768) (min 32767 (rneInt num den)))

/-- The gain a pair keeps: that of the previous round, of the last calibration that converged, or 1.0 (R122, R123). -/
def keptGain (x : OrArray) (pair : Nat) : Nat :=
  match x.fit[pair]? with
  | some e => e.1
  | none => lgetD x.gains pair 0x8000

/-- The fit of a round. -/
def fitArray (x : OrArray) (g : Fin 4) (codes : List (List Int)) : List (Nat × Int) :=
  (List.range 544).map (fun p =>
    fitPair (keptGain x p) (gainUnmeasured x g p) (predictionUnit g p) (codes.map (fun c => lgetD c p 0)) (sweepSums x p))

/-- Corrected result less prediction, in 1/(2^23 × g) code for a reference pair and 1/2^23 code otherwise. -/
def fitError (g : Fin 4) (pair : Nat) (e : Nat × Int) (code sum : Int) : Int :=
  (code * 256 - e.2) * Int.ofNat e.1 * (if isReference pair then Int.ofNat (2 ^ g.val) else 1) - sum * 1048576

/-- Residual σ in 0.001 % of the full scale of 127 codes, over the data pairs and the 144 sweeps (R120). -/
def fitSigma (x : OrArray) (g : Fin 4) (fit : List (Nat × Int)) (codes : List (List Int)) : Nat :=
  let total := ((numbered fit).take 512).foldl (fun t e =>
    t + ((List.zipWith (fitError g e.1 e.2) (codes.map (fun c => lgetD c e.1 0)) (sweepSums x e.1)).foldl (fun u r => u + r.natAbs ^ 2) 0)) 0
  min 65535 ((Nat.sqrt (4 * (total * 10 ^ 10) / (512 * 144 * 2 ^ 46 * 127 ^ 2)) + 1) / 2)

/-- Whether a round has converged (R121). -/
def converged (x : OrArray) (g : Fin 4) (fit : List (Nat × Int)) (sigma : Nat) (check : List (List Int)) : Bool :=
  decide (sigma ≤ 1000) && (fit.take 512).all (fun e => decide (0x4000 ≤ e.1 ∧ e.1 ≤ 0xBFFF)) &&
    (List.range 8).all (fun b => (List.range 8).all (fun i =>
      let p := 512 + i
      decide ((fitError g p (lgetD fit p (0x8000, 0)) (lgetD (lgetD check b []) p 0) (blockSum x p b)).natAbs ≤ 3 * 2 ^ 22 * 2 ^ g.val)))

/-! ### How a calibration ends (R122, R133–R138, R141) -/

/-- Codes and flags of a calibration sweep: reference pairs at ×1, the others at the layer's gain (R119, R71, R72). -/
def sweepCodes (g : Fin 4) (charges : List Int) : List (Int × Bool) :=
  (List.range 544).map (fun p => convert (if isReference p then 0 else g) (lgetD charges p 0))

/-- Saturated data and reference conversions of sweeps over all pairs (R104). -/
def sweepSaturations (sweeps : List (List (Int × Bool))) : Nat × Nat :=
  sweeps.foldl (fun t sw => (numbered sw).foldl (fun u e =>
    if !e.2.2 then u else if isReference e.1 then (u.1, u.2 + 1) else (u.1 + 1, u.2)) t) (0, 0)

/-- Adds to a site's cumulative counts (R104). -/
def countSat (x : Site) (c : Nat × Nat) : Site := { x with satData := satAdd32 x.satData c.1, satRef := satAdd32 x.satRef c.2 }

/-- The array and the round of the calibration under way at a site. -/
def calibrationAt (s : State) (n : Nat) : Option (Nat × Nat × Nat) :=
  match (siteGet s n).activity with
  | .calibrating a r t => some (a, r, t)
  | _ => none

/-- Answers the requests of ARRAY_CAL_RUN that the calibration of an array carried out (R141). -/
def answerCal (s : State) (a : Nat) (st : Status) (result : Bytes) : State :=
  finishJobs s (fun j => match j.work with
    | .arrayCal b true => if b = a then some (st, 0, result) else none
    | _ => none)

/-- The site of a calibration is released (R119, R133): the array is in the state it was in. -/
def releaseCal (s : State) (n a : Nat) : State :=
  siteReleased (arrMod s a (fun x => { x with state := restState s a, fit := [], zeroCodes := [] })) n

/-- A calibration has raised a site's trigger delay, to at most 12 ns (R93; log entry 36): it acts from the next step boundary (R92), at
once where nothing of the site serves. -/
def raiseDelay (s : State) (n delayNs : Nat) : State :=
  let s1 := siteMod s n (fun x => { x with nextDelay := max x.nextDelay (min 12 delayNs) })
  if (List.range 8).any (fun i => inService s (8 * n + i)) then s1 else boundaryDelay s1 n

/-- An array found transiently at fault that has been scrubbed and recalibrated goes to the free pool (R109). -/
def settleRecovered (s : State) (a : Nat) : State :=
  arrMod s a (fun x => if x.recovering && x.verified && x.calibrated then
    { x with recovering := false, ownerKind := 0, owner := 0, generation := 0, due := false } else x)

/-- A calibration has converged: its table is staged, and active at once if no installed lane serves from the array (R138). -/
def calibrationDone (s0 : State) (n a rounds sigma : Nat) (fit : List (Nat × Int)) (delayNs : Nat) : State :=
  let s := raiseDelay s0 n delayNs
  let s1 := arrMod (releaseCal s n a) a (fun x => { x with
    staged := some { entries := fit, rounds := rounds, temperature := rneInt x.calTemp 8, sigma := sigma }
    result := 1, sigma := sigma, retry := none, calibrated := true, gains := fit.map (·.1) })
  let s2 := settleRecovered (if inService s a then s1 else activateTable s1 a) a
  answerCal s2 a .ok (padTo 2 (leBytes 1 rounds) ++ leBytes 2 sigma)

/-- A calibration has timed out (R133): the first time a retry is pending (R134), the second time the array is retired with
CAL_FAILED (R135, R137). -/
def calibrationFails (s : State) (n a rounds : Nat) : State :=
  let s1 := releaseCal s n a
  match (arrGet s a).retry with
  | none => arrMod s1 a (fun x => { x with result := 2, retry := some rounds })
  | some first =>
    let s2 := answerCal (arrMod s1 a (fun x => { x with result := 3, retry := none })) a .calFailed []
    report (retireArray s2 a) 0x03 3 (arrayUid a) (padTo 4 (leBytes 2 Status.calFailed.code) ++ leBytes 1 first ++ leBytes 1 rounds)

/-- CALIBRATION_ROUND_END (R121, R122): converged, a further round at once, or timed out. The operands are the charges of the round's
sweeps; a further round keeps the zero sweeps of the first. -/
def roundEnds (n : Nat) (charges check : List (List Int)) (timerNs delayNs : Nat) (s : State) : State :=
  match calibrationAt s n with
  | none => s
  | some (a, r, t) =>
    let x := arrGet s a
    let g := arrayGain s a
    let sweeps := charges.map (sweepCodes g)
    let checks := check.map (sweepCodes g)
    let codes := (if r = 1 then [] else x.zeroCodes) ++ sweeps.map (fun sw => sw.map (·.1))
    let fit := fitArray x g codes
    let sigma := fitSigma x g fit codes
    let s1 := siteMod s n (fun y => countSat y (sweepSaturations (sweeps ++ checks)))
    if converged x g fit sigma (checks.map (fun sw => sw.map (·.1))) then calibrationDone s1 n a r sigma fit delayNs
    else if timerNs ≤ 175000 then
      arrMod (siteMod s1 n (fun y => { y with activity := .calibrating a (r + 1) t })) a (fun y => { y with fit := fit, zeroCodes := codes.take 16 })
    else calibrationFails s1 n a r

/-- CALIBRATION_TIMEOUT (R133): the site's timer, held to ±5 %, reads 250 µs. -/
def calibrationTimesOut (n : Nat) (s : State) : State :=
  match calibrationAt s n with
  | some (a, r, t) => if t + 237500 ≤ s.now then calibrationFails s n a r else s
  | none => s

/-! ### Slices (R75–R82) -/

/-- SPARE_ROTATION (R75), once the start-up calibration has ended: the spare goes to its next position. At a site that fires it waits for
the handover, or for the end of the continuous run (R77, R78). A permanent stand-in stops the rotation (R79). -/
def rotateSpare (n : Nat) (s : State) : State :=
  if !isRunning s ∨ s.power.state = .dormant then s
  else siteMod s n (fun x =>
    if x.fixed ∨ !x.starting.isEmpty then x else if siteFires x then { x with swapDue := true } else advanceSpare x)

/-- The site is quarantined: all eight arrays, with a record (R81). -/
def siteQuarantined (s : State) (n cause : Nat) : State :=
  report (startDiagnosis (quarantineSite s n) n) 0x07 3 (siteUid n 0) (leBytes 1 cause)

/-- Whether a slice calibrates: each of them at start-up (R82), the position the spare stands in for, the spare itself (R75). -/
def sliceCalibrates (x : Site) (slice : Nat) : Bool :=
  x.starting.contains slice || (!x.fixed && (decide (x.spare = slice) && decide (slice < 16) || decide (x.spare = 17 ∧ slice = 16)))

/-- Whether a trim reaches its limits at every gain: offset within ±0.25 code, differential non-linearity within ±0.5 code (R76). -/
def trimReached (trim : List (Int × Nat)) : Bool :=
  decide (trim.length = 4) && trim.all (fun e => decide (e.1.natAbs ≤ 250 ∧ e.2 ≤ 500))

/-- The spare takes a position for good (R79): the calibration interval of the site's arrays is halved (R80, R126). -/
def fixSpare (s : State) (n slice : Nat) : State :=
  recomputeDue s (siteMod s n (fun y => { y with spare := slice, fixed := true, failedSlice := slice, swapDue := false }))

/-- A position slice has failed its calibration twice: the spare takes its place for good (R79), or the site is quarantined if
the spare is already taken (R81) or has failed itself (log entry 28). -/
def sliceFails (s : State) (n slice : Nat) : State :=
  let x := siteGet s n
  if x.fixed ∧ x.failedSlice = slice then s
  else if x.fixed ∨ x.spareFailed then siteQuarantined s n 1
  else report (fixSpare s n slice) 0x06 2 (siteUid n slice) (leBytes 1 slice)

/-- A slice's calibration is over; with the last of the start-up the site leaves continuous mode (R82), where no other work holds it. -/
def sliceDone (slice : Nat) (x : Site) : Site :=
  let y := { x with failedOnce := x.failedOnce.filter (fun z => z ≠ slice), starting := x.starting.filter (fun z => z ≠ slice) }
  if !x.starting.isEmpty ∧ y.starting.isEmpty ∧ x.activity = .none then { y with control := restControl y (fld y.control.toNat 29 27) } else y

/-- SLICE_CALIBRATION (R76, R79, R82): a trim that misses its limits is tried again, at start-up at once, and the second failure
counts. -/
def sliceEnds (n slice : Nat) (trim : List (Int × Nat)) (s : State) : State :=
  let x := siteGet s n
  if !sliceCalibrates x slice then s
  else if trimReached trim then siteMod s n (sliceDone slice)
  else if !x.failedOnce.contains slice then siteMod s n (fun y => { y with failedOnce := slice :: y.failedOnce })
  else if slice = 16 then siteMod s n (fun y => { sliceDone slice y with spareFailed := true })
  else sliceFails (siteMod s n (sliceDone slice)) n slice

/-! ### The rows -/

def execCalibrationDue (array : ArrayNo) (s : State) : Out State := .next (calibrationFallsDue array.val s)
def execCalibrationGap (site : SiteNo) (s : State) : Out State := .next (calibrationGap site.val s)
def execCalibrationRoundEnd (site : SiteNo) (charges check : List (List Int)) (timerNs delayNs : Nat) (s : State) : Out State :=
  .next (roundEnds site.val charges check timerNs delayNs s)
def execCalibrationTimeout (site : SiteNo) (s : State) : Out State := .next (calibrationTimesOut site.val s)
def execSpareRotation (site : SiteNo) (s : State) : Out State := .next (rotateSpare site.val s)
def execSliceCalibration (site : SiteNo) (slice : Fin 17) (trim : List (Int × Nat)) (s : State) : Out State :=
  .next (sliceEnds site.val slice.val trim s)

end Sys2Proof.Machine
end

