-- ==== Sys2Proof/Machine/LayerSteps.lean ====
section
/-! DEFINITION. The layer steps of the Quartz correction path (R157–R182, R194): settings, selection, what an attempt needs,
replays and the wide path, partials and their combination, the norm watch, tiles and drains. -/

namespace Sys2Proof.Machine
open Sys2Proof

/-! ### Layer steps and their layers -/

def stepGet (s : State) (k : LayerKey) : Option LayerStep := s.layerSteps.find? (fun x => x.key = k)

def stepMod (s : State) (k : LayerKey) (f : LayerStep → LayerStep) : State :=
  { s with layerSteps := s.layerSteps.map (fun x => if x.key = k then f x else x) }

/-- The layer of a layer step, as the array set that drives it holds it (R283). -/
def keyLayer (s : State) (k : LayerKey) : Option LayerPlan :=
  (layerNow s k.lane.val k.node).map (fun p => onReplica p (((stepGet s k).map (·.replica)).getD 0))

/-- The array set of a layer that a site's drive belongs to: the first with an array at the site. -/
def replicaAt (p : LayerPlan) (n : Nat) : Nat :=
  ((numbered (layerSets p)).find? (fun e => e.2.arrays.any (fun a => a.1.val / 8 = n))).elim 0 (·.1)

/-- Generation of an object that a lane runs. -/
def laneGen (s : State) (g : Nat) (k : ObjKind) (h : Nat) : Option Nat :=
  (sget s.lanes g).bind (fun l => (l.generation.find? (fun e => decide (e.1 = k ∧ e.2.1 = h))).map (·.2.2))

/-- The golden weights of a layer in the generation its lane runs. -/
def laneGolden (s : State) (g node : Nat) : Option Golden := goldenAt s g node (laneGen s g)

/-- Sites and Quartz units a layer's arrays stand at. -/
def layerUnits (p : LayerPlan) : List Nat := (p.arrays.map (fun a => a.1.val / 128)).eraseDups

/-- Column blocks of a layer, ascending. -/
def layerColumns (p : LayerPlan) : List Nat := ((p.arrays.map (fun a => a.2.2)).eraseDups).mergeSort (fun a b => decide (a ≤ b))

/-- The array of a block, the high one of an 8-bit layer. -/
def blockArray (p : LayerPlan) (col row : Nat) : Option Nat :=
  (p.arrays.find? (fun e => decide (e.2.1 = row ∧ e.2.2 = col) && !isLow p e.1.val)).map (·.1.val)

/-- Inputs a row block takes: 512 in SUM mode, one row phase's rows in SEPARATE mode (R39). -/
def blockWidth (p : LayerPlan) : Nat := if p.sum then 512 else 512 / p.phases

/-- Row blocks of an input vector: the partials of each output (R220). -/
def blockCount (p : LayerPlan) (xs : List F32) : Nat := (xs.length + blockWidth p - 1) / blockWidth p

/-- Pads a list of inputs with zeros. -/
def padF32 (n : Nat) (xs : List F32) : List F32 := (xs ++ List.replicate (n - xs.length) 0).take n

/-- The 512 row values of a row block; in SEPARATE mode every row phase drives the same inputs. -/
def blockInputs (p : LayerPlan) (xs : List F32) (row : Nat) : List F32 :=
  let w := blockWidth p
  let b := padF32 w (xs.drop (row * w))
  if p.sum then b else (List.range p.phases).flatMap (fun _ => b)

/-! ### Selection and quantisation (R159–R161, R172, R215, R216) -/

/-- What selection makes of a row block. -/
structure Selection where
  outliers : List (Nat × F32)
  scale : F32
  ints : List Int
  deriving DecidableEq, Repr

/-- Selection of a row block; `rescaled`: under R160 whatever the scale mode (R172). -/
def selectBlock (p : LayerPlan) (rescaled : Bool) (row : Nat) (block : List F32) : Selection :=
  let q := { p with perVector := p.perVector || rescaled }
  let outs := selectOutliers q p.inputScale ((p.persistent.filter (fun e => e.1 = row)).map (·.2)) block
  let taken := outs.map (·.1)
  let rows := numbered block
  let scale := if q.perVector then perVectorScale p.mode ((rows.filter (fun r => !taken.contains r.1)).map (·.2)) else p.inputScale
  { outliers := outs, scale := scale
    ints := rows.map (fun r => if taken.contains r.1 then outlierInt p.mode else (driveInt scale r.2).getD 0) }

/-- Selection of row block `row` of a layer step. -/
def stepSelection (p : LayerPlan) (ls : LayerStep) (row : Nat) : Selection :=
  selectBlock p ls.rescaled row (blockInputs p ls.inputs row)

/-- Outlier channels of each row block. -/
def outlierCounts (p : LayerPlan) (ls : LayerStep) : List Nat :=
  (List.range (blockCount p ls.inputs)).map (fun r => (stepSelection p ls r).outliers.length)

/-- Candidate channels of a layer step, each as row block × 512 + row (R162). -/
def stepCandidates (p : LayerPlan) (ls : LayerStep) : List Nat :=
  (List.range (blockCount p ls.inputs)).flatMap (fun b =>
    (candidateRows p p.inputScale ((p.persistent.filter (fun e => e.1 = b)).map (·.2)) (blockInputs p ls.inputs b)).map
      (fun r => b * 512 + r))

/-! ### Counting (R192, R194) -/

/-- Adds to a count of a layer at a Quartz unit. -/
def countLayer (s : State) (u g node i n : Nat) : State :=
  quartzMod s u (fun q =>
    let c := (q.counts.find? (fun x => x.lane = g ∧ x.node = node)).getD { lane := g, node := node }
    let c1 := { c with counts := lmod c.counts i (fun w => satAdd32 w n) }
    if q.counts.any (fun x => x.lane = g ∧ x.node = node) then
      { q with counts := q.counts.map (fun x => if x.lane = g ∧ x.node = node then c1 else x) }
    else { q with counts := q.counts ++ [c1] })

/-- Adds one to a count of a layer at every unit that serves it. -/
def countUnits (s : State) (k : LayerKey) (p : LayerPlan) (i : Nat) : State :=
  (layerUnits p).foldl (fun t u => countLayer t u k.lane.val k.node i 1) s

/-- Changes the summary of a sequence's step. -/
def summaryMod (s : State) (h : Nat) (f : Summary → Summary) : State := reqMod s h (fun r => { r with summary := f r.summary })

/-! ### Attempts, replays and the wide path -/

/-- Array steps of an attempt that is given up leave their sites; a step that waited behind one moves up, and what waited for the
handover is done. -/
def dropSiteSteps (s : State) (k : LayerKey) : State :=
  let mine := fun (o : Option ArrayStep) => (o.map (fun a => decide (a.key = k))).getD false
  let s1 := { s with sites := smapAll s.sites (fun _ x =>
      let next := if mine x.nextStep then none else x.nextStep
      if mine x.step then settleSwap { x with step := next, nextStep := none } else { x with nextStep := next }) }
  (s1.sites.filter (fun e => e.2.diagnose)).foldl (fun t e => settleDiagnosis t e.1) s1

/-- An accumulator set before its first addition (R223). -/
def emptySet : List (F32 × F32) := List.replicate 512 (0, 0)

/-- The place of a unit's active set, and of the one that drains. -/
def Quartz.activeSet (q : Quartz) : Nat := if q.active then 1 else 0
def Quartz.drainSet (q : Quartz) : Nat := if q.active then 0 else 1

/-- Clears the active accumulator set of every unit of a layer (R226). -/
def clearActive (s : State) (p : LayerPlan) : State :=
  (layerUnits p).foldl (fun t u => quartzMod t u (fun q => { q with sets := q.sets.set q.activeSet emptySet })) s

/-- Results of an attempt are discarded (R175, R226). -/
def discardAttempt (s : State) (k : LayerKey) (p : LayerPlan) : State :=
  stepMod (clearActive (dropSiteSteps s k) p) k (fun x => { x with results := [], rows := [], partials := [], stale := false })

/-- A check of a step whose layer goes to the wide path moves to the array's next array step (R184). -/
def releaseChecks (s : State) (k : LayerKey) : State :=
  { s with arrays := smapAll s.arrays (fun _ a => if (a.checking.map (·.key)) = some k then { a with checking := none, sinceCheck := 256 } else a) }

/-- The planned cost of a wide pass decided at once, at a handover, or at the norm decision (R166, R179, R180). -/
def wideCost (corner : Nat) (p : LayerPlan) (latency : Nat) (stage : Nat) : Nat :=
  let rest := tailTime corner p.slots + quartzTime corner 3
  if stage = 0 then p.wideTime - (latency + rest) else if stage = 1 then p.wideTime - rest else p.wideTime

/-- A layer step goes to the wide path (R166, R169, R172, R176, R177). -/
def goWide (s : State) (k : LayerKey) (stage : Nat) : State :=
  match keyLayer s k, stepGet s k with
  | some p, some x =>
    let corner := laneCorner s k.lane.val
    let cost := wideCost corner p (layerLatency s corner p x.phases) stage
    let s1 := stepMod (discardAttempt (releaseChecks s k) k p) k (fun y => { y with wide := true })
    summaryMod (countUnits s1 k p 5) k.seq (fun m => { m with wide := true, nWide := m.nWide + 1, stretch := m.stretch + cost })
  | _, _ => s

/-- Counts the outlier channels selected for array steps of a layer step, at each array's unit (R194). -/
def countOutliers (s : State) (k : LayerKey) (l : List (Nat × Nat)) : State :=
  l.foldl (fun t e => countLayer t (e.1 / 128) k.lane.val k.node 0 e.2) s

/-- Outlier channels that selection finds for each array of a layer step. -/
def arrayOutliers (p : LayerPlan) (x : LayerStep) : List (Nat × Nat) :=
  p.arrays.map (fun e => (e.1.val, (stepSelection p x e.2.1).outliers.length))

/-- A layer step whose selection finds too many outlier channels drives no array and goes to the wide path; they count as selected
(R166, R194). -/
def goWideAtOnce (s : State) (k : LayerKey) (p : LayerPlan) (x : LayerStep) (stage : Nat) : State :=
  goWide (countOutliers s k (arrayOutliers p x)) k stage

/-- Why a layer step is replayed (R175). -/
inductive ReplayCause where
  | guard | saturation | jump
  deriving DecidableEq, Repr

/-- A replay (R168, R172, R175, R176): one a layer step; then, or at eight row phases for saturation (R169), the wide path. -/
def replayStep (s : State) (k : LayerKey) (cause : ReplayCause) : State :=
  match keyLayer s k, stepGet s k with
  | some p, some x =>
    let stage := if cause = ReplayCause.jump then 2 else 1
    if 1 ≤ x.replays ∨ (cause = ReplayCause.saturation ∧ 8 ≤ x.phases) then goWide s k stage
    else
      let corner := laneCorner s k.lane.val
      let phases := if cause = ReplayCause.saturation then 2 * x.phases else x.phases
      let lat := layerLatency s corner p phases
      let cost := if cause = ReplayCause.jump then quartzTime corner 0 + lat + tailTime corner p.slots + quartzTime corner 3 else lat
      let s1 := stepMod (discardAttempt s k p) k (fun y =>
        let z := { y with replays := y.replays + 1, phases := phases, rescaled := y.rescaled || decide (cause = ReplayCause.jump) }
        let n := (outlierCounts p z).foldl max 0
        { z with outliers := n, split := decide (p.slots < n ∧ n ≤ 4 * p.slots) })
      let s1h := if cause = ReplayCause.saturation then historySet s1 (recordReplay (historyGet s1 k.lane.val k.node) x.phases) else s1
      let s2 := summaryMod (countUnits s1h k p (match cause with | .saturation => 2 | .jump => 3 | .guard => 4)) k.seq (fun m =>
        { m with replayed := true, nReplayed := m.nReplayed + 1, stretch := m.stretch + cost })
      match stepGet s2 k with
      | some y => if 4 * p.slots < y.outliers then goWideAtOnce s2 k p y 1 else s2
      | none => s2
  | _, _ => s

/-- A layer step of a sequence begins with its input at the Quartz units: selection, then the outcome of R166. A layer on the
wide path (R132, R136, R155, R177) drives no array. `p` is the layer as array set `replica` holds it. -/
def openLayerStep (s : State) (k : LayerKey) (replica : Nat) (p : LayerPlan) (xs : List F32) : State :=
  let x0 : LayerStep := { key := k, replica := replica, inputs := xs, phases := p.phases }
  let counts := outlierCounts p x0
  let n := counts.foldl max 0
  let split := decide (p.slots < n ∧ n ≤ 4 * p.slots)
  let s1 := { s with layerSteps := s.layerSteps ++ [{ x0 with outliers := n, split := split }] }
  if layerIsWide s k.lane.val k.node then goWide s1 k 0
  else
    let s2 := summaryMod (historySet s1 (recordStep (historyGet s1 k.lane.val k.node) (stepCandidates p x0)
        ((List.range (blockCount p xs)).map (fun r => (stepSelection p x0 r).ints)))) k.seq
      (fun m => { m with outliers := m.outliers + counts.foldl (· + ·) 0 })
    if 4 * p.slots < n then goWideAtOnce s2 k p x0 0 else s2

/-! ### From array results to partials (R157, R39, R55, R221) -/

/-- FP16 scale as FP32 (R212). -/
def scaleF32 (x : BitVec 16) : F32 := f32 (fDecode fmtF16 x.toNat)

/-- A result of an array step, in level-steps over correctedUnit, as FP32. -/
def levelSteps (v : Int) : F32 := f32frac (decide (v < 0)) v.natAbs correctedUnit

/-- Adds two results of row phases. -/
def addRows (a b : List Int) : List Int := List.zipWith (· + ·) a b

/-- Row phases combined (R39): all of them in SUM mode; in SEPARATE mode those of each row phase of the plan, which a replay
of R168 drives as several. -/
def combinePhases (p : LayerPlan) (ps : List (List Int)) : List (List Int) :=
  let zero := List.replicate 512 (0 : Int)
  if p.sum then [ps.foldl addRows zero]
  else (chunks (ps.length / p.phases) p.phases ps).map (fun g => g.foldl addRows zero)

/-- Exact values of a block's outputs, the two arrays of an 8-bit layer joined (R55). -/
def blockValues (p : LayerPlan) (x : LayerStep) (a : Nat) : Option (List (List Int)) :=
  match x.results.find? (fun e => e.1 = a), lowOf p a with
  | some h, none => some (combinePhases p h.2)
  | some h, some b => (x.results.find? (fun e => e.1 = b)).map (fun l =>
      List.zipWith (List.zipWith (fun u v => 16 * u + v)) (combinePhases p h.2) (combinePhases p l.2))
  | none, _ => none

/-- The digital share of a block's outlier channels in one output (R163): products in order of selection, summed with
compensation (DEDUCED, log entry 22). -/
def outlierPart (rows : List (F32 × List F32)) (pair : Nat) : F32 :=
  compValue (compSum (rows.map (fun r => f32mul (lgetD r.2 pair 0) r.1)))

/-- Weight rows of a block's outlier channels: (row, x, weights); none while one is still awaited. -/
def blockRows (p : LayerPlan) (x : LayerStep) (col row : Nat) : Option (List (Nat × F32 × List F32)) :=
  (stepSelection p x row).outliers.mapM (fun o =>
    (x.rows.find? (fun e => e.1 = col ∧ e.2.1 = row ∧ e.2.2.1 = o.1)).map (fun e => (o.1, o.2, e.2.2.2)))

/-- The partial an array forms for each output of a block (R157, R221). A result delivered under R144 is an older step's: R144 says
that the corrected results are delivered and nothing of what follows, and the model scales them with the present step's input scale and adds
the present step's outlier part (log entry 93). -/
def arrayPartial (s : State) (p : LayerPlan) (x : LayerStep) (col row : Nat) : Option (List (F32 × F32)) :=
  match blockArray p col row with
  | none => none
  | some a =>
    match blockValues p x a, blockRows p x col row with
    | some vs, some rows =>
      let sel := stepSelection p x row
      let scales := (arrGet s a).scales
      some ((numbered vs).flatMap (fun g =>
        let mine := (rows.filter (fun r => p.sum || decide (r.1 / (512 / p.phases) = g.1))).map (fun r => (r.2.1, r.2.2))
        (numbered g.2).map (fun v =>
          let base := f32mul (f32mul (levelSteps v.2) (scaleF32 (lgetD (lgetD scales v.1 []) (if p.sum then 0 else g.1) 0))) sel.scale
          (f32add base (outlierPart mine v.1), 0))))
    | _, _ => none

/-- The weight row of an outlier channel (R163): the E4M3 copy of a persistent channel that stands in Pavilion memory, else the row of the
golden copy; none while the golden copy is not at hand. -/
def outlierRow (s : State) (k : LayerKey) (p : LayerPlan) (col rb row : Nat) : Option (List F32) :=
  (laneGolden s k.lane.val k.node).map (fun g =>
    let ws := g.row p rb col row
    if p.rowsInPavilion ∧ p.persistent.contains (rb, row) then copyRow ws else ws)

/-- The block at a site for which a layer step awaits the weight row of an outlier channel: column block and row block. -/
def awaitedRow (s : State) (n row : Nat) (x : LayerStep) : Option (Nat × Nat) :=
  if x.wide ∨ x.done then none
  else (keyLayer s x.key).bind (fun p =>
    (p.arrays.find? (fun e => decide (e.1.val / 8 = n) && !isLow p e.1.val
      && (stepSelection p x e.2.1).outliers.any (fun o => o.1 = row)
      && !x.rows.any (fun r => decide (r.1 = e.2.2 ∧ r.2.1 = e.2.1 ∧ r.2.2.1 = row)))).map (fun e => (e.2.2, e.2.1)))

/-- WIDE_ROW_FETCH (R163): the row reaches the layer step with an array at the site that awaits it. -/
def rowArrives (n row : Nat) (k : LayerKey) (s : State) : State :=
  match (stepGet s k).bind (awaitedRow s n row) with
  | none => s
  | some (col, rb) =>
    match (keyLayer s k).bind (fun p => outlierRow s k p col rb row) with
    | none => s
    | some ws => stepMod s k (fun x => { x with rows := x.rows ++ [(col, rb, row, ws)] })

/-! ### Combination (R220–R222) -/

/-- Partials of a column in plan order. -/
def columnPartials (x : LayerStep) (col : Nat) : List (Nat × List (F32 × F32)) :=
  ((x.partials.filter (fun e => e.1 = col)).map (fun e => (e.2.1, e.2.2))).mergeSort (fun a b => decide (a.1 ≤ b.1))

/-- The sums of a column from the partials that follow one another from index 0. -/
def columnSums (x : LayerStep) (col : Nat) : List (F32 × F32) :=
  let ps := ((numbered (columnPartials x col)).takeWhile (fun e => e.1 = e.2.1)).map (·.2.2)
  match ps with
  | [] => []
  | q :: _ => (List.range q.length).map (fun o => combineGrouped (ps.map (fun l => lgetD l o (0, 0))))

/-- The unit that combines a column: the one that holds partial 0, else the first of its arrays (R221). -/
def combiningUnit (p : LayerPlan) (col : Nat) : Option Nat :=
  match blockArray p col 0 with
  | some a => some (a / 128)
  | none => (p.arrays.find? (fun e => e.2.2 = col)).map (fun e => e.1.val / 128)

/-- A partial of a column block (R220, R221): the one its array's unit formed, or a Garnet core's where the block has no array; none
while it is not there. -/
def blockPartial (s : State) (k : LayerKey) (p : LayerPlan) (x : LayerStep) (col idx : Nat) : Option (List (F32 × F32)) :=
  match blockArray p col idx with
  | some _ => arrayPartial s p x col idx
  | none => (laneGolden s k.lane.val k.node).map (fun g => g.partials (inputFormat s k.lane.val k.node) p idx col x.inputs)

/-- The sums of one tile of a column: those of row phase j in SEPARATE mode (R223). -/
def tileSums (sums : List (F32 × F32)) (j : Nat) : List (F32 × F32) :=
  let t := (sums.drop (512 * j)).take 512
  t ++ List.replicate (512 - t.length) (0, 0)

/-- PARTIAL_ARRIVAL (R221): added in plan order, never in order of arrival; the active set of the combining unit takes the column's
first tile, those of its other row phases as it becomes free (R223). -/
def partialArrives (k : LayerKey) (col idx : Nat) (unit : UnitNo) (s : State) : State :=
  match keyLayer s k, stepGet s k with
  | some p, some x =>
    if x.wide ∨ x.done ∨ blockCount p x.inputs ≤ idx ∨ combiningUnit p col ≠ some unit.val
        ∨ x.partials.any (fun e => decide (e.1 = col ∧ e.2.1 = idx)) then s
    else
      match blockPartial s k p x col idx with
      | none => s
      | some v =>
        let y := { x with partials := x.partials ++ [(col, idx, v)] }
        quartzMod (stepMod s k (fun _ => y)) unit.val (fun q => { q with sets := q.sets.set q.activeSet (tileSums (columnSums y col) 0) })
  | _, _ => s

/-- Whether every partial of every column has arrived. -/
def layerComplete (p : LayerPlan) (x : LayerStep) : Bool :=
  (layerColumns p).all (fun c => decide ((columnPartials x c).length = blockCount p x.inputs))

/-! ### Repair adapters (R154) -/

/-- The correction a repair adapter adds to output o: over its rank, the factor of the output times the factor over the inputs times
the input (R154; in FP32, sums compensated, log entry 94). -/
def adapterTerm (t : TrainedAdapter) (xs : List F32) (o : Nat) : F32 :=
  compValue (compSum (List.zipWith (fun a b => f32mul (compValue (compSum (List.zipWith f32mul a xs))) (lgetD b o 0)) t.inputs t.outputs))

/-- The repair adapter in effect for a layer step. -/
def stepAdapter (s : State) (x : LayerStep) : Option TrainedAdapter :=
  (s.repairAdapters.find? (fun a => decide (a.lane = x.key.lane.val ∧ a.node = x.key.node ∧ a.replica = x.replica) && a.inEffect)).bind
    (·.trained)

/-- Sums of a column with the layer's repair adapter added to each. -/
def correctedColumn (s : State) (x : LayerStep) (col : Nat) : List (F32 × F32) :=
  let sums := columnSums x col
  match stepAdapter s x with
  | none => sums
  | some t => (numbered sums).map (fun e => compAdd e.2 (adapterTerm t x.inputs (col * sums.length + e.1)))

/-! ### Drains (R223–R226, R231) -/

/-- The set that has finished swaps roles with the other, which becomes empty and active (R224). -/
def swapSets (q : Quartz) (t : Tile) : Quartz :=
  { q with sets := (q.sets.set q.activeSet (tileSums t.sums 0)).set q.drainSet emptySet, active := !q.active, draining := some t }

/-- A tile whose outputs stand leaves the active set; it waits while the other set still drains (R224, R225). -/
def offerTile (s : State) (u : Nat) (t : Tile) : State :=
  quartzMod s u (fun q => if q.draining.isSome then { q with held := q.held ++ [t] } else swapSets q t)

/-- The local top-k lists of a unit once a tile's scores have been passed to them (R231). -/
def rankTile (p : LayerPlan) (t : Tile) (vals : List F32) (lists : Store (List (F32 × Nat))) : Store (List (F32 × Nat)) :=
  if p.topK = 0 then lists
  else sput lists t.key.seq (rankK p.bottomK p.topK (sgetD lists t.key.seq [] ++ (numbered vals).map (fun e => (e.2, t.first + e.1))))

/-- Whether an output that drains is NaN or infinite in its output format (R217, R224). -/
def drainsSpecial (format : BitVec 8) (code : Nat) : Bool := !f32isFinite (ofFormat format.toNat code)

/-- DRAIN_END (R224, R217): outputs are converted and written, those that drain as NaN or infinity counted, retrieval scores
ranked; a held tile drains next. -/
def drainEnds (u : Nat) (s : State) : State :=
  match (quartzGet s u).draining with
  | none => s
  | some t =>
    let vals := t.sums.map compValue
    let codes := vals.map (toFormat t.format.toNat)
    let p := (keyLayer s t.key).getD { node := t.key.node }
    quartzMod (countLayer s u t.key.lane.val t.key.node 9 (codes.filter (drainsSpecial t.format)).length) u (fun q =>
      let done := { q with
        draining := none, sets := q.sets.set q.drainSet emptySet
        drained := q.drained ++ [(t.key, t.first, codes)], topk := rankTile p t vals q.topk }
      match q.held with
      | [] => done
      | h :: r => swapSets { done with held := r } h)

/-- One level of the merge of local top-k lists: nodes of fan-in 16, each keeping the top k of the union of its inputs (R231). -/
def mergeLevel (low : Bool) (k : Nat) (ls : List (List (F32 × Nat))) : List (List (F32 × Nat)) :=
  (chunks 16 ((ls.length + 15) / 16) ls).map (fun g => rankK low k g.flatten)

/-- The Opal cores' merge tree, in at most `fuel` levels (R231). -/
def mergeTree (low : Bool) (k : Nat) : Nat → List (List (F32 × Nat)) → List (F32 × Nat)
  | 0, ls => rankK low k ls.flatten
  | _, [] => []
  | _, [l] => l
  | fuel + 1, ls => mergeTree low k fuel (mergeLevel low k ls)

/-- What lies within a layer's outputs of a list that begins at output `first`; pairs beyond them hold no weights. -/
def withinLayer {α : Type} (p : LayerPlan) (first : Nat) (l : List α) : List α :=
  if p.outputs = 0 then l else l.take (p.outputs - first)

/-- A complete layer's outputs, column by column. -/
def layerOutputs (s : State) (p : LayerPlan) (x : LayerStep) : List F32 :=
  withinLayer p 0 ((layerColumns p).flatMap (fun c => (correctedColumn s x c).map compValue))

/-- Offers every tile of a layer's columns to its combining unit. -/
def drainLayer (s : State) (k : LayerKey) (p : LayerPlan) (x : LayerStep) : State :=
  (layerColumns p).foldl (fun t c =>
    match combiningUnit p c with
    | none => t
    | some u =>
      let sums := correctedColumn s x c
      (numbered (chunks 512 8 sums)).foldl (fun w e =>
        offerTile w u { key := k, first := c * sums.length + 512 * e.1, format := p.outFormat, sums := withinLayer p (c * sums.length + 512 * e.1) e.2 }) t) s

/-! ### The norm watch (R171–R173) -/

/-- μ after an accepted output of RMS r (R171). -/
def meanAfter (mu r : F32) : F32 := f32add mu (f32div (f32sub r mu) (f32int 16))

/-- The running mean of a node for a sequence. -/
def meanOf (r : Request) (p : LayerPlan) : F32 := ((r.means.find? (fun e => e.1 = p.node)).map (·.2)).getD p.recordedMean

/-- Sets the running mean of a node. -/
def setMean (r : Request) (node : Nat) (mu : F32) : Request :=
  { r with means := (node, mu) :: r.means.filter (fun e => e.1 ≠ node) }

/-- Whether an output of RMS r jumps (R172): F in units of 0.125, 0 off. -/
def jumps (p : LayerPlan) (mu r : F32) : Bool :=
  let f := f32frac false p.jump 8
  decide (p.jump ≠ 0) && (f32lt (f32mul f mu) r || f32lt r (f32div mu f))

/-- Whether a lane's step under way is a prefill step. -/
def inPrefill (s : State) (g : Nat) : Bool := (((sget s.lanes g).bind (·.step)).map (·.prefill)).getD false

/-- An output is accepted into μ: at once, or with the step's other tokens when a prefill step ends (R171). -/
def acceptRms (s : State) (k : LayerKey) (p : LayerPlan) (r : F32) : State :=
  reqMod s k.seq (fun q =>
    if inPrefill s k.lane.val then { q with accepted := q.accepted ++ [(k.node, r)] }
    else setMean q k.node (meanAfter (meanOf q p) r))

/-- The split pass an attempt took (R166, R167): each counts and lengthens the step; the summary counts the layer step once. -/
def splitTaken (s : State) (k : LayerKey) (p : LayerPlan) (x : LayerStep) : State :=
  if x.split then
    summaryMod (stepMod (countUnits s k p 1) k (fun y => { y with splitDone := true })) k.seq (fun m =>
      { m with split := true, nSplit := if x.splitDone then m.nSplit else m.nSplit + 1
               stretch := m.stretch + splitTime (laneCorner s k.lane.val) p.slots })
  else s

/-- REPAIR_TAIL_END (R165, R172): the complete output goes to the norm decision, which results delivered under R144 are
spared; accepted, it drains. -/
def tailEnds (k : LayerKey) (s : State) : State :=
  match keyLayer s k, stepGet s k with
  | some p, some x =>
    if x.wide ∨ x.done ∨ !layerComplete p x then s
    else
      let outs := layerOutputs s p x
      let r := rms32 outs
      let mu := ((sget s.requests k.seq).map (fun q => meanOf q p)).getD p.recordedMean
      let s0 := splitTaken s k p x
      if !x.stale ∧ jumps p mu r then replayStep s0 k .jump
      else
        let s1 := if x.stale then s0 else acceptRms s0 k p r
        stepMod (drainLayer s1 k p x) k (fun y => { y with outputs := outs, done := true })
  | _, _ => s

/-- Layer steps of a layer that await the wide path. -/
def awaitingWide (s : State) (g node : Nat) : List LayerStep :=
  s.layerSteps.filter (fun x => decide (x.key.lane.val = g) && decide (x.key.node = node) && x.wide && !x.done)

/-- WIDE_PATH_COMPLETE (R177, R178, R173): Garnet cores have computed the layer's output for every sequence of the step that needs it, from
one reading of the golden copy; accepted into μ. -/
def wideCompletes (g node : Nat) (s : State) : State :=
  match layerNow s g node, laneGolden s g node with
  | some p, some w => (awaitingWide s g node).foldl (fun t x =>
      let outs := w.wide (inputFormat s g node) x.inputs
      acceptRms (stepMod t x.key (fun y => { y with outputs := outs, done := true })) x.key p (rms32 outs)) s
  | _, _ => s

/-- Running means after a prefill step: one update a node with the mean of the accepted values (R171). -/
def settleMeans (s : State) (h : Nat) : State :=
  match sget s.requests h with
  | none => s
  | some r =>
    let nodes := (r.accepted.map (·.1)).eraseDups
    reqMod s h (fun q => nodes.foldl (fun t n =>
      let vs := (r.accepted.filter (fun e => e.1 = n)).map (·.2)
      let p := (layerNow s r.graph n).getD { node := n }
      setMean t n (meanAfter (meanOf t p) (f32div (compValue (compSum vs)) (f32int (Int.ofNat vs.length))))) { q with accepted := [] })

/-! ### The rows -/

def execWideRowFetch (site : SiteNo) (row : Fin 512) (key : LayerKey) (s : State) : Out State := .next (rowArrives site.val row.val key s)
def execPartialArrival (key : LayerKey) (column index : Nat) (unit : UnitNo) (s : State) : Out State :=
  .next (partialArrives key column index unit s)
def execRepairTailEnd (key : LayerKey) (s : State) : Out State := .next (tailEnds key s)
def execWidePathComplete (lane : LaneId) (node expert : Nat) (s : State) : Out State :=
  .next (wideCompletes lane.val (layerNumber node expert) s)
def execDrainEnd (unit : UnitNo) (s : State) : Out State := .next (drainEnds unit.val s)

end Sys2Proof.Machine
end

