-- ==== Sys2Proof/Machine/Convert.lean ====
section
/-! DEFINITION. Array steps at converter sites (R32–R44, R83–R104): drives, triggers, sweeps and guards, the handover with the
results the Quartz unit forms from it (R115, R157), and continuous runs under the host's control (R97, R98). -/

namespace Sys2Proof.Machine
open Sys2Proof

/-! ### Phases of an array step (R38, R86, R88–R91) -/

/-- An array step becomes the one the site works on, with its table and tier. -/
def placeStep (x : Site) (o : Option ArrayStep) : Site :=
  match o with
  | none => { x with step := none }
  | some a => { x with step := some a, entries := serviceTable a.gain a.spares, control := siteControl x.delay 1 (a.array.val % 8) }

/-- Sweeps that have begun. -/
def sweepsBegun (a : ArrayStep) : Nat := a.sweeps.length + boolBit a.sweeping

/-- Whether a site can take another array step: it has none, or its step is in its last sweep (R89). -/
def roomAt (x : Site) : Bool :=
  match x.step with
  | none => true
  | some a => x.nextStep.isNone && decide (sweepsBegun a = stepPhases a)

/-- DRIVE of a phase after the first: at the start of the previous phase's sweep (R89). -/
def driveNext (n : Nat) (s : State) : State :=
  siteMod s n (fun x => match x.step with
    | some a =>
      if a.driven < stepPhases a ∧ a.driven ≤ sweepsBegun a then { x with step := some { a with driven := a.driven + 1, driving := true } }
      else x
    | none => x)

/-! ### A layer's array steps begin -/

/-- Whether an array step of a layer step is under way at a site. -/
def stepping (x : Site) (k : LayerKey) (a : ArrayNo) : Bool :=
  let mine := fun (o : Option ArrayStep) => (o.map (fun y => decide (y.key = k) && decide (y.array = a))).getD false
  mine x.step || mine x.nextStep

/-- The array of a layer that a site drives next: one whose results of this attempt are neither there nor under way. -/
def nextArray (x : Site) (n : Nat) (p : LayerPlan) (l : LayerStep) : Option (ArrayNo × Nat) :=
  (p.arrays.find? (fun e => decide (e.1.val / 8 = n) && !l.results.any (fun r => r.1 = e.1.val) && !stepping x l.key e.1)).map
    (fun e => (e.1, e.2.1))

/-- The array step of a row block's inputs (R159–R161). -/
def newArrayStep (s : State) (p : LayerPlan) (l : LayerStep) (a : ArrayNo) (row : Nat) : ArrayStep :=
  let sel := stepSelection p l row
  { key := l.key, array := a, mode := p.mode, phases := l.phases, gain := p.gain, scale := sel.scale, ints := sel.ints
    outliers := sel.outliers.length, spares := !(arrGet s a.val).spares.isEmpty }

/-- Results delivered in HOLD mode while the site calibrates: those of the array's last array step, or zeros (R144); the outlier channels
selected for the array count all the same (R194). -/
def deliverStale (s : State) (l : LayerStep) (a : ArrayNo) : State :=
  let old := (arrGet s a.val).lastStep
  let res := if old.isEmpty then List.replicate l.phases (List.replicate 512 0) else old
  let s1 := countOutliers s l.key [(a.val, ((keyLayer s l.key).map (fun p =>
    (stepSelection p l (blockOf p a.val).1).outliers.length)).getD 0)]
  summaryMod (stepMod s1 l.key (fun x => { x with results := x.results ++ [(a.val, res)], stale := true })) l.key.seq
    (fun m => { m with stale := true })

/-- A site begins the next array step of a layer step it has an array of. -/
def driveArray (n : Nat) (p : LayerPlan) (l : LayerStep) (s : State) : State :=
  let x := siteGet s n
  match nextArray x n p l with
  | none => s
  | some (a, row) =>
    if layerIsWide s l.key.lane.val l.key.node then goWide s l.key 1
    else if holdLane s l.key.lane.val ∧ isCalibrating x.activity then deliverStale s l a
    else if x.activity = .none ∧ !x.diagnose ∧ x.starting.isEmpty ∧ roomAt x ∧ mayFire s n (stepPower p.mode l.phases) true then
      let st := newArrayStep s p l a row
      let s1 := siteMod s n (fun y => if y.step.isNone then placeStep y (some st) else { y with nextStep := some st })
      countOutliers s1 l.key [(a.val, st.outliers)]
    else s

/-- Whether a sequence takes part in its lane's step. -/
def inStep (s : State) (k : LayerKey) : Bool :=
  (((sget s.lanes k.lane.val).bind (·.step)).map (fun st => st.batch.contains k.seq)).getD false

/-- Input of a layer in a step: what the node before it computed; of a carried tensor what the request's last step left, zeros in its first
step (R279). -/
def layerInput (s : State) (k : LayerKey) (given : List F32) : List F32 :=
  match (sget s.graphs k.lane.val).bind (fun x =>
      let t := graphTables x.image
      let node := layerNode k.node
      (t.nodes[node]?).bind (fun n =>
        if t.edges.any (fun e => e.carry && decide (e.dst = node ∧ e.tensor = n.input)) then some (n.input, (tensorOf t n.input).dim 0) else none)) with
  | none => given
  | some (tensor, d) =>
    let held := (((sget s.requests k.seq).bind (fun r => r.carried.find? (fun e => e.1 = tensor))).map (·.2)).getD []
    let row := (held.drop (k.token * d)).take d
    row ++ List.replicate (d - row.length) 0

/-- DRIVE of a step's first phase: the layer's input for a sequence is at the unit (R89). The first drive of a layer step settles which of
the layer's array sets serves it (R283). -/
def driveFirst (n : Nat) (i : LayerInput) (s : State) : State :=
  let k : LayerKey := { lane := i.lane, node := i.node, seq := i.seq, token := i.token }
  match layerNow s i.lane.val i.node with
  | none => s
  | some base =>
    let r := ((stepGet s k).map (·.replica)).getD (replicaAt base n)
    let p := onReplica base r
    if !p.arrays.any (fun e => e.1.val / 8 = n) ∨ !inStep s k ∨ !isRunning s ∨ s.boot.kioskHung then s
    else
      let s1 := if (stepGet s k).isSome then s else openLayerStep s k r p (layerInput s k i.values)
      match stepGet s1 k with
      | some l => if l.wide ∨ l.done then s1 else driveArray n p l s1
      | none => s1

/-! ### Drive end, trigger, guard (R33, R88, R90, R95, R96) -/

/-- DRIVE_END: the phase being driven at the site arms its trigger. -/
def driveEnds (n : Nat) (s : State) : State :=
  let arm := fun (a : ArrayStep) => { a with driving := false, armed := true }
  siteMod s n (fun x =>
    if (x.step.map (·.driving)).getD false then { x with step := x.step.map arm }
    else if (x.nextStep.map (·.driving)).getD false then { x with nextStep := x.nextStep.map arm }
    else x)

/-- TRIGGER: the integrator closes; the sweep begins, or waits for the sweep before it (R88). That of a next step waits for
the handover (R90). -/
def triggers (n : Nat) (s : State) : State :=
  siteMod s n (fun x => { x with step := x.step.map (fun a =>
    if a.armed then { a with armed := false, closed := a.sweeping, sweeping := true } else a) })

/-- Number of the step a lane is in. -/
def laneStepNo (s : State) (g : Nat) : Nat := ((sget s.lanes g).map (·.stepNo)).getD 0

/-- The integrators of a phase whose guard has passed close, and its sweep runs (R95); that of a step that waits behind another runs
once it is the site's, as R90 has it. -/
def guardCloses (current : Bool) (a : ArrayStep) : ArrayStep :=
  if current then { a with driving := false, expired := true, closed := a.sweeping, sweeping := true }
  else { a with driving := false, expired := true, armed := true }

/-- Guard expiries of a site with one more in a lane's plan step (R96); those of the lane's earlier steps are forgotten. -/
def countGuard (g step : Nat) (l : List (Nat × Nat × Nat)) : List (Nat × Nat × Nat) :=
  let n := ((l.find? (fun e => decide (e.1 = g ∧ e.2.1 = step))).map (·.2.2)).getD 0
  (g, step, n + 1) :: l.filter (fun e => e.1 ≠ g)

/-- GUARD: the drive-end event has not occurred in time (R95): the sweep runs, and its results are discarded at the handover; a second
expiry at the site in the same plan step takes the array out (R96). -/
def guardExpires (n : Nat) (s : State) : State :=
  let x := siteGet s n
  let late := fun (o : Option ArrayStep) => o.bind (fun a => if a.driving then some a else none)
  match (late x.step).orElse (fun _ => late x.nextStep) with
  | none => s
  | some a =>
    let g := a.key.lane.val
    let guards := countGuard g (laneStepNo s g) x.guards
    let s1 := siteMod s n (fun y =>
      if (late y.step).isSome then { y with guards := guards, step := y.step.map (guardCloses true) }
      else { y with guards := guards, nextStep := y.nextStep.map (guardCloses false) })
    if guards.any (fun e => decide (e.1 = g ∧ 2 ≤ e.2.2)) then
      reportOf (quarantineArray s1 a.array.val) 0x07 3 (siteUid n 0) (leBytes 1 2) 0 (opOf s g a.key.node)
    else s1

/-! ### Sweeps (R70–R73, R85, R98, R105) -/

/-- Codes and flags of a service sweep: reference pairs at ×1 (R86). -/
def serviceSweep (gain : Fin 4) (spares : Bool) (charges : List Int) : List (Int × Bool) :=
  (numbered (charges.take (if spares then 544 else 528))).map (fun e =>
    convert (if 512 ≤ e.1 ∧ e.1 < 528 then 0 else gain) e.2)

/-- Valid entries of a table (R83). -/
def validEntries (ws : List Word) : List Nat := (ws.map (·.toNat)).takeWhile (fun w => decide (fld w 31 31 = 1))

/-- The valid entry of a pair. -/
def entryOf (ws : List Word) (p : Nat) : Option Nat := (validEntries ws).find? (fun w => decide (fld w 9 0 ≤ p ∧ p ≤ fld w 19 10))

/-- Gain of an entry. -/
def entryGain (w : Nat) : Fin 4 := ⟨fld w 27 26, by unfold fld; omega⟩

/-- Charge the test DAC injects into a column pair (R105, R106): positive less negative column. -/
def dacInjects (dac : Word) : Int :=
  let c := dacCharge (fld dac.toNat 11 10) (BitVec.ofNat 10 dac.toNat).toInt
  c.1 - c.2

/-- The slice that converts a pair (R70): the one that holds its position, or the spare that stands in there. -/
def sliceOf (x : Site) (p : Nat) : Nat := if x.spare = p % 16 then 16 else p % 16

/-- A sweep of a continuous run: every pair of a valid entry (R85). For a pair that takes its input from the test DAC the
charge given is how far the injection is off, within the bounds of R105. -/
def hostSweep (x : Site) (charges : List Int) : List (Nat × Nat × Int × Bool) :=
  (List.range 544).filterMap (fun p => (entryOf x.entries p).map (fun w =>
    let q := lgetD charges p 0
    (p, w, convert (entryGain w) (if fld w 30 30 = 1 then dacInjects x.dacNow + max (-dacTolerance) (min dacTolerance q) else q))))

/-- What the Quartz unit makes of a conversion in an entry without Skip correction (R83, R115): the code corrected with the active table and
τ, over correctedUnit. -/
def hostResult (arr : OrArray) (e : Nat × Nat × Int × Bool) : Option Int :=
  if fld e.2.1 29 29 ≠ 0 then none
  else arr.active.map (fun t =>
    Int.ofNat (256 / 2 ^ (entryGain e.2.1).val) * corrected (lgetD t.entries e.1 (32768, 0)) arr.tau e.2.2.1)

/-- Saturated conversions among data entries and among reference entries. -/
def saturations (sw : List (Nat × Bool)) (ref : Nat → Bool) : Nat × Nat :=
  ((sw.filter (fun e => e.2 && !ref e.1)).length, (sw.filter (fun e => e.2 && ref e.1)).length)

/-- A sweep of a continuous run ends: its codes, counts and corrected results; a DAC word written meanwhile acts from the next sweep on
(R106). -/
def hostSwept (arr : OrArray) (charges : List Int) (x : Site) : Site :=
  let sw := hostSweep x charges
  let at_ := fun p => sw.find? (fun e => e.1 = p)
  let isRef := fun i => ((at_ i).map (fun e => decide (fld e.2.1 28 28 = 1))).getD false
  { countSat x (saturations (sw.map (fun e => (e.1, e.2.2.2))) isRef) with
    sweepsRun := x.sweepsRun + 1, dacNow := x.dac
    sweep := (List.range 544).map (fun p => ((at_ p).map (fun e => e.2.2)).getD (0, false))
    corrected := (List.range 544).map (fun p => (at_ p).bind (hostResult arr)) }

/-- A sweep of an array step ends: its codes and flags join the step's, its saturations the site's counts (R104). -/
def stepSwept (charges : List Int) (x : Site) : Site :=
  match x.step with
  | none => x
  | some a =>
    if a.sweeping ∧ charges.length = 544 then
      let sw := serviceSweep a.gain a.spares charges
      let y := countSat x (sweepSaturations [sw])
      { y with step := some { a with sweeping := a.closed, closed := false, sweeps := a.sweeps ++ [sw] } }
    else x

/-- A sweep of a diagnosis ends (R108): its readings join those taken before, its saturations the site's counts (R104), and the words of the
next sweep are set. -/
def diagSwept (charges : List Int) (x : Site) : Site :=
  match diagSweep x.readings x.tested with
  | none => x
  | some w =>
    let cs := diagCodes w charges
    let y := countSat x (saturations (cs.map (fun e => (e.1, e.2.2))) (fun _ => false))
    setDiagWords { y with
      tested := x.tested + 1, readings := addSweep x.readings w cs
      sweep := (List.range 544).map (fun p => ((cs.find? (fun e => e.1 = p)).map (·.2)).getD (0, false)) }

/-- SWEEP_END: codes and flags of the sweep; the sweep of a phase whose integrator has closed follows at once (R88). A continuous run
that has been halted ends with it, and so does the host's control (R98, R111); one that waits for the firing budget begins once it fits. -/
def sweepEnds (n : Nat) (charges : List Int) (s : State) : State :=
  let was := siteGet s n
  let x := if was.waits ∧ mayWork s n was.activity then { was with waits := false } else was
  if hostRuns x then
    let s1 := siteMod s n (fun _ => hostSwept (arrGet s (8 * n + fld x.control.toNat 29 27)) charges x)
    if x.halting then reloadSite s1 n else s1
  else if isDiagnosing x.activity then siteMod s n (diagSwept charges)
  else siteMod s n (stepSwept charges)

/-- SWEEP_LIMIT (R98): the run that has reached its limit stops, and the site is halted. -/
def sweepLimit (n : Nat) (s : State) : State :=
  siteMod s n (fun x =>
    let limit := fld x.control.toNat 15 0
    match x.activity with
    | .host _ =>
      if fld x.control.toNat 31 30 = 2 ∧ limit ≠ 0 ∧ limit ≤ x.sweepsRun then
        settleSwap { x with control := BitVec.ofNat 32 (x.control.toNat % 2 ^ 30) }
      else x
    | _ => x)

/-! ### The handover (R103, R104, R115, R130, R157, R168, R184) -/

/-- The drive value of a row in a sign phase, as the digital product counts it (R32, R157). -/
def rowDrive (m : InputMode) (negative : Bool) (x : Int) : Int :=
  match m with
  | .offset => x
  | _ => Int.ofNat (pulseSteps m negative x)

/-- Pulse steps of the rows of a row phase in a sign phase; with an input scale of zero no row is driven (R216). -/
def stepPulses (a : ArrayStep) (j : Nat) (negative : Bool) : List Nat :=
  (phaseSlice a.phases j a.ints).map (fun x => if a.scale = 0 then 0 else pulseSteps a.mode negative x)

/-- The term of one conversion of a pair, in level-steps over correctedUnit (R115, R157): the digital product if it
saturated, else the corrected charge, less 64 × level sum in OFFSET mode (R32). -/
def phaseTerm (arr : OrArray) (a : ArrayStep) (pair j : Nat) (negative : Bool) (c : Int × Bool) : Int :=
  let levels := phaseSlice a.phases j (lgetD arr.levels pair [])
  let entry := ((arr.active).map (fun t => lgetD t.entries pair (32768, 0))).getD (32768, 0)
  if c.2 then dotInt levels ((phaseSlice a.phases j a.ints).map (rowDrive a.mode negative)) * Int.ofNat correctedUnit
  else
    let charge := Int.ofNat (256 / 2 ^ a.gain.val) * corrected entry arr.tau c.1
    if a.mode = .offset ∧ a.scale ≠ 0 then charge - 64 * levels.foldl (· + ·) 0 * Int.ofNat correctedUnit else charge

/-- The value of a data pair in a row phase: sign phases combined (R32). -/
def phaseValue (arr : OrArray) (a : ArrayStep) (j p : Nat) : Int :=
  let pair := standIn arr p
  let code := fun i => lgetD (lgetD a.sweeps i []) pair (0, false)
  if a.mode = .signed then phaseTerm arr a pair j false (code (2 * j)) - phaseTerm arr a pair j true (code (2 * j + 1))
  else phaseTerm arr a pair j false (code j)

/-- Results of an array step: by row phase, then data pair. -/
def stepValues (arr : OrArray) (a : ArrayStep) : List (List Int) :=
  (List.range a.phases).map (fun j => (List.range 512).map (phaseValue arr a j))

/-- Data pairs with a saturated conversion in an array step. -/
def saturatedPairs (arr : OrArray) (a : ArrayStep) : List Nat :=
  (List.range 512).filter (fun p => a.sweeps.any (fun sw => (lgetD sw (standIn arr p) (0, false)).2))

/-- Charges of reference pairs 512–519 in an array step: (predicted, measured) sums over unsaturated conversions, in
level-steps over correctedUnit, each charge counted in the direction of its prediction (R130; log entry 24) and corrected at τ = 1.0 (log
entry 89). -/
def trackingSums (arr : OrArray) (a : ArrayStep) : Int × Int :=
  (numbered a.sweeps).foldl (fun t e =>
    let per := signPhases a.mode
    let pulses := (stepPulses a (e.1 / per) (decide (e.1 % per = 1))).foldl (· + ·) 0
    (List.range 8).foldl (fun u i =>
      let c := lgetD e.2 (512 + i) (0, false)
      if c.2 then u
      else
        let w := referenceWeight (512 + i) 0
        let entry := ((arr.active).map (fun x => lgetD x.entries (512 + i) (32768, 0))).getD (32768, 0)
        (u.1 + Int.ofNat (w.natAbs * pulses * correctedUnit), u.2 + w.sign * 256 * corrected entry 32768 c.1)) t) (0, 0)

/-- How often a lane's step under way has been computed again (R188). -/
def stepAttempt (s : State) (g : Nat) : Nat := (((sget s.lanes g).bind (·.step)).map (·.attempt)).getD 0

/-- Whether an array step that completes is checked: the one that repeats a failed check, in a later computation of the lane's step (R188),
else the chosen one of its period (R184). -/
def checkChosen (s : State) (arr : OrArray) (k : LayerKey) : Bool :=
  arr.checking.isNone && (match arr.checkFailed, checkPeriod (((sget s.lanes k.lane.val).map (·.checkCode)).getD 0) with
    | some f, _ => decide (f.1 = k ∧ f.2 < stepAttempt s k.lane.val)
    | none, some n => decide (n ≤ arr.sinceCheck + 1)
    | none, none => false)

/-- What an array keeps of an array step that completes (R130, R144, R186). -/
def keepStep (s : State) (a : ArrayStep) (arr : OrArray) : OrArray :=
  let chosen := checkChosen s arr a.key
  let values := stepValues arr a
  { arr with
    lastStep := values
    tracking := (trackingSums arr a :: arr.tracking).take 256
    sinceCheck := if chosen then 0 else arr.sinceCheck + 1
    checking := if chosen then some { key := a.key, values := values, ints := a.ints, saturated := saturatedPairs arr a } else arr.checking }

/-- What the Quartz unit does with a completed array step: after a guard expiry its results are discarded and the layer step replayed
(R95); more saturated data conversions than free slots call for a replay (R168); else its results go to the layer step. -/
def takeStep (s : State) (a : ArrayStep) (sat : Nat) : State :=
  let s0 := if a.expired then s else arrMod s a.array.val (keepStep s a)
  match keyLayer s a.key, stepGet s a.key with
  | some p, some l =>
    if l.wide ∨ l.done then s0
    else if a.expired then replayStep s0 a.key .guard
    else if p.slots - a.outliers < sat then replayStep s0 a.key .saturation
    else
      summaryMod (stepMod s0 a.key (fun x => { x with results := x.results ++ [(a.array.val, stepValues (arrGet s a.array.val) a)] }))
        a.key.seq (fun m => { m with saturations := m.saturations + sat })
  | _, _ => s0

/-- HANDOVER: the codes, flags and counts of a completed array step reach the Quartz unit (R103), the step that waited behind it
is the site's, a stand-in that is due is made (R77, R78). -/
def handsOver (n : Nat) (s : State) : State :=
  match (siteGet s n).step with
  | none => s
  | some a =>
    if a.sweeps.length < stepPhases a then s
    else
      let s1 := siteMod s n (fun x => settleSwap { placeStep x x.nextStep with nextStep := none, lastTier := some (a.array.val % 8) })
      settleDiagnosis (takeStep s1 a (sweepSaturations a.sweeps).1) n

/-! ### The rows -/

def execDrive (site : SiteNo) (input : Option LayerInput) (s : State) : Out State :=
  .next (match input with | some i => driveFirst site.val i s | none => driveNext site.val s)
def execDriveEnd (site : SiteNo) (s : State) : Out State := .next (driveEnds site.val s)
def execTrigger (site : SiteNo) (s : State) : Out State := .next (triggers site.val s)
def execGuard (site : SiteNo) (s : State) : Out State := .next (guardExpires site.val s)
def execSweepEnd (site : SiteNo) (charges : List Int) (s : State) : Out State := .next (sweepEnds site.val charges s)
def execSweepLimit (site : SiteNo) (s : State) : Out State := .next (sweepLimit site.val s)
def execHandover (site : SiteNo) (s : State) : Out State := .next (handsOver site.val s)

end Sys2Proof.Machine
end

