-- ==== Sys2Proof/Machine/Check.lean ====
section
/-! DEFINITION. Sentinel checking (R183–R190) and probe slots (R191, R526–R531). -/

namespace Sys2Proof.Machine
open Sys2Proof

/-! ### The comparison (R146, R186) -/

/-- Golden weights of the data pairs of an array that serves a layer, in the generation it holds (R186). -/
def arrayGolden (s : State) (p : LayerPlan) (g a : Nat) : Option (List (List F32)) :=
  let x := arrGet s a
  let gen := fun k h => if x.ownerKind = ownerCode k ∧ x.owner = h then some x.generation else none
  (p.arrays.find? (fun e => e.1.val = a)).bind (fun e => (goldenAt s g p.node gen).map (fun w => w.pairs p e.2.1 e.2.2))

/-- Ideal results by row phase then data pair, in level-steps: golden weights re-quantised (R51), times the drive integers. -/
def idealValues (p : LayerPlan) (a phases : Nat) (golden : List (List F32)) (ints : List Int) : List (List Int) :=
  let levels := golden.map (layerLevels (nibbleOf p a) p.sum p.phases)
  (List.range phases).map (fun j => levels.map (fun l => dotInt (phaseSlice phases j l) (phaseSlice phases j ints)))

/-- Corrected less ideal results of the compared pairs, in level-steps over correctedUnit. -/
def checkErrors (values ideal : List (List Int)) (skip : List Nat) : List Int :=
  (List.zipWith (fun v i => ((numbered (List.zip v i)).filter (fun e => !skip.contains e.1)).map (fun e =>
    e.2.1 - e.2.2 * Int.ofNat correctedUnit)) values ideal).flatten

/-- Sum of squares. -/
def squares (es : List Int) : Nat := es.foldl (fun t e => t + e.natAbs ^ 2) 0

/-- Full scale of 127 codes at a gain, times the gain, in level-steps over correctedUnit. -/
def fullScale : Nat := 127 * 256 * correctedUnit

/-- Whether a comparison fails (R186): the RMS beyond one band or any single pair beyond the other, bands in 0.001 % of full
scale. -/
def checkFails (gain : Fin 4) (rmsBand pairBand : Nat) (es : List Int) : Bool :=
  let g := 2 ^ gain.val
  decide (es.length * (rmsBand * fullScale) ^ 2 < squares es * (100000 * g) ^ 2) ||
    es.any (fun e => decide (pairBand * fullScale < e.natAbs * (100000 * g)))

/-- RMS error in % of full scale, FP32. -/
def checkRms (gain : Fin 4) (es : List Int) : F32 :=
  if es.isEmpty then 0 else f32sqrtFrac (squares es * (100 * 2 ^ gain.val) ^ 2) (es.length * fullScale ^ 2)

/-- A band in % of full scale, FP32. -/
def bandF32 (band : Nat) : F32 := f32frac false band 1000

/-- Detail of records 0x01 and 0x02: RMS error and band. -/
def checkDetail (gain : Fin 4) (es : List Int) (band : Nat) : Bytes :=
  leBytes 4 (checkRms gain es).toNat ++ leBytes 4 (bandF32 band).toNat

/-! ### What a check leads to (R187–R190) -/

/-- Stated nominal time of a lane's step under way, in ns. -/
def nominalOf (l : Lane) (st : LaneStep) : Nat :=
  let t := statedTimes l.plan l.level
  if st.prefill then t.prefillNominal else t.mainNominal

/-- A sequence's step is to be computed again (R188); the planned cost is a nominal step. -/
def recomputeSeq (s : State) (k : LayerKey) : State :=
  match (sget s.lanes k.lane.val).bind (fun l => l.step.map (fun st => (l, st))) with
  | none => s
  | some (l, st) =>
    let s1 := laneMod s k.lane.val (fun x => { x with step := some { st with
      recompute := if st.recompute.contains k.seq then st.recompute else st.recompute ++ [k.seq] } })
    summaryMod s1 k.seq (fun m => { m with replayed := true, sentinel := true, stretch := m.stretch + nominalOf l st * 10000 })

/-- A check of an array step has completed. A first failure is repeated in the sequence's recomputed step; the second decides
(R188–R190). -/
def settleCheck (s : State) (a : Nat) (k : LayerKey) (gain : Fin 4) (band : Nat) (es : List Int) (failed : Bool) : State :=
  let second := (arrGet s a).checkFailed.isSome
  let op := opOf s k.lane.val k.node
  let count := fun t i => countLayer t (a / 128) k.lane.val k.node i 1
  let s1 := arrMod (count s 6) a (fun y => { y with
    checking := none, checkFailed := if failed && !second then some (k, stepAttempt s k.lane.val) else none })
  if !failed then (if second then reportOf (count s1 7) 0x01 1 (arrayUid a) (checkDetail gain es band) 0 op else s1)
  else if !second then recomputeSeq s1 k
  else recomputeSeq (reportOf (quarantineArray (count s1 8) a) 0x02 3 (arrayUid a) (checkDetail gain es band) 0 op) k

/-! ### Probe slots (R191, R527, R530) -/

/-- A pattern entry of a pack. -/
structure Pattern where
  pack : Nat
  index : Nat
  vendor : Bool
  ints : List Int
  mode : InputMode
  phases : Nat
  gain : Fin 4
  rmsBand : Nat
  pairBand : Nat
  deriving DecidableEq, Repr

/-- Patterns in a pack (R526). -/
def packCount (p : ProbePack) : Nat := leAt p.bytes 4 4

/-- Pattern i of a pack (R527). -/
def patternOf (p : ProbePack) (i : Nat) : Pattern :=
  let o := 128 + 576 * i
  let m := leAt p.bytes (o + 512) 1
  { pack := p.number, index := i, vendor := p.vendor
    ints := (slice p.bytes o 512).map (fun b => b.toInt)
    mode := if m = 0 then .signed else if m = 1 then .unsigned else .offset
    phases := 2 ^ (leAt p.bytes (o + 513) 1 % 4)
    gain := ⟨leAt p.bytes (o + 514) 1 % 4, Nat.mod_lt _ (by decide)⟩
    rmsBand := leAt p.bytes (o + 516) 2, pairBand := leAt p.bytes (o + 518) 2 }

/-- The pattern whose turn it is: that of the first pack with patterns left in this turn, or of the first pack again. -/
def patternInTurn (s : State) : Option (ProbePack × Bool) :=
  match s.probes.find? (fun p => p.next < packCount p) with
  | some p => some (p, false)
  | none => (s.probes.head?).map (fun p => (p, true))

/-- The pattern of an array's probe slot: one that failed there runs again (R530), else the next in turn; and the packs with
that turn taken. -/
def nextPattern (s : State) (x : OrArray) : Option (Pattern × List ProbePack) :=
  match x.probeFailed.bind (fun f => (s.probes.find? (fun p => p.number = f.1)).map (fun p => patternOf p f.2)) with
  | some q => some (q, s.probes)
  | none => (patternInTurn s).map (fun e =>
      let packs := if e.2 then s.probes.map (fun p => { p with next := 0 }) else s.probes
      let i := if e.2 then 0 else e.1.next
      (patternOf e.1 i, packs.map (fun p => if p.number = e.1.number then { p with next := i + 1 } else p)))

/-- The array step of a pattern, from the charges of its sweeps. -/
def probeStep (x : OrArray) (a : ArrayNo) (k : LayerKey) (q : Pattern) (charges : List (List Int)) : ArrayStep :=
  { key := k, array := a, mode := q.mode, phases := q.phases, gain := q.gain, scale := 0x3F800000#32, ints := q.ints, outliers := 0
    spares := !x.spares.isEmpty
    sweeps := (charges.take (signPhases q.mode * q.phases)).map (serviceSweep q.gain (!x.spares.isEmpty)) }

/-- Results summed over the row phases. -/
def sumPhases (vs : List (List Int)) : List (List Int) := [vs.foldl addRows (List.replicate 512 0)]

/-- A probe slot is judged (R530): a failure is reported, the pattern runs on the array again, and a second failure of a vendor
pack's pattern takes the array out as R190 does. -/
def settleProbe (s : State) (a : ArrayNo) (k : LayerKey) (p : LayerPlan) (q : Pattern) (packs : List ProbePack)
    (golden : List (List F32)) (charges : List (List Int)) : State :=
  let x := arrGet s a.val
  let st := probeStep x a k q charges
  let es := checkErrors (sumPhases (stepValues x st)) (sumPhases (idealValues p a.val q.phases golden q.ints)) (saturatedPairs x st)
  let failed := checkFails q.gain q.rmsBand q.pairBand es
  let packs1 := packs.map (fun y => if y.number = q.pack then
    { y with run := y.run + 1, passed := if failed then y.passed else y.passed + 1, failed := if failed then y.failed + 1 else y.failed } else y)
  let again := x.probeFailed = some (q.pack, q.index)
  let s0 := siteMod { s with probes := packs1 } (a.val / 8) (fun y => countSat y (sweepSaturations st.sweeps))
  let s1 := arrMod (countLayer s0 (a.val / 128) k.lane.val k.node 6 1) a.val (fun y =>
    { y with checking := none, probeFailed := if failed && !again then some (q.pack, q.index) else none })
  if !failed then s1
  else
    let detail := padTo 4 (leBytes 2 q.pack ++ leBytes 2 q.index) ++ leBytes 4 (checkRms q.gain es).toNat ++ leBytes 4 (bandF32 q.rmsBand).toNat
    let s2 := report s1 0x50 (if q.vendor then 2 else 1) (arrayUid a.val) detail
    if again ∧ q.vendor then
      report (quarantineArray (countLayer s2 (a.val / 128) k.lane.val k.node 8 1) a.val) 0x02 3 (arrayUid a.val) (checkDetail q.gain es q.rmsBand)
    else s2

/-- Counts a check of a Quartz unit; every sixteenth is a probe slot while a pack is installed (R191), unless it repeats a
failed check. -/
def isProbeSlot (s : State) (a : Nat) : Bool :=
  !s.probes.isEmpty && (arrGet s a).checkFailed.isNone && decide (((quartzGet s (a / 128)).checks + 1) % 16 = 0)

/-- Whether a site can drive a probe pattern now: nothing is under way there, and it may fire (R19, R20). -/
def probeMayDrive (s : State) (n : Nat) (q : Pattern) : Bool :=
  let x := siteGet s n
  decide (x.activity = .none) && x.step.isNone && x.nextStep.isNone && mayFire s n (stepPower q.mode q.phases) true

/-- A comparison with the ideal results (R186): RMS band, pair band, errors, row phases of the plan combined. -/
def judgeCheck (p : LayerPlan) (arr : OrArray) (a : Nat) (c : ArrayCheck) (golden : List (List F32)) : Nat × List Int × Bool :=
  let sigma := ((arr.active).map (·.sigma)).getD 0
  let es := checkErrors (combinePhases p c.values) (combinePhases p (idealValues p a c.values.length golden c.ints)) c.saturated
  (3 * sigma, es, checkFails p.gain (3 * sigma) (10 * sigma) es)

/-- SENTINEL_CHECK_COMPLETE (R186, R191): the check an array awaits of a layer step, against the golden weights of the generation it holds. In a probe slot
the charges are those of the sweeps that the pattern drove. -/
def checkCompletes (a : ArrayNo) (k : LayerKey) (charges : List (List Int)) (s : State) : State :=
  let x := arrGet s a.val
  match (x.checking.filter (fun c => c.key = k)).bind (fun c => (keyLayer s c.key).bind (fun p => (arrayGolden s p c.key.lane.val a.val).map (fun g => (c, p, g)))) with
  | none => s
  | some (c, p, golden) =>
    let s1 := quartzMod s (a.val / 128) (fun q => { q with checks := q.checks + 1 })
    match (if isProbeSlot s a.val then nextPattern s x else none) with
    | some (q, packs) => if probeMayDrive s (a.val / 8) q then settleProbe s1 a c.key p q packs golden charges else s
    | none =>
      let v := judgeCheck p x a.val c golden
      settleCheck s1 a.val c.key p.gain v.1 v.2.1 v.2.2

/-- PROBE_SUMMARY (R531): one record of every installed pack, each with its own Kiosk core as its unit (log entry 30). -/
def probeSummaries (s : State) : State :=
  if isRunning s then
    s.probes.foldl (fun t p => report t 0x51 0 (otherUid 0 p.number 0)
      (padTo 4 (leBytes 2 p.number) ++ leBytes 4 p.run ++ leBytes 4 p.passed ++ leBytes 4 p.failed)) s
  else s

/-! ### The rows -/

def execSentinelCheckComplete (array : ArrayNo) (key : LayerKey) (probe : List (List Int)) (s : State) : Out State :=
  .next (checkCompletes array key probe s)
def execProbeSummary (s : State) : Out State := .next (probeSummaries s)

end Sys2Proof.Machine
end

