-- ==== Sys2Proof/Machine/Repair.lean ====
section
/-! DEFINITION. What programming leaves in an array (R57, R61, R611), stuck cells (R149, R151–R153), repair adapters (R154–R156,
R174), and array scrubs (R67, R68, R150, R510). -/

namespace Sys2Proof.Machine
open Sys2Proof

/-! ### The end of a programming operation -/

/-- Whether the object an operation programs for still holds the generation (R611). -/
def programHeld (s : State) (x : OrArray) (p : Programming) : Bool :=
  !x.orphaned && s.objects.any (fun o => decide (o.kind = p.owner) && decide (o.handle = p.handle) && o.gens.any (fun g => g.number = p.generation.toNat))

/-- State of an array when the operation that programmed it has ended: one taken out of service meanwhile stays so (R69, R611). -/
def endState (s : State) (a : Nat) : ArrayState :=
  match (arrGet s a).state with | .retired => .retired | .quarantined => .quarantined | _ => restState s a

/-- What is left of an array that ARRAY_ERASE_ALL erases at the end of the operation (R600): wear, stuck cells and a state of 5 or 6. -/
def erasedAtEnd (x : OrArray) : OrArray :=
  { x with
    state := (match x.state with | .retired => .retired | .quarantined => .quarantined | _ => .erased)
    levels := [], scales := [], levelSums := [], ownerKind := 0, owner := 0, generation := 0, due := false, eraseAfter := false }

/-- A programming operation has ended: the array holds what it wrote, the site is released, and a calibration is due; an array whose
generation is gone is free (R611), one to be erased erased (R600). Spare pairs that it programmed take effect with the table of that calibration
(R153). -/
def programEnds (s : State) (a : Nat) (p : Programming) (stuck : List CellReading) : State :=
  let x := arrGet s a
  let fresh := { x with
    state := endState s a, program := none, content := {}, orphaned := false
    levels := x.content.levels, scales := x.content.scales, levelSums := x.content.levelSums
    stuck := stuck, suspects := [], tracking := [], lastStep := [], sparesWritten := x.sparesPending, verified := true, unproven := false
    everServed := false }
  let owned := if programHeld s x p then
      { fresh with ownerKind := ownerCode p.owner, owner := p.handle, generation := p.generation.toNat, due := true }
    else { fresh with ownerKind := 0, owner := 0, generation := 0 }
  siteReleased (arrSet s a (if x.eraseAfter then erasedAtEnd owned else owned)) (a / 8)

/-- The operation in progress at an array. -/
def programAt (s : State) (a : Nat) : Option Programming :=
  if (siteGet s (a / 8)).activity = .programming a then (arrGet s a).program else none

/-- Whether two readings are of one cell. -/
def sameCell (c d : CellReading) : Bool := decide (c.pair = d.pair ∧ c.row = d.row) && c.positive == d.positive

/-- Free spare pair of an array (R29). -/
def freeSpare (x : OrArray) : Option Nat :=
  ((List.range 16).find? (fun i => !(x.spares ++ x.sparesPending).any (fun e => e.2 = 528 + i))).map (528 + ·)

/-! ### Expected errors over recorded inputs (R152, R155) -/

/-- A golden weight under a scale, in 1/1,000 level; in an array of an 8-bit layer the nibble it holds. -/
def weightMilli (scale : BitVec 16) (w : F32) : Int :=
  match fDecode fmtF16 scale.toNat, f32v w with
  | .fin _ sm se, .fin neg m e =>
    if sm = 0 then 0
    else let r := scaled (1000 * m) sm (e - se); if neg then -Int.ofNat (rne r.1 r.2) else Int.ofNat (rne r.1 r.2)
  | _, _ => 0

/-- The stuck cell of a row, if it is one. -/
def stuckAt (x : OrArray) (pair row : Nat) (positive : Bool) : Option CellReading :=
  x.stuck.find? (fun c => decide (c.pair = pair ∧ c.row = row) && c.positive == positive)

/-- What a row of a pair holds with its cells at some levels, in 1/1,000 level: a stuck cell what it measured, any other its target. -/
def rowMilli (x : OrArray) (pair row : Nat) (cells : Nat × Nat) : Int :=
  (((stuckAt x pair row true).map (·.level)).getD (1000 * Int.ofNat cells.1))
    - (((stuckAt x pair row false).map (·.level)).getD (1000 * Int.ofNat cells.2))

/-- What an array serves, for the error of its pairs: place, golden weights by pair, and the recorded integers of its row block. -/
structure PairErrors where
  place : ArrayPlace
  golden : List (List F32)
  tokens : List (List Int)
  deriving DecidableEq, Repr

/-- None while an array is in no plan or its golden copy is not at hand. -/
def pairErrors (s : State) (a : Nat) : Option PairErrors :=
  (sameContents s a).bind (fun p => (goldenPlace s a p.owner p.handle p.generation.toNat).map (fun e =>
    { place := e.1, golden := e.2
      tokens := (historyGet s e.1.lane e.1.layer.node).tokens.map (fun t => lgetD t (blockOf e.1.layer a).1 []) }))

/-- The golden weight of a row of a pair, in 1/1,000 level. -/
def goldenMilli (x : OrArray) (e : PairErrors) (a pair row : Nat) : Int :=
  match carried x pair with
  | none => 0
  | some d =>
    let p := e.place.layer
    let ws := lgetD e.golden d []
    if nibbleOf p a = .whole then
      weightMilli (lgetD (lgetD x.scales d []) (if p.sum then 0 else row / (512 / p.phases)) 0) (lgetD ws row 0)
    else 1000 * lgetD (layerLevels (nibbleOf p a) p.sum p.phases ws) row 0

/-- Errors of the rows of a pair's 64-row block against the golden weights, with the cells of each row at some levels. -/
def blockErrors (x : OrArray) (e : PairErrors) (a pair blk : Nat) (cells : Nat → Nat × Nat) : List Int :=
  (List.range 64).map (fun i => rowMilli x pair (64 * blk + i) (cells i) - goldenMilli x e a pair (64 * blk + i))

/-- Count squared times the expected squared error of a block's result, over the covariance of its recorded inputs (R152). -/
def blockSpread (e : PairErrors) (blk : Nat) (errors : List Int) : Nat :=
  spread (e.tokens.map (fun t => dotInt errors ((t.drop (64 * blk)).take 64)))

/-! ### Neighbour adjustment (R151, R152) -/

/-- A stuck cell keeps its target; in a row without one the weight level is held as R26 holds it. -/
def cellsAllowed (x : OrArray) (pair row : Nat) (cells : Nat × Nat) : Bool :=
  let now := cellsOf x pair row
  match (stuckAt x pair row true).isSome, (stuckAt x pair row false).isSome with
  | false, false => decide (cells.1 = 0 ∨ cells.2 = 0)
  | true, false => decide (cells.1 = now.1)
  | false, true => decide (cells.2 = now.2)
  | true, true => decide (cells = now)

/-- The neighbour adjustment offered for a pair's block: cells of its rows, levels in range, the stuck ones left as they are. -/
def adjustBlock (x : OrArray) (pair blk : Nat) (offered : List (Nat × Nat × Nat × Nat)) : List (Nat × Nat × Nat × Nat) :=
  offered.filter (fun e => decide (e.1 = pair ∧ e.2.1 / 64 = blk ∧ e.2.2.1 ≤ 15 ∧ e.2.2.2 ≤ 15) && cellsAllowed x pair e.2.1 e.2.2)

/-- Cells of row i of a block once an adjustment is made. -/
def adjustedCells (x : OrArray) (l : List (Nat × Nat × Nat × Nat)) (pair blk i : Nat) : Nat × Nat :=
  ((l.find? (fun e => decide (e.1 = pair ∧ e.2.1 = 64 * blk + i))).map (·.2.2)).getD (cellsOf x pair (64 * blk + i))

/-- Whether no levels of the block's cells give a smaller expected error (R152). How they are found the manual does not say: the model takes
Ezjor's choice, if it is such a minimum (log entry 99). -/
def minimalBlock (x : OrArray) (e : PairErrors) (a pair blk : Nat) (chosen : Nat → Nat × Nat) : Bool :=
  decide (∀ f : Fin 64 → Fin 16 × Fin 16, blockSpread e blk (blockErrors x e a pair blk chosen)
    ≤ blockSpread e blk (blockErrors x e a pair blk (fun i => ((f (Fin.ofNat 64 i)).1.val, (f (Fin.ofNat 64 i)).2.val))))

/-- Whether neighbour adjustment absorbs the stuck cells of a pair's block (R151). -/
def blockAdjusts (x : OrArray) (e : PairErrors) (a pair blk : Nat) (offered : List (Nat × Nat × Nat × Nat)) : Bool :=
  let block := x.stuck.filter (fun d => decide (d.pair = pair ∧ d.row / 64 = blk))
  let chosen := adjustedCells x (adjustBlock x pair blk offered) pair blk
  decide (block.length ≤ 2) && block.all (fun d => decide (cellError x d ≤ 4000)) && !e.tokens.isEmpty
    && withinSigma e.place.layer.gain e.tokens.length (blockSpread e blk (blockErrors x e a pair blk chosen)) x.sigma 1 4
    && minimalBlock x e a pair blk chosen

/-- Whether a pair's result is used once waiting assignments have taken effect (R27, R29): a data pair that a spare pair stands in for is
ignored, and so is a pair that carries no weights (log entry 44). -/
def resultUsed (x : OrArray) (pair : Nat) : Bool :=
  match carried x pair with
  | none => false
  | some d => decide ((((x.sparesPending ++ x.spares).find? (fun e => e.1 = d)).map (·.2)).getD d = pair)

/-- Action of R151 for a pair's newly stuck cells, numbered in the order of its rows: 0 record only, 1 neighbour adjustment,
2 spare-pair remap, 3 repair adapter. -/
def absorbAction (x : OrArray) (e : Option PairErrors) (a : Nat) (cells : List CellReading) (offered : List (Nat × Nat × Nat × Nat)) : Nat :=
  if cells.all (fun c => decide (cellError x c ≤ 600) || !resultUsed x c.pair) then 0
  else if !x.wearLimited && cells.all (fun c => (e.map (fun y => blockAdjusts x y a c.pair (c.row / 64) offered)).getD false) then 1
  else if (freeSpare x).isSome ∧ !x.wearLimited then 2
  else 3

/-! ### Repair adapters (R154–R156, R174, R266) -/

/-- Whether Pavilion memory of the layer's quarter has room for one more repair adapter of up to 4 MiB, beside those begun since the
installed plan's scratch map was drawn up (R154, R266). -/
def adapterRoom (s : State) (p : LayerPlan) : Bool :=
  let q := (layerQuarter p).val
  let since := s.repairAdapters.filter (fun e => !(planLanes s).any (fun l => decide (l.graph.val = e.lane) && l.items.any (fun i =>
    decide (i.order.val = 1 ∧ i.layer = e.node))) && (e.arrays.any (fun a => decide (a.val / 524288 = q))))
  decide (4194304 * (since.length + 1) ≤ pavilionRoom s q)

/-- Training of a repair adapter for a layer and replica that use an array begins (R154, R155), for the array's stuck cells beside those of
a training under way; without room the array is retired (R266). -/
def startAdapter (a : ArrayNo) (s : State) (place : ArrayPlace) : State :=
  let new : RepairAdapter := { lane := place.lane, node := place.layer.node, replica := place.replica, arrays := [a], startedAt := hostTime s }
  let training := s.repairAdapters.filter (fun e => sameAdapter e new && !e.inEffect)
  let known := s.repairAdapters.any (sameAdapter new)
  let others := ((s.repairAdapters.map (fun e => (e.lane, e.node, e.replica))).eraseDups).length
  if !known ∧ (1024 ≤ others ∨ !adapterRoom s place.layer) then retireReported s a.val 2
  else
    let wide := contributionHigh s place a.val || training.any (·.wide)
    let entry := { new with arrays := (training.flatMap (·.arrays) ++ [a]).eraseDups, wide := wide }
    let s1 := { s with repairAdapters := s.repairAdapters.filter (fun e => !(sameAdapter e new && !e.inEffect)) ++ [entry] }
    if wide then wideLayer s1 place.lane place.layer.node else s1

/-- Repair adapters for every layer that uses an array, in plans that run and in the one that waits. -/
def startAdapters (s : State) (a : Nat) : State :=
  if h : a < 2097152 then
    (((arrayPlaces s a).map (fun e => (e.lane, e.layer.node, e.replica))).eraseDups).foldl (fun t k =>
      match (arrayPlaces s a).find? (fun e => decide ((e.lane, e.layer.node, e.replica) = k)) with
      | some e => startAdapter ⟨a, h⟩ t e
      | none => t) s
  else s

/-- Whether a gradient norm jumps (R174): F = 4.0. -/
def normJumps (mu r : F32) : Bool := f32lt (f32mul (f32int 4) mu) r || f32lt r (f32div mu (f32int 4))

/-- One training iteration under the watch of R174: kept, kept after its recomputation, or discarded. The manual gives no start of the running
mean: the first iteration is kept and sets it (log entry 100). -/
def watchIteration (e : RepairAdapter) (n : F32 × Option F32) : RepairAdapter :=
  if e.kept = 0 then { e with mean := n.1, kept := 1 }
  else
    let keep := fun r => { e with mean := meanAfter e.mean r, kept := e.kept + 1 }
    if !normJumps e.mean n.1 then keep n.1
    else match n.2 with
      | some r => if normJumps e.mean r then { e with dropped := e.dropped + 1 } else keep r
      | none => { e with dropped := e.dropped + 1 }

/-- Whether a training result is an adapter the engine takes (R154, R156): rank 1 to 8, at most 4 MiB, residual down to the σ of every array
it serves, within 2 s of host time. -/
def adapterGood (s : State) (e : RepairAdapter) (t : TrainedAdapter) : Bool :=
  decide (1 ≤ t.inputs.length ∧ t.inputs.length ≤ 8 ∧ t.outputs.length = t.inputs.length)
    && decide (adapterBytes { e with trained := some t } ≤ 4194304)
    && e.arrays.all (fun a => decide (t.residual ≤ (arrGet s a.val).sigma))
    && decide (hostTime s ≤ e.startedAt + 2000000000)

/-- REPAIR_ADAPTER_TRAINED: its iterations are watched (R174); a result good enough takes effect at the lane's next boundary. -/
def adapterTrained (g : Nat) (t : TrainedAdapter) (s : State) : State :=
  { s with repairAdapters := s.repairAdapters.map (fun e =>
      if e.lane = g ∧ e.node = t.node ∧ e.replica = t.replica ∧ e.trained.isNone then
        let w := t.norms.foldl watchIteration e
        if adapterGood s e t then { w with trained := some t } else w
      else e) }

/-- REPAIR_ADAPTER_TIMEOUT: 2 s of host time without success discard the adapter, of each replica that they have passed for, and retire its
arrays (R156). -/
def adapterTimesOut (g node : Nat) (s : State) : State :=
  let late := s.repairAdapters.filter (fun e => decide (e.lane = g) && decide (e.node = node) && e.trained.isNone
    && decide (e.startedAt + 2000000000 ≤ hostTime s))
  late.foldl (fun t e => e.arrays.foldl (fun u a => retireReported u a.val 2)
    { t with repairAdapters := t.repairAdapters.filter (fun y => y ≠ e) }) s

/-! ### Stuck cells (R149–R153) -/

/-- A pair is to be remapped to a free spare pair, which the next programming operation writes (R153). -/
def remapPair (x : OrArray) (data : Nat) : OrArray :=
  { x with reprogram := true
           sparesPending := x.sparesPending.filter (fun e => e.1 ≠ data) ++ [(data, (freeSpare x).getD 528)] }

/-- One pair's newly stuck cells are absorbed (R151–R153) and reported. -/
def absorbPair (a : Nat) (offered : List (Nat × Nat × Nat × Nat)) (s : State) (cells : List CellReading) : State :=
  let x := arrGet s a
  let act := absorbAction x (pairErrors s a) a cells offered
  let pair := ((cells.head?).map (·.pair)).getD 0
  let chosen := ((cells.map (fun c => c.row / 64)).eraseDups).flatMap (fun b => adjustBlock x pair b offered)
  let s1 :=
    if act = 1 then arrMod s a (fun y => { y with
      reprogram := true
      adjusted := y.adjusted.filter (fun e => !chosen.any (fun f => decide (f.1 = e.1 ∧ f.2.1 = e.2.1))) ++ chosen })
    else if act = 2 then arrMod s a (fun y => remapPair y ((carried x pair).getD pair))
    else if act = 3 then startAdapters s a
    else s
  report s1 0x09 1 (arrayUid a) (padTo 2 (leBytes 1 act) ++ leBytes 2 cells.length)

/-- An array's newly stuck cells: more than 64 in all retire it (R62), else each affected pair is absorbed in turn. A repair or a refresh
programs the array again as soon as it may be (R59, R152, R153). -/
def absorbStuck (s : State) (a : Nat) (new : List CellReading) (offered : List (Nat × Nat × Nat × Nat)) (refresh : Bool) : State :=
  if 64 < (arrGet s a).stuck.length then retireReported s a 1
  else
    let s1 := ((new.map (·.pair)).eraseDups).foldl (fun t p => absorbPair a offered t (new.filter (fun c => c.pair = p))) s
    programAgain (arrMod s1 a (fun x => { x with reprogram := x.reprogram || (refresh && !x.wearLimited) })) a

/-- Whether a cell has passed verify (R61): within 0.2 level of its target. -/
def passes (x : OrArray) (c : CellReading) : Bool := decide (cellError x c ≤ 200)

/-- PROGRAMMING_COMPLETE: every cell has passed verify (R57, R61), within the longest maximum time of R58 (log entry 107). -/
def programCompletes (a : Nat) (cells : List CellReading) (elapsed : Nat) (s : State) : State :=
  match programAt s a with
  | none => s
  | some p =>
    if cells.all (passes (programTarget (arrGet s a))) ∧ elapsed ≤ 3000000 then startPrograms (programEnds s a p []) else s

/-- PROGRAMMING_MAXIMUM_TIME, not before the shortest maximum time of R58 (log entry 107): cells that have not passed verify are stuck
(R61, R62); those that were not so under the same contents before are absorbed (R151). -/
def programTimesOut (a : Nat) (cells : List CellReading) (offered : List (Nat × Nat × Nat × Nat)) (elapsed : Nat) (s : State) : State :=
  match (programAt s a).filter (fun _ => 2500000 ≤ elapsed) with
  | none => s
  | some p =>
    let x := arrGet s a
    let stuck := cells.filter (fun c => !passes (programTarget x) c)
    let old := if sameOwner x p then x.stuck else []
    let new := stuck.filter (fun c => !old.any (sameCell c) && !x.sparesPending.any (fun e => e.1 = c.pair) && !x.spares.any (fun e => e.1 = c.pair))
    startPrograms (absorbStuck (programEnds s a p stuck) a new offered false)

/-! ### Array scrubs (R67, R68, R149, R150, R510) -/

/-- Whether the RMS deviation of an array's 557,056 cells exceeds 0.35 level (R150), for the cells that are off. -/
def rmsHigh (x : OrArray) (cells : List CellReading) : Bool :=
  decide (350 ^ 2 * 557056 < cells.foldl (fun t c => t + cellError x c ^ 2) 0)

/-- Every cell of an array as a scrub measured it: one that is not listed stands where it was programmed to. -/
def allCells (x : OrArray) (cells : List CellReading) : List CellReading :=
  (List.range 544).flatMap (fun p => (List.range 512).flatMap (fun r => [true, false].map (fun positive =>
    let c : CellReading := { pair := p, row := r, positive := positive, level := 0 }
    (cells.find? (sameCell c)).getD { c with level := cellTarget x c })))

/-- Weight levels that the golden copy of an array's owner calls for (R51, R510): those it holds if they were made from that copy, else those
of the layer a plan places there; none where no plan does (log entry 26). -/
def goldenLevels (s : State) (a : Nat) (p : Programming) : Option (List (List Int)) :=
  let x := arrGet s a
  if x.source = generationDigest s p.owner p.handle p.generation.toNat then some x.levels
  else (goldenPlace s a p.owner p.handle p.generation.toNat).map (fun e => programLevels x e.1.layer a e.2)

/-- Whether a scrub of an array may run: where a calibration could, over an array whose golden copy is held; of an array that serves a lane in
HOLD mode at a step boundary (R510). -/
def mayScrub (s : State) (a : Nat) : Bool :=
  isRunning s && decide (s.power.state ≠ .dormant) && decide ((arrGet s a).state = .programmed ∨ (arrGet s a).state = .serving)
    && (sameContents s a).isSome && siteFree s (a / 8) && mayWork s (a / 8) (.calibrating 0 0 0)
    && (!holdArray s a || siteBetweenSteps s (a / 8))

/-- An array that the verification of R68 finds to hold something else: programmed from the golden copy where a plan says with what, else free
(R127, R366); one that is wear-limited cannot be, and is retired (R64). -/
def verificationFails (s : State) (a : Nat) (levels : Option (List (List Int))) : State :=
  if (arrGet s a).wearLimited then retireArray s a
  else if levels.isSome then programAgain (arrMod s a (fun y => { y with reprogram := true })) a
  else arrMod s a (fun y => { y with ownerKind := 0, owner := 0, generation := 0, due := false })

/-- ARRAY_SCRUB: cells two consecutive scrubs found more than 0.6 level off are stuck (R149); an array too far off is refreshed,
unless it is wear-limited (R64, R150). A scrub is also the verification of R68 and R366 (log entry 26). -/
def arrayScrubbed (a : Nat) (cells : List CellReading) (offered : List (Nat × Nat × Nat × Nat)) (s : State) : State :=
  match (sameContents s a).filter (fun _ => mayScrub s a) with
  | none => s
  | some p =>
    let x := arrGet s a
    let levels := goldenLevels s a p
    let target := { x with levels := levels.getD [] }
    let rms := levels.isNone || rmsHigh target (if target.levels = x.levels then cells else allCells x cells)
    if rms ∧ (x.unproven ∨ (!x.verified ∧ x.wearLimited)) then verificationFails s a levels
    else
      let off := cells.filter (fun c => decide (600 < cellError target c))
      let new := off.filter (fun c => x.suspects.any (fun e => decide (e = (c.pair, c.row, c.positive))) && !x.stuck.any (sameCell c))
      let s1 := arrMod s a (fun y => { y with
        suspects := off.map (fun c => (c.pair, c.row, c.positive)), stuck := y.stuck ++ new, verified := y.verified || !rms
        unproven := false, due := y.due || y.active.isNone })
      settleRecovered (absorbStuck s1 a new offered (rms || decide (1200 < x.sigma))) a

/-! ### The rows -/

def execProgrammingComplete (array : ArrayNo) (cells : List CellReading) (elapsed : Nat) (s : State) : Out State :=
  .next (programCompletes array.val cells elapsed s)
def execProgrammingMaximumTime (array : ArrayNo) (cells : List CellReading) (adjusted : List (Nat × Nat × Nat × Nat)) (elapsed : Nat)
    (s : State) : Out State := .next (programTimesOut array.val cells adjusted elapsed s)
def execArrayScrub (array : ArrayNo) (cells : List CellReading) (adjusted : List (Nat × Nat × Nat × Nat)) (s : State) : Out State :=
  .next (arrayScrubbed array.val cells adjusted s)
def execRepairAdapterTrained (lane : LaneId) (result : TrainedAdapter) (s : State) : Out State := .next (adapterTrained lane.val result s)
def execRepairAdapterTimeout (lane : LaneId) (node : Nat) (s : State) : Out State := .next (adapterTimesOut lane.val node s)

end Sys2Proof.Machine
end

