-- ==== Sys2Proof/Machine/Windows.lean ====
section
/-! DEFINITION. The windows of a core (R246, R247, R255–R257, R261): how they open, close and open again within a step. -/

namespace Sys2Proof.Machine
open Sys2Proof

def slotMod (s : State) (c slot : Nat) (f : Window → Window) : State :=
  coreMod s c (fun x => { x with windows := lmod x.windows slot f })

/-- A window of a core. -/
def slotGet (s : State) (c slot : Nat) : Window := lgetD (coreGet s c).windows slot {}

/-- Whether a window was opened in the plan epoch its lane still runs. -/
def windowCurrent (s : State) (w : Window) : Bool :=
  decide (w.epoch ≠ 0) && decide ((sget s.lanes w.lane).map (·.epoch) = some w.epoch)

/-- Guard of a write window: eight times its planned span, at least 2 µs (R261). -/
def guardTime (span : Nat) : Nat := max 2000 (8 * span)

/-- The next opening of a window at an elapsed time: with a tag of its own (R256) and the guard of its own span (R261). -/
def nextOpening (now : Nat) (w : Window) : Window :=
  match w.spans with
  | [] => { w with reopens := none }
  | d :: ds =>
    { w with
      open_ := true, spans := ds, reopens := none, tag := if w.openings = 0 then w.tag else w.tag + w.stride, openings := w.openings + 1
      written := [], marks := [], completions := 0, openedAt := now, span := d, guard := guardTime d }

/-- A plan window as a step starts (R246, R255, R256). Tags go on from one step to the next and counts of late accesses stand within a plan
epoch. -/
def openedWindow (epoch g now : Nat) (w : PlanWindow) (old : Window) : Window :=
  let same := decide (old.epoch = epoch ∧ old.lane = g ∧ old.base = w.base)
  nextOpening now
    { other := w.other.map (·.val), spans := w.spans, compute := w.compute, computed := now
      openings := if same then old.openings else 0, tag := if same then old.tag else w.tag, stride := w.stride
      direction := w.direction, vc2 := w.vc2, base := w.base, lines := w.lines, readers := w.readers
      epoch := epoch, lane := g, node := w.node
      lateWrites := if same then old.lateWrites else 0, lateReads := if same then old.lateReads else 0 }

/-- Opens the windows of a lane's plan. The manual lets the plan choose the moment within the step: the model opens them, both buffers of a
streamed operand too, as the step starts (log entry 34). -/
def openWindows (s : State) (g : Nat) : State :=
  match sget s.lanes g with
  | none => s
  | some l => l.plan.windows.foldl (fun t w => slotMod t (coreKey w.owner) w.slot.val (openedWindow l.epoch g s.now w)) s

/-- Windows of a core whose next opening has come: the core has computed from what the last one brought (R246). -/
def reopenWindows (s : State) (c : Nat) : State :=
  coreMod s c (fun x => { x with windows := x.windows.map (fun w => match w.reopens with
    | some t => if t ≤ s.now then nextOpening t w else w
    | none => w) })

/-- A write window of a streamed operand closed later than planned: the core waited at the exchange (R247). -/
def exchangeWaited (s : State) (w : Window) : State :=
  if w.other.isSome ∧ w.direction ≠ 1 ∧ w.openedAt + w.span < s.now then
    laneMod s w.lane (fun l => { l with step := l.step.map (fun x => { x with waited := x.waited + (s.now - (w.openedAt + w.span)) }) })
  else s

/-- A window closes. The core computes from what it brought once it has computed from the other buffer; then the buffer is free and the
window opens for its next filling (R246). -/
def closeWindow (s : State) (c slot : Nat) : State :=
  let w := slotGet s c slot
  let other := ((w.other.map (slotGet s c)).map (·.computed)).getD 0
  let done := max s.now other + w.compute
  slotMod (exchangeWaited s w) c slot (fun x =>
    { x with open_ := false, computed := done, reopens := if x.spans.isEmpty then none else some done })

/-- Whether a window's closing condition of R257 holds: every line written, a completion mark from every declared reader; a window that a
VC2 sender fills waits for its close point. One that is both read and written needs both (log entry 32). -/
def windowDone (w : Window) : Bool :=
  let full := decide (w.lines ≤ w.written.length)
  let read := w.readers.all (fun r => w.marks.contains r)
  !w.vc2 && (if w.direction = 0 then full else if w.direction = 1 then read else full && read)

/-- A window whose closing condition holds closes. -/
def settleWindow (s : State) (c slot : Nat) : State :=
  if (slotGet s c slot).open_ ∧ windowDone (slotGet s c slot) then closeWindow s c slot else s

/-- Whether a lane waits for a window that is still to be filled (R247), now or in an opening to come. -/
def windowsOpen (s : State) (g : Nat) : Bool :=
  s.cores.any (fun e => e.2.windows.any (fun w =>
    (w.open_ || !w.spans.isEmpty) && decide (w.direction ≠ 1) && decide (w.lane = g) && windowCurrent s w))

/-- The windows of a step that is given up close for good. -/
def dropWindows (s : State) (g : Nat) : State :=
  { s with cores := smapAll s.cores (fun _ c => { c with windows := c.windows.map (fun w =>
      if w.lane = g then { w with open_ := false, spans := [], reopens := none } else w) }) }

end Sys2Proof.Machine
end

