-- ==== Sys2Proof/Machine/UnitPackets.lean ====
section
/-! DEFINITION. The packets that read and steer the units: cores and golden copies (R466), arrays, sites, Quartz units and
probe packs (R467). -/

namespace Sys2Proof.Machine
open Sys2Proof

/-! ### Cores (R263, R264) -/

/-- Cores of a kind in a quarter (R233). -/
def coresOf (kind : Nat) : Nat := if kind = 3 then 96 else if kind = 4 then 384 else 32

/-- Number of the first core of a UID kind, as coreKey numbers them. -/
def kindBase (kind : Nat) : Nat := if kind = 3 then 0 else if kind = 4 then 512 else 1024

/-- A window status record (R264). -/
def windowRecord (s : State) (slot : Nat) (w : Window) : Bytes :=
  let current := windowCurrent s w
  wordBytes
    [ packW [(30, 2, boolBit w.open_), (28, 2, w.direction.val), (27, 1, boolBit w.vc2), (16, 3, slot), (0, 16, w.base)],
      packW [(16, 16, w.lines), (0, 16, w.tag.toNat)],
      packW [(16, 16, w.written.length), (8, 8, w.readers.length), (0, 8, w.completions)],
      packW [(16, 16, if current then min w.lateWrites 65535 else 0), (0, 16, if current then min w.lateReads 65535 else 0)] ]

def coreRecord (s : State) (c : Core) : Bytes :=
  wordBytes [c.lateWrites.toNat, c.lateReads.toNat] ++ (List.range 8).flatMap (fun i => windowRecord s i (lgetD c.windows i {}))

/-- The state once the windows of some cores of which a window is to open again have been settled. -/
def coresNow (s : State) (first n : Nat) : State :=
  (List.range n).foldl (fun u i => if shas u.cores (first + i) then reopenWindows u (first + i) else u) s

def bodyCoreStatsRead (c : Ctx) (s : State) : State :=
  let kind := c.par 1 1
  match firstBad [(decide (3 < c.par 0 1), 0), (decide (kind < 3 ∨ 5 < kind), 1), (decide (coresOf kind ≤ c.par 2 2), 2),
      (decide (coresOf kind < c.par 2 2 + c.par 4 2), 4)] with
  | some o => replyInvalid c s (parDetail o)
  | none =>
    let first := c.par 0 1 * 2048 + kindBase kind + c.par 2 2
    let t := coresNow s first (c.par 4 2)
    replyBuffer c t 8 ((List.range (c.par 4 2)).flatMap (fun i => coreRecord t (coreGet t (first + i))))

/-! ### MEM_READ (R250–R253, R466) -/

/-- A byte of the golden copy of a held generation: shard k lies at k × 256 MiB of the image (R344). What a shard not yet verified holds the
manual does not say: a free value (log entry 101). -/
def goldenByte (s : State) (g : Generation) (i : Nat) : Byte :=
  match (g.shards[i / 268435456]?).filter (·.verified) with
  | some x => lgetD x.bytes (i % 268435456) 0
  | none => Config.freeByte (s.freeIdx + i)

/-- Free values that reading a golden copy uses up, one for each byte of the image while a shard of it has not been verified. -/
def goldenRead (s : State) (g : Generation) : State :=
  if g.shards.all (·.verified) then s else { s with freeIdx := s.freeIdx + 268435456 * g.shards.length }

/-- MEM_READ: the selected elements, packed at the destination pitch; each element outside the image is delivered as zero and
counts as a violation (R253, R555). -/
def bodyMemRead (c : Ctx) (s : State) : State :=
  match objKindOf (c.par 0 1) with
  | none => replyInvalid c s (parDetail 0)
  | some k =>
    match firstBad (accessChecks (c.parBytes 16 16) 16) with
    | some o => replyInvalid c s (parDetail o)
    | none =>
      match (objGet s k (c.par 2 2)).bind (fun o => o.gens.find? (fun g => g.number = c.par 4 2)) with
      | none => replySt c s .notFound
      | some g =>
        let a := accessOf (c.parBytes 16 16)
        let size := g.shards.foldl (fun t x => t + x.length) 0
        let start := c.par 8 8
        let out := a.deliver (fun i => if start + i < size then goldenByte s g (start + i) else 0)
        let fits := decide (c.par 32 8 % 64 = 0) && decide (out.length ≤ c.par 40 4)
        replyBuffer c (if fits then violations (goldenRead s g) c.fn (a.outside (fun i => start + i < size)) else goldenRead s g) 32 out

/-! ### Arrays (R69, R116, R117, R141) -/

def ArrayState.code : ArrayState → Nat
  | .erased => 0 | .programmed => 1 | .serving => 2 | .programming => 3 | .calibrating => 4 | .quarantined => 5 | .retired => 6

/-- An array status record (R69). Of an array that has never been programmed the manual gives no hours since programming: the model reads
0 (log entry 96). A spare pair counts as assigned from the decision to use it on, before it is programmed (R153; log entry 44). -/
def arrayRecord (s : State) (n : Nat) : Bytes :=
  let a := arrGet s n
  wordBytes
    [ packW [(0, 21, n)],
      packW [(28, 4, a.state.code), (27, 1, boolBit a.wearLimited), (10, 17, wearOf s n), (5, 5, a.spares.length + a.sparesPending.length)],
      packW [(30, 2, a.ownerKind), (16, 14, a.owner), (0, 16, a.generation)],
      packW [(24, 8, min 255 a.stuck.length),
        (0, 24, if a.wear = 0 then 0 else min 16777215 ((s.powered - a.programmedAt) / 3600000000000))] ]

def bodyArrayStatusRead (c : Ctx) (s : State) : State :=
  match firstBad [(decide (2097152 ≤ c.par 0 4), 0),
      (decide (c.par 4 4 = 0 ∨ 65536 < c.par 4 4 ∨ 2097152 < c.par 0 4 + c.par 4 4), 4)] with
  | some o => replyInvalid c s (parDetail o)
  | none => replyBuffer c s 8 ((List.range (c.par 4 4)).flatMap (fun i => arrayRecord s (c.par 0 4 + i)))

/-- A correction-table entry as its word (R116). -/
def calEntry (e : Nat × Int) : Nat := packW [(16, 16, e.1), (0, 16, twos 16 e.2)]

/-- Header and entries of an array's active table (R117); while no table is active the words that describe it, 2 to 4 among them, and the
entries read zero (log entry 84). -/
def calTableBytes (s : State) (n : Nat) : Bytes :=
  let a := arrGet s n
  let t := a.active
  wordBytes
    ([ packW [(0, 21, n)],
       packW [(28, 4, a.result), (24, 4, (t.map (·.rounds)).getD 0), (16, 8, twos 8 ((t.map (·.temperature)).getD 0)),
         (0, 16, (t.map (·.sigma)).getD 0)],
       if t.isSome then packW [(16, 16, a.tau), (0, 16, a.tableEpoch)] else 0,
       if t.isSome then a.activatedAt % 2 ^ 32 else 0, if t.isSome then a.activatedAt / 2 ^ 32 % 2 ^ 32 else 0,
       packW [(16, 16, intervalMs s n)] ]
     ++ (List.range 544).map (fun i => match t with | some x => calEntry (lgetD x.entries i (0, 0)) | none => 0))

def bodyCalTableRead (c : Ctx) (s : State) : State :=
  if 2097152 ≤ c.par 0 4 then replyInvalid c s (parDetail 0) else replyBuffer c s 8 (calTableBytes s (c.par 0 4))

/-- ARRAY_CAL_RUN (R141): the calibration waits for the array's next gap. -/
def bodyArrayCalRun (c : Ctx) (s : State) : State :=
  let a := c.par 0 4
  if 2097152 ≤ a then replyInvalid c s (parDetail 0)
  else match (arrGet s a).state with
    | .erased => replyInvalid c s (parDetail 0)
    | .quarantined => replyInvalid c s (parDetail 0)
    | .retired => replyInvalid c s (parDetail 0)
    | .programming => replySt c s .busy
    | _ => startJob c s (.arrayCal a false)

/-! ### Sites (R83, R84, R110–R114) -/

/-- Where the spare stands now (R113): its place in the rotation; calibrating itself while the start-up calibration has it (R82); in a swap
test at the position of the pair converted again (R108). -/
def spareNow (x : Site) : Nat :=
  if x.fixed then x.spare
  else if x.starting.contains 16 then 17
  else match x.activity with
    | .diagnosing _ => diagSpare x.spare (diagSweep x.readings x.tested)
    | _ => x.spare

/-- Slice status word (R113). -/
def sliceStatus (x : Site) : Nat :=
  packW [(22, 5, spareNow x), (21, 1, boolBit x.fixed), (16, 5, if x.fixed then x.failedSlice else 0), (0, 16, x.rotations)]

/-- A site named by quarter and site (R467), none if the quarter is none. -/
def siteOf (c : Ctx) : Option Nat := if 3 < c.par 0 1 then none else some (c.par 0 1 * 65536 + c.par 2 2)

def bodySiteSeqRead (c : Ctx) (s : State) : State :=
  match siteOf c with
  | none => replyInvalid c s (parDetail 0)
  | some n =>
    let x := siteGet s n
    replyBuffer c s 8 (wordBytes ([x.control.toNat, sliceStatus x, x.dac.toNat] ++ x.entries.map (·.toNat)
      ++ [x.satData.toNat, x.satRef.toNat]))

/-- Whether a valid entry may follow a table whose last valid pair is `last`; the first offending entry (R84). -/
def tableFault : Nat → Option Int → List Nat → Option Nat
  | _, _, [] => none
  | i, last, e :: es =>
    let valid := decide (fld e 31 31 = 1)
    if !valid then (match es.findIdx? (fun x => fld x 31 31 = 1) with | some j => some (i + 1 + j) | none => none)
    else if decide (fld e 19 10 < fld e 9 0) || decide (543 < fld e 19 10) ||
        (match last with | some l => decide (Int.ofNat (fld e 9 0) ≤ l) | none => false) then some i
    else tableFault (i + 1) (some (Int.ofNat (fld e 19 10))) es

/-- Checks of SITE_SEQ_WRITE's words: reserved fields, mode and target 3 (R112, R114), entries (R83, R84). -/
def seqChecks (c : Ctx) : List (Bool × Nat) :=
  let w := c.par 4 4
  let d := c.par 8 4
  let es := (List.range 16).map (fun i => c.par (12 + 4 * i) 4)
  [ (decide (fld w 17 16 ≠ 0), 6), (decide (fld w 26 24 ≠ 0 ∨ fld w 31 30 = 3), 7), (decide (fld d 31 12 ≠ 0 ∨ fld d 11 10 = 3), 9) ]
  ++ (numbered es).map (fun e => (decide (fld e.2 21 20 ≠ 0), 12 + 4 * e.1 + 2))
  ++ (match tableFault 0 none es with | some i => [(true, 12 + 4 * i)] | none => [])

/-- Whether a site may not be steered or diagnosed by request (R110): one of its arrays serves, programs or calibrates. -/
def siteBusy (s : State) (n : Nat) : Bool :=
  (List.range 8).any (fun i => match (arrGet s (8 * n + i)).state with
    | .serving => true | .programming => true | .calibrating => true | _ => false)

/-- A diagnosis under way gives the site up, and waits to begin again. -/
def dropDiagnosis (s : State) (n : Nat) : State :=
  match (siteGet s n).activity with
  | .diagnosing _ => siteMod s n (fun x => { x with activity := .none, diagnose := true })
  | _ => s

/-- A site as SITE_SEQ_WRITE sets it, under the host's control for 10 s (R111). An array step that is still under way there, of an array that
has been taken out of service, is given up (log entry 97). A sweep under way keeps its DAC word (R106); a continuous run waits until it fits the
firing budget (R20). -/
def steerSite (c : Ctx) (until_ : Nat) (fits : Bool) (x : Site) : Site :=
  { x with
    control := BitVec.ofNat 32 (c.par 4 4), dac := BitVec.ofNat 32 (c.par 8 4)
    dacNow := if hostRuns x then x.dacNow else BitVec.ofNat 32 (c.par 8 4)
    entries := (List.range 16).map (fun i => BitVec.ofNat 32 (c.par (12 + 4 * i) 4))
    activity := .host until_, step := none, nextStep := none, halting := false, waits := decide (fld (c.par 4 4) 31 30 = 2) && !fits, sweepsRun := 0 }

/-- SITE_SEQ_WRITE. A write that is malformed and to a busy site is answered INVALID: of the two checks the manual gives no order, and the model
takes that of the words first (log entry 97). Mode halted ends the host's control, at the end of the sweep of a run under way (R98, R111). R110 accepts a write while a
diagnosis runs at a site that no array of which serves: the diagnosis begins again when the host's control ends (log entry 97). -/
def bodySiteSeqWrite (c : Ctx) (s : State) : State :=
  match siteOf c with
  | none => replyInvalid c s (parDetail 0)
  | some n =>
    match firstBad (seqChecks c) with
    | some o => replyInvalid c s (parDetail o)
    | none =>
      if siteBusy s n then replySt c s .busy
      else
        let s1 := dropDiagnosis s n
        let x := siteGet s1 n
        if fld (c.par 4 4) 31 30 = 0 then
          replyOk c (if hostRuns x then siteMod s1 n (fun y => { y with halting := true }) else reloadSite s1 n) []
        else replyOk c (siteMod s1 n (steerSite c (hostTime s1 + 10000000000) (hostRuns x || mayWork s1 n (.host 0)))) []

/-- SITE_DIAG_RUN (R107, R110). While the host controls the site the diagnosis waits until that control ends (R111; log entry 97); while the
diagnosis runs the words read as its sweeps set them (log entry 98). -/
def bodySiteDiagRun (c : Ctx) (s : State) : State :=
  match siteOf c with
  | none => replyInvalid c s (parDetail 0)
  | some n =>
    if siteBusy s n then replySt c s .busy
    else startDiagnosis (startJob c (dropDiagnosis s n) (.siteDiag n)) n

/-! ### Quartz units (R194, R217) -/

/-- Lane and node of every layer a unit serves or has counted (R194). -/
def unitLayers (s : State) (u : Nat) : List (Nat × Nat) :=
  (((quartzGet s u).counts.map (fun c => (c.lane, layerNode c.node))) ++ s.lanes.flatMap (fun e =>
    (e.2.plan.layers.filter (fun p => (layerArrays p).any (fun a => a / 128 = u))).map (fun p => (e.1, layerNode p.node)))).eraseDups

/-- A count of a layer at a unit; the experts of an EXPERT_LINEAR node, layers of one node, together. -/
def layerCount (s : State) (u : Nat) (l : Nat × Nat) (i : Nat) : Word :=
  ((quartzGet s u).counts.filter (fun c => decide (c.lane = l.1 ∧ layerNode c.node = l.2))).foldl
    (fun t c => satAdd32 t (lgetD c.counts i 0).toNat) 0

def bodyQuartzStatsRead (c : Ctx) (s : State) : State :=
  if 3 < c.par 0 1 then replyInvalid c s (parDetail 0)
  else if 4095 < c.par 2 2 then replyInvalid c s (parDetail 2)
  else
    let u := c.par 0 1 * 4096 + c.par 2 2
    replyBuffer c s 8 ((unitLayers s u).flatMap (fun l =>
      leBytes 2 l.1 ++ leBytes 2 l.2 ++ (List.range 10).flatMap (fun i => leBytes 4 (layerCount s u l i).toNat) ++ leBytes 4 0))

/-! ### Probe packs (R526–R529) -/

/-- Checks of a pattern entry (R527): drive integers the mode can drive, codes in range, reserved bytes zero. -/
def patternChecks (b : Bytes) (o : Nat) : List (Bool × Nat) :=
  let m := leAt b (o + 512) 1
  let mode : InputMode := if m = 0 then .signed else if m = 1 then .unsigned else .offset
  (match (slice b o 512).findIdx? (fun x => undrivable mode x.toInt) with
    | some i => [(decide (m ≤ 2), o + i)]
    | none => [])
  ++ [ (decide (2 < m), o + 512), (decide (3 < leAt b (o + 513) 1), o + 513), (decide (3 < leAt b (o + 514) 1), o + 514),
       (decide (leAt b (o + 515) 1 ≠ 0), o + 515), (!allZero (slice b (o + 520) 56), o + 520) ]

/-- Checks of a pack of some length (R526). -/
def packChecks (b : Bytes) (len : Nat) : List (Bool × Nat) :=
  let n := leAt b 4 4
  [ (decide (leAt b 0 2 ≠ 1), 0), (decide (1 < leAt b 2 1), 2), (decide (leAt b 3 1 ≠ 0), 3), (decide (n = 0 ∨ 4096 < n), 4),
    (decide (leAt b 8 8 ≠ len ∨ 4194304 < leAt b 8 8 ∨ leAt b 8 8 ≠ 192 + 576 * n), 8), (!allZero (slice b 112 16), 112) ]
  ++ (if n ≤ 4096 then (List.range n).flatMap (fun i => patternChecks b (128 + 576 * i)) else [])

/-- Whether a pack's key is fused and its signature verifies (R528). -/
def packSigned (s : State) (b : Bytes) : Bool :=
  let fused := if leAt b 2 1 = 0 then s.fuses.vendorKeyHash else s.fuses.ownerKeyHash
  decide (sha256 (slice b 48 64) = fused) &&
    ecdsaVerify (beAt b 48 32) (beAt b 80 32) (sha256 (b.take (b.length - 64))) (beAt b (b.length - 64) 32) (beAt b (b.length - 32) 32)

/-- PROBE_INSTALL (R528). A pack that cannot be read is refused with INTEGRITY_FAIL (log entry 15). -/
def bodyProbeInstall (c : Ctx) (s : State) : State :=
  let len := c.par 8 4
  let b := padTo (min len 4194304) c.data.first
  if !c.data.readable then replySt c s .integrityFail
  else if len < 768 ∨ 4194304 < len then replyInvalid c s (parDetail 8)
  else match firstBad (packChecks b len) with
    | some o => replyInvalid c s (imageDetail o)
    | none =>
      if !packSigned s b then replySt c s .authFail
      else if 8 ≤ s.probes.length then replySt c s .refusedCapacity
      else
        match (List.range 8).find? (fun i => !s.probes.any (fun p => p.number = i)) with
        | none => replySt c s .refusedCapacity
        | some i =>
          replyOk c { s with probes := s.probes ++ [{ number := i, vendor := decide (leAt b 2 1 = 0), bytes := b }] } (leBytes 2 i)

def bodyProbeRemove (c : Ctx) (s : State) : State :=
  if s.probes.any (fun p => p.number = c.par 0 2) then
    replyOk c { s with probes := s.probes.filter (fun p => p.number ≠ c.par 0 2) } []
  else replySt c s .notFound

/-! ### The rows -/

def execCoreStatsRead (p : Pkt) (s : State) : Out State := .next (packetRow 0x0404 p s id bodyCoreStatsRead)
def execMemRead (p : Pkt) (s : State) : Out State := .next (packetRow 0x0405 p s id bodyMemRead)
def execArrayStatusRead (p : Pkt) (s : State) : Out State := .next (packetRow 0x0501 p s id bodyArrayStatusRead)
def execCalTableRead (p : Pkt) (s : State) : Out State := .next (packetRow 0x0502 p s id bodyCalTableRead)
def execArrayCalRun (p : Pkt) (s : State) : Out State := .next (packetRow 0x0503 p s id bodyArrayCalRun)
def execSiteSeqRead (p : Pkt) (s : State) : Out State := .next (packetRow 0x0504 p s id bodySiteSeqRead)
def execSiteSeqWrite (p : Pkt) (s : State) : Out State := .next (packetRow 0x0505 p s id bodySiteSeqWrite)
def execSiteDiagRun (p : Pkt) (s : State) : Out State := .next (packetRow 0x0506 p s id bodySiteDiagRun)
def execQuartzStatsRead (p : Pkt) (s : State) : Out State := .next (packetRow 0x0507 p s id bodyQuartzStatsRead)
def execProbeInstall (p : Pkt) (s : State) : Out State := .next (packetRow 0x0509 p s id bodyProbeInstall)
def execProbeRemove (p : Pkt) (s : State) : Out State := .next (packetRow 0x050A p s id bodyProbeRemove)

end Sys2Proof.Machine
end

