-- ==== Sys2Proof/Machine/Diagnosis.lean ====
section
/-! DEFINITION. What a site diagnosis finds and does (R107–R109), and the end of the host's control of a site (R111). -/

namespace Sys2Proof.Machine
open Sys2Proof

/-! ### What the readings say (R108) -/

/-- Sum of a reference pair's contents over a 64-row block (R28). -/
def referenceSum (pair blk : Nat) : Int := ((List.range 64).map (fun i => referenceWeight pair (64 * blk + i))).foldl (· + ·) 0

/-- Tiers that fail the array test (step 5): a reference pair's code under a calibration pattern of 32 pulse steps is more than 1.5 from its
contents' 32 / 256 of a code a level. An erased array holds none of those contents, which programming writes (R28), and does not fail (log
entry 31). -/
def tierFails (s : State) (n : Nat) (d : DiagReadings) : List Nat :=
  ((d.arrays.filter (fun e => decide ((arrGet s (8 * n + e.1.val)).state ≠ .erased) && decide (512 ≤ e.2.2.1 ∧ e.2.2.1 < 528)
    && decide (12 < (8 * e.2.2.2 - referenceSum e.2.2.1 e.2.1.val).natAbs))).map (·.1.val)).eraseDups

/-- Whether a position fails as a whole: in the zero test, or in the ramp test on every pair of it. -/
def failedPositions (d : DiagReadings) : List Nat :=
  (List.range 16).filter (fun q => (zeroFails d).contains q || (positionPairs q).all (fun p => (rampFails d.ramp).contains p))

/-- Pairs that fail on their own: in the ramp or the column test, and in the swap test too. -/
def failedPairs (d : DiagReadings) : List Nat :=
  ((rampFails d.ramp ++ columnFails d.column).eraseDups).filter (fun p => (swapFails d).contains p && !(failedPositions d).contains (p % 16))

/-! ### The verdict (R109) -/

/-- The step of R108 that failed first, 0 if none did. -/
def firstFailure (s : State) (n : Nat) (d : DiagReadings) : Nat :=
  if !(zeroFails d).isEmpty then 1 else if !(rampFails d.ramp).isEmpty then 2 else if !(columnFails d.column).isEmpty then 3
  else if !(tierFails s n d).isEmpty then 5 else 0

/-- The verdict, as the rows of R109 are numbered. Readings the table does not list go to the row nearest to them (log entry 31): a position
that the swap does not clear, or more faulty pairs than an array has spare pairs, to a site fault; several faulty pairs to a column input
fault each; some tiers to an array fault each. -/
def verdictOf (s : State) (n : Nat) (d : DiagReadings) : Nat :=
  let pos := failedPositions d
  let cleared := pos.all (fun q => (positionPairs q).all (fun p => !(swapFails d).contains p))
  let tiers := tierFails s n d
  if (if (siteGet s n).fixed then 0 else 1) < pos.length ∨ (!pos.isEmpty ∧ !cleared) then 1
  else if pos.length = 1 then 0
  else if 16 < (failedPairs d).length then 1
  else if !(failedPairs d).isEmpty then 2
  else if tiers.length = 8 then 4
  else if !tiers.isEmpty then 3
  else 5

/-- A pair of an array is remapped to a free spare pair (R109, R153), unless it is or the array cannot be programmed (R64). -/
def remapFaulty (s : State) (a pair : Nat) : State :=
  arrMod s a (fun x =>
    if x.wearLimited ∨ 512 ≤ pair ∨ (x.spares ++ x.sparesPending).any (fun e => e.1 = pair) ∨ (freeSpare x).isNone then x
    else remapPair x pair)

/-- What a verdict does (R109). After a transient fault a quarantined array is scrubbed and recalibrated before it is free. -/
def actVerdict (s : State) (n : Nat) (d : DiagReadings) (v : Nat) : State :=
  let tiers := (List.range 8).map (8 * n + ·)
  if v = 0 then ((failedPositions d).head?).elim s (fun q => sliceFails s n q)
  else if v = 1 then report (quarantineSite s n) 0x07 3 (siteUid n 0) (leBytes 1 1)
  else if v = 2 then tiers.foldl (fun t a => programAgain ((failedPairs d).foldl (fun u p => remapFaulty u a p) t) a) s
  else if v = 3 then (tierFails s n d).foldl (fun t i => quarantineOnly t (8 * n + i)) s
  else if v = 4 then quarantineSite s n
  else tiers.foldl (fun t a => arrMod t a (fun x =>
    if x.state = .quarantined then
      { x with state := .programmed, active := none, staged := none, calibrated := false, verified := false, recovering := true, due := true }
    else x)) s

/-- DIAGNOSIS_COMPLETE: the verdict, on the readings of the sweeps that SWEEP_END has reported and those the command brings (log entry 98), is
acted on, reported, and answers SITE_DIAG_RUN. -/
def diagnosisEnds (n : Nat) (more : DiagReadings) (s : State) : State :=
  if isDiagnosing (siteGet s n).activity then
    let d := joinReadings (siteGet s n).readings more
    let v := verdictOf s n d
    let s0 := finishJobs (siteMod s n (fun x => { x with activity := .none, tested := 0, readings := {} })) (fun j => match j.work with
      | .siteDiag m => if m = n then some (.ok, 0, leBytes 1 v) else none
      | _ => none)
    let s1 := actVerdict s0 n d v
    report (if (siteGet s1 n).activity = .none then reloadSite s1 n else s1) 0x08 (if v = 5 then 1 else 3) (siteUid n 0)
      (leBytes 1 v ++ leBytes 1 (firstFailure s n d))
  else s

/-! ### Site control (R111) -/

/-- SITE_CONTROL_TIMEOUT: 10 s of host time since the last SITE_SEQ_WRITE. -/
def controlTimesOut (n : Nat) (s : State) : State :=
  match (siteGet s n).activity with
  | .host t => if t ≤ hostTime s then reloadSite s n else s
  | _ => s

/-! ### The rows -/

def execDiagnosisComplete (site : SiteNo) (d : DiagReadings) (s : State) : Out State := .next (diagnosisEnds site.val d s)
def execSiteControlTimeout (site : SiteNo) (s : State) : Out State := .next (controlTimesOut site.val s)

end Sys2Proof.Machine
end

