-- ==== Sys2Proof/Machine/Serving.lean ====
section
/-! DEFINITION. Requests, accounts and admission (R373–R392, R406, R407, R463–R465): REQUEST_OPEN and its decision, chains and
their hand-offs, cancellation, accounts. -/

namespace Sys2Proof.Machine
open Sys2Proof

/-! ### Rank inputs and packing (R464, R339) -/

/-- Lengths of the candidate sequences of a rank input (R464). -/
def rankLengths (b : Bytes) : List Nat := (List.range (leAt b 0 4)).map (fun i => leAt b (4 + 4 * i) 4)

/-- Tokens of the sequences of a rank input. -/
def rankTokens (b : Bytes) : List (List Nat) :=
  let n := leAt b 0 4
  let lens := rankLengths b
  (List.range n).map (fun i =>
    let start := 4 + 4 * n + 4 * (lens.take i).foldl (· + ·) 0
    (List.range (lgetD lens i 0)).map (fun j => leAt b (start + 4 * j) 4))

/-- Whether a rank input is well laid out: 1 to 4,096 sequences whose tokens fill the rest (R464). -/
def rankInputOk (b : Bytes) : Bool :=
  let n := leAt b 0 4
  decide (1 ≤ n ∧ n ≤ 4096) && decide (b.length = 4 + 4 * n + 4 * (rankLengths b).foldl (· + ·) 0)

/-- Places one sequence in the first row with room and fewer than 64 segments (R339); rows are (used, segments). -/
def packOne (rowLen len : Nat) : List (Nat × Nat) → Option (List (Nat × Nat))
  | [] => none
  | (u, n) :: rs =>
    if u + len ≤ rowLen ∧ n < 64 then some ((u + len, n + 1) :: rs)
    else (packOne rowLen len rs).map (fun x => (u, n) :: x)

/-- Places all sequences of a request, or none (R339). -/
def packAll (rowLen : Nat) : List Nat → List (Nat × Nat) → Option (List (Nat × Nat))
  | [], rows => some rows
  | l :: ls, rows => (packOne rowLen l rows).bind (packAll rowLen ls)

/-- The empty rows of a step. -/
def emptyRows (n : Nat) : List (Nat × Nat) := List.replicate n (0, 0)

/-- Length of a retrieval's query in positions of a packed node (log entry 119): its token numbers if an EMBED node takes them, else its vectors. -/
def queryLength (im : Bytes) : Nat :=
  let g := graphTables im
  match g.tensors.find? (fun t => t.kind = 1) with
  | none => 0
  | some t =>
    let n := t.dims.foldl (· * ·) 1
    if g.nodes.any (fun x => decide (x.kind = 0x08) && decide ((tensorOf g x.input).off = t.off)) then n else n / max 1 (t.dim 0)

/-- Lengths of a request's sequences in a packed step (R285, R339). -/
def seqLengths (s : State) (r : Request) : List Nat :=
  if r.cls = 1 then rankLengths r.input else [((sget s.graphs r.graph).map (fun g => queryLength g.image)).getD 0]

/-- Places a request's sequences, numbered, in rows that have some room left: each in the first row with room for it and fewer than 64 segments,
its segment and start the next of the row (R339); none if one finds no row. -/
def packSeqs (rowLen h : Nat) : List (Nat × Nat) → List (Nat × Nat) → Option (List (Nat × Nat) × List PackedSeq)
  | [], rows => some (rows, [])
  | (i, len) :: ls, rows =>
    match rows.findIdx? (fun e => decide (e.1 + len ≤ rowLen ∧ e.2 < 64)), packOne rowLen len rows with
    | some n, some rows1 =>
      let e := lgetD rows n (0, 0)
      (packSeqs rowLen h ls rows1).map (fun t =>
        (t.1, { request := h, index := i, row := n, start := e.1, segment := e.2 + 1, length := len } :: t.2))
    | _, _ => none

/-! ### Admission (R379, R384–R387) -/

/-- Admission charge in budget tokens (R379). -/
def admissionCharge (cls : Nat) (input : Bytes) : Nat :=
  if cls = 0 then 1 else if cls = 1 then leAt input 0 4 else (input.length / 4 + 15) / 16

/-- Requests of a lane that hold a batch slot (R375); those taken over hold reserved ones (R496). -/
def slotsUsed (s : State) (g : Nat) : Nat :=
  (s.requests.filter (fun e => decide (e.2.graph = g) && (decide (e.2.state = .prefill) || decide (e.2.state = .running))
    && !e.2.ended && !e.2.mirrored && !e.2.takenOver && !e.2.handoff)).length

/-- Batch slots free in a lane; none while the engine is Dormant (R567). -/
def slotsFree (s : State) (g : Nat) : Nat :=
  if s.power.state = .dormant then 0
  else (((sget s.graphs g).map (·.settings.batch)).getD 0) - slotsUsed s g

/-- Host time of a lane's next step boundary (R387). -/
def nextBoundary (s : State) (l : Lane) : Nat :=
  match l.step with
  | none => hostTime s
  | some st =>
    let t := statedTimes l.plan l.level
    max (hostTime s) (st.startedAt + (if st.prefill then t.prefillNominal else t.mainNominal))

/-- Earliest estimate of a deferred request (R387): p its position, a the mean of requests that left per main step. -/
def earliestEstimate (s : State) (g p : Nat) : Nat :=
  match sget s.lanes g with
  | none => hostTime s
  | some l =>
    let f := slotsFree s g
    let t := (statedTimes l.plan l.level).mainNominal
    let n := l.left.length
    let sum := l.left.foldl (· + ·) 0
    if p ≤ f then nextBoundary s l
    else if n < 256 * sum then nextBoundary s l + t * (((p - f) * n + sum - 1) / sum)
    else nextBoundary s l + t * ((p - f) * 256)

/-- Outcomes of R384. -/
inductive Decision where
  | admitted (h : Nat)
  | deferred (h pos est : Nat)
  | refused (st : Status) (result : Bytes)
  deriving DecidableEq, Repr

/-- Earliest host time at which a bucket holds a charge (R385). -/
def earliestBudget (half : Bool) (h : Nat) (b : Bucket) (charge : Nat) : Nat :=
  let rate := if half then b.rate * 512 else b.rate * 1024
  let top := if half then b.burst * 512 else b.burst * 1024
  if rate = 0 ∨ top < charge * 1024 then 2 ^ 64 - 1
  else h + ((Int.ofNat (charge * 1024) - b.level).toNat * 1000000000 + rate - 1) / rate

/-- A free request handle: bit 31 is the module's side in a pair (R374, R486). -/
def freeHandle (s : State) : Option Nat :=
  firstFree s.requests (if s.pair.configured then s.pair.side * 2147483648 else 0) 262144

/-- Decides a request whose parameters stand (R384): budget, open limit, table, then a slot, the deferral queue or neither. -/
def decideOpen (s0 : State) (r : Request) : State × Decision :=
  let s := updateAccount s0 r.account
  let b := bucketOf s r.account r.cls
  let charge := admissionCharge r.cls r.input
  let count := openInClass s r.account r.cls
  if b.level < Int.ofNat (charge * 1024) then
    (s, .refused .refusedBudget (padTo 8 (leBytes 1 r.cls) ++ leBytes 8 (twos 64 b.level) ++ padTo 8 (leBytes 4 charge)
      ++ leBytes 8 (earliestBudget (pairHalves s) (hostTime s) b charge)))
  else if b.limit ≤ count then
    (s, .refused .refusedClassFull (padTo 4 (leBytes 1 r.cls) ++ leBytes 4 count ++ leBytes 2 b.limit))
  else
    match (if 262144 ≤ s.requests.length then none else freeHandle s) with
    | none => (s, .refused .refusedCapacity (leBytes 1 1))
    | some h =>
      let s1 := addLevel s r.account r.cls (-(Int.ofNat (charge * 1024))) false
      let queue := ((sget s1.lanes r.graph).map (·.deferral)).getD []
      let prompt := if r.cls = 2 then r.input.length / 4 else 0
      let s2 := if r.cls = 2 ∧ queue = [] ∧ 0 < slotsFree s1 r.graph then
          makeRoom s1 r.graph (admissionBytes s1 r.graph prompt) [] else s1
      let room := decide (r.cls ≠ 2) || hasRoom s2 (admissionBytes s2 r.graph prompt)
      let q := { r with charge := charge, prompt := prompt, order := s2.nextOrder, lastStepEnd := hostTime s2 }
      if queue = [] ∧ 0 < slotsFree s2 r.graph ∧ room then
        let blocks := if cachedGraph s2 r.graph then ((allocBlock s2 (openBytes s2 r.graph) true 0).map (fun b => [b])).getD [] else []
        let q1 := { q with state := if r.cls = 2 then .prefill else .running, blocks := blocks }
        ({ s2 with requests := sput s2.requests h q1, nextOrder := s2.nextOrder + 1 }, .admitted h)
      else if queue.length < 4096 then
        let s3 := laneMod { s2 with requests := sput s2.requests h { q with state := .deferred }, nextOrder := s2.nextOrder + 1 }
          r.graph (fun l => { l with deferral := l.deferral ++ [h] })
        (s3, .deferred h (queue.length + 1) (earliestEstimate s2 r.graph (queue.length + 1)))
      else (addLevel s2 r.account r.cls (Int.ofNat (charge * 1024)) true, .refused .refusedCapacity (leBytes 1 2))

/-! ### REQUEST_OPEN (R373, R464) -/

/-- Stages of a chain a packet opens: the graphs, first to last (R390, R464). -/
def chainStages (c : Ctx) : List Nat :=
  [c.par 0 1, c.par 48 1] ++ (if c.par 49 1 = 0xFF then [] else [c.par 49 1])

/-- Serving class of an accepted graph; 3 if there is none. -/
def classOf (s : State) (g : Nat) : Nat := ((sget s.graphs g).map (·.settings.cls)).getD 3

/-- Whether stage classes come in an order of R390: retrieval, rank, generate ascending. -/
def chainOrderOk (cs : List Nat) : Bool := decide (cs ∈ [[0, 1], [0, 2], [1, 2], [0, 1, 2]])

/-- Checks of the chain parameters (R464). `cs` are the classes of the stages. -/
def chainChecks (c : Ctx) (chain : Bool) (cs : List Nat) : List (Bool × Nat) :=
  if chain then
    let gen := decide (cs.getLast? = some 2)
    let rankAfter := decide (cs.take 2 = [0, 1])
    let three := decide (c.par 49 1 ≠ 0xFF)
    let known := !cs.contains 3
    [ (decide (63 < c.par 48 1), 48), (decide (63 < c.par 49 1 ∧ c.par 49 1 ≠ 0xFF), 49), (known && !chainOrderOk cs, 48),
      (if cs.head? = some 0 then decide (255 < c.par 50 2) else known && decide (c.par 50 2 ≠ 0), 50),
      (if rankAfter then decide (c.par 52 2 = 0 ∨ 4096 < c.par 52 2) else known && decide (c.par 52 2 ≠ 0), 52),
      (if gen then decide (c.par 54 2 = 0 ∨ 64 < c.par 54 2) else known && decide (c.par 54 2 ≠ 0), 54),
      (if gen then decide (c.par 56 4 = 0 ∨ 16384 < c.par 56 4) else known && decide (c.par 56 4 ≠ 0), 56),
      (if gen then decide (16383 < c.par 60 2 ∧ c.par 60 2 ≠ 0xFFFF) else known && decide (c.par 60 2 ≠ 0), 60),
      (decide (c.par 64 8 % 64 ≠ 0), 64), (decide (4096 < c.par 72 4), 72), (decide (65536 < c.par 76 4), 76),
      (decide (65536 < c.par 80 4), 80),
      (decide (c.par 84 8 % 64 ≠ 0) || (known && decide (c.par 84 8 = 0) && !three && decide (cs.getLast? ≠ some 2)), 84),
      (decide (c.par 84 8 = 0 ∧ c.par 92 4 ≠ 0), 92) ]
  else [48, 49, 50, 52, 54, 56, 60, 64, 72, 76, 80, 84, 92].map (fun o =>
    (decide (c.par o (if o ∈ [48, 49] then 1 else if o ∈ [50, 52, 54, 60] then 2 else if o ∈ [64, 84] then 8 else 4) ≠ 0), o))

/-- Checks of a request's parameters (R373, R464, R318, R339), with parameter offsets. -/
def openChecks (s : State) (c : Ctx) : List (Bool × Nat) :=
  let flags := c.par 1 1
  let chain := decide (fld flags 3 3 = 1)
  let cs := if chain then (chainStages c).map (classOf s) else [classOf s (c.par 0 1)]
  let cls := classOf s (c.par 0 1)
  let known := decide (cls ≠ 3)
  let gen := cs.contains 2
  let settings := (sget s.graphs (c.par 0 1)).map (·.settings)
  let len := c.par 24 4
  let input := c.data.first.take len
  let limit := c.par 28 4
  [ (decide (63 < c.par 0 1), 0), (decide (4095 < c.par 2 2), 2), (decide (16383 < c.par 4 2 ∧ c.par 4 2 ≠ 0xFFFF), 4),
    (decide (4095 < c.par 6 2), 6), (decide (c.par 16 8 % 64 ≠ 0), 16),
    (known && (match settings with
      | some g =>
        if cls = 2 then decide (len = 0 ∨ len % 4 ≠ 0) || decide (g.context ≠ 0 ∧ g.context < len / 4)
        else if cls = 1 then decide (len < 4) || !rankInputOk input ||
          (decide (g.rowLength ≠ 0) && (packAll g.rowLength (rankLengths input) (emptyRows g.rows)).isNone)
        else decide (len ≠ g.inputBytes)
      | none => false), 24),
    (known && (if gen then decide (limit = 0 ∨ 131072 < limit) else decide (limit ≠ 0)), 28),
    (known && (if cls = 2 then decide (c.par 32 8 ≠ 0)
      else decide (c.par 32 8 % 64 ≠ 0) || (!chain && decide (c.par 32 8 = 0))), 32),
    (decide (c.par 32 8 = 0 ∧ c.par 40 4 ≠ 0), 40),
    (decide (fld flags 2 2 = 0 ∧ c.par 44 4 ≠ 0), 44) ]
  ++ chainChecks c chain cs

/-- Tokens in host memory: 32-bit numbers. -/
def tokensOf (b : Bytes) : List Nat := (List.range (b.length / 4)).map (fun i => leAt b (4 * i) 4)

/-- The chain record of a packet (R464): what its hand-offs need. In a chain that begins at rank the candidates' documents are the
sequences the host supplied (R391). -/
def chainOf (s : State) (c : Ctx) : Chain :=
  let t := tokensOf c.data.second
  let q := c.par 72 4
  let p := c.par 76 4
  { stage := 0, stages := chainStages c, store := c.par 50 2, candidates := c.par 52 2, passages := c.par 54 2,
    passageLimit := c.par 56 4, genAdapter := c.par 60 2, query := t.take q, lead := (t.drop q).take p,
    tail := (t.drop (q + p)).take (c.par 80 4), outputs := [(c.par 32 8, c.par 40 4), (c.par 84 8, c.par 92 4)],
    outLimit := c.par 28 4, stop := if fld (c.par 1 1) 2 2 = 1 then some (c.par 44 4) else none
    documents := if classOf s (c.par 0 1) = 1 then rankTokens (c.data.first.take (c.par 24 4)) else [] }

/-- The adapter a request would hold: its newest usable generation (R370); none if it is not there, its golden copy is not verified in the memory
tier (R366, R368), it is retiring, or bound to another base or a retired generation of it (R365, R384). -/
def adapterFor (s : State) (g h : Nat) : Option (Nat × Nat) :=
  match objGet s .adapter h with
  | none => none
  | some o =>
    match currentGen o with
    | none => none
    | some x =>
      let baseGen := ((objGet s .model x.base).bind currentGen).map (·.number)
      let named := ((sget s.graphs g).map (fun y => y.settings.owners.contains (.model, x.base))).getD false
      if o.retiring ∨ !x.shards.all (fun y => y.verified && y.inMemoryTier) ∨ !named ∨ baseGen.isNone ∨ (x.baseGen ≠ 0 ∧ baseGen ≠ some x.baseGen) then none
      else some (h, x.number)

/-- A graph that takes requests: accepted, its lane running, not retiring (R271, R384). -/
def graphServes (s : State) (g : Nat) : Bool :=
  match sget s.graphs g with
  | some x => !x.retiring && shas s.lanes g
  | none => false

/-- An account that takes requests (R407). -/
def accountServes (s : State) (a : Nat) : Bool :=
  match sget s.accounts a with
  | some x => !x.closing
  | none => false

/-- The request a packet asks for. -/
def requestOf (s : State) (c : Ctx) (adapter : Option (Nat × Nat)) : Request :=
  let chain := decide (fld (c.par 1 1) 3 3 = 1)
  { fn := c.fn, session := c.session, queue := if c.origin.via.isSome then noRing else c.origin.queue, graph := c.par 0 1,
    cls := classOf s (c.par 0 1), account := c.par 2 2, adapter := adapter, ring := c.par 6 2, tag := c.origin.tag,
    deadline := c.par 8 8, pinGen := decide (fld (c.par 1 1) 0 0 = 1), cont := decide (fld (c.par 1 1) 1 1 = 1),
    chain := if chain then some (chainOf s c) else none, input := c.data.first.take (c.par 24 4), outAddr := BitVec.ofNat 64 (c.par 32 8),
    outLen := c.par 40 4, outLimit := c.par 28 4, stop := if fld (c.par 1 1) 2 2 = 1 then some (c.par 44 4) else none,
    state := .deferred, order := 0 }

/-- Answers a decision (R465). -/
def answerDecision (c : Ctx) (sd : State × Decision) : State :=
  match sd.2 with
  | .admitted h => replyOk c sd.1 (leBytes 4 h)
  | .deferred h p e => reply c sd.1 .deferred 0 (leBytes 4 h ++ leBytes 4 p ++ leBytes 8 e)
  | .refused st r => reply c sd.1 st 0 r

/-- REQUEST_OPEN (R384). -/
def bodyRequestOpen (c : Ctx) (s : State) : State :=
  let foreignAccount := match sget s.accounts (c.par 2 2) with | some a => decide (a.owner ≠ c.fn) | none => false
  let stages := if fld (c.par 1 1) 3 3 = 1 then chainStages c else [c.par 0 1]
  if !s.time.set then replySt c s .timeStale
  else match firstBad (openChecks s c) with
    | some o => replyInvalid c s (parDetail o)
    | none =>
      if foreignAccount then replyForeign c s 2
      else if ownerOfRing s (c.par 6 2) ≠ c.fn then replyForeign c s 6
      else
        let adapter := if c.par 4 2 = 0xFFFF then none else adapterFor s (c.par 0 1) (c.par 4 2)
        if stages.any (fun g => !graphServes s g) ∨ !accountServes s (c.par 2 2) ∨ (c.par 4 2 ≠ 0xFFFF ∧ adapter.isNone)
            ∨ !shas s.rings (c.par 6 2) ∨ !c.data.readable then replySt c s .notFound
        else answerDecision c (decideOpen s (requestOf s c adapter))

/-- REQUEST_CANCEL (R406): answered at once; the request ends at its lane's next boundary. One whose end record waits for its ring
is still open (R374) and only ends as it does already. -/
def bodyRequestCancel (c : Ctx) (s : State) : State :=
  match sget s.requests (c.par 0 4) with
  | none => replySt c s .notFound
  | some r =>
    if r.fn ≠ c.fn ∨ r.mirrored then replySt c s .notFound
    else if r.ended then replyOk c s []
    else replyOk c (reqMod s (c.par 0 4) (fun q => { q with cancelled := true })) []

/-! ### Accounts (R377, R382, R407) -/

/-- ACCOUNT_SET: a new account starts with full buckets; a known one is updated at its old rates, then set and clipped. -/
def bodyAccountSet (c : Ctx) (s : State) : State :=
  let a := c.par 0 2
  let rate := fun k => c.par (4 + 12 * k) 4
  let burst := fun k => c.par (8 + 12 * k) 4
  let limit := fun k => c.par (12 + 12 * k) 2
  match firstBad ((decide (4095 < a), 0) :: (decide (63 < c.par 2 1), 2) ::
      (List.range 3).flatMap (fun k => [(decide (16777215 < rate k), 4 + 12 * k), (decide (16777215 < burst k), 8 + 12 * k)])) with
  | some o => replyInvalid c s (parDetail o)
  | none =>
    let h := hostTime s
    let top := fun k => Int.ofNat (if pairHalves s then burst k * 512 else burst k * 1024)
    match sget s.accounts a with
    | none =>
      let bs := (List.range 3).map (fun k =>
        ({ rate := rate k, burst := burst k, limit := limit k, level := top k, updatedAt := h } : Bucket))
      replyOk c { s with accounts := sput s.accounts a { owner := c.par 2 1, buckets := bs } } []
    | some x =>
      if x.closing then replySt c s .busy
      else
        let bs := (numbered x.buckets).map (fun e =>
          let b := updateBucket (pairHalves s) h e.2
          { b with rate := rate e.1, burst := burst e.1, limit := limit e.1, level := min (top e.1) b.level })
        replyOk c { s with accounts := sput s.accounts a { x with owner := c.par 2 1, buckets := bs } } []

def bodyAccountClose (c : Ctx) (s : State) : State :=
  match sget s.accounts (c.par 0 2) with
  | none => replySt c s .notFound
  | some x =>
    if x.closing then replySt c s .notFound
    else replyOk c (settleClosing { s with accounts := sput s.accounts (c.par 0 2) { x with closing := true } }) []

def bodyAccountRead (c : Ctx) (s : State) : State :=
  match sget s.accounts (c.par 0 2) with
  | none => replySt c s .notFound
  | some x =>
    if c.fn ≠ 0 ∧ x.owner ≠ c.fn then replyForeign c s 0
    else replyOk c s ((List.range 3).flatMap (fun k => leBytes 8 (twos 64 (lgetD x.buckets k {}).level))
      ++ (List.range 3).flatMap (fun k => leBytes 2 (openInClass s (c.par 0 2) k)))

/-! ### Hand-offs (R391, R392) -/

/-- Document `i` of a token store (R367); empty beyond its count (R391). -/
def documentOf (im : Bytes) (i : Nat) : List Nat :=
  let n := leAt im 0 8
  if n ≤ i then []
  else
    let e := leAt im (8 + 8 * i) 8
    (List.range (fld e 63 40)).map (fun j => leAt im (8 + 8 * n + 4 * (fld e 39 0 + j)) 4)

/-- The image of a loaded token store; none if it cannot be read (R391). -/
def storeImage (s : State) (h : Nat) : Option Bytes :=
  match (objGet s .store h).bind currentGen with
  | some g => if g.shards.all (·.verified) then some (genImage g) else none
  | none => none

/-- Indices of the first `n` top-k entries of a result, in order, those of 0xFFFF_FFFF skipped (R391). -/
def resultIndices (b : Bytes) (n : Nat) : List Nat :=
  ((List.range (min n (b.length / 8))).map (fun i => leAt b (8 * i + 4) 4)).filter (fun i => i ≠ 0xFFFFFFFF)

/-- Why a hand-off fails (R391), or the next stage's input and the documents of its candidates. -/
def formInput (s : State) (r : Request) (ch : Chain) : Except Status (Bytes × List (List Nat)) :=
  let next := (ch.stages[ch.stage + 1]?).getD 0
  let word := fun (t : List Nat) => t.flatMap (leBytes 4)
  if classOf s next = 1 then
    match storeImage s ch.store with
    | none => .error .notFound
    | some im =>
      let docs := (resultIndices r.result ch.candidates).map (documentOf im)
      let row := ((sget s.graphs next).map (·.settings.rowLength)).getD 0
      let seqs := docs.map (fun d => if row = 0 then ch.query ++ d else (ch.query ++ d).take row)
      .ok (leBytes 4 seqs.length ++ word (seqs.map (·.length)) ++ seqs.flatMap word, docs)
  else if r.cls = 1 then
    if !((sget s.graphs r.graph).map (·.settings.topK)).getD false then .error .invalid
    else
      let docs := (resultIndices r.result ch.passages).map (fun i => (lgetD ch.documents i []).take ch.passageLimit)
      .ok (word (ch.lead ++ docs.flatten ++ ch.tail), [])
  else
    match storeImage s ch.store with
    | none => .error .notFound
    | some im =>
      let docs := (resultIndices r.result ch.passages).map (fun i => (documentOf im i).take ch.passageLimit)
      .ok (word (ch.lead ++ docs.flatten ++ ch.tail), [])

/-- Bytes hand-offs that have not been read yet hold in the 4 GiB area (R391): inputs of deferred later stages. -/
def handoffUsed (s : State) : Nat :=
  s.requests.foldl (fun t e => match e.2.chain with
    | some ch => if e.2.state = .deferred ∧ 0 < ch.stage then t + e.2.input.length else t
    | none => t) 0

/-- Ends a chain at the stage that has just ended (R392). -/
def endChain (s : State) (h : Nat) (st : Status) : State := endRequest s h st

/-- The request that a chain's next stage is, from what the stage before it left, or why the hand-off fails (R390, R391). -/
def nextStage (s : State) (r : Request) (ch : Chain) : Except Status Request :=
  let g := (ch.stages[ch.stage + 1]?).getD 0
  match formInput s r ch with
  | .error st => .error st
  | .ok (input, docs) =>
    if 4294967296 < handoffUsed s + input.length then .error .refusedCapacity
    else
      let set := (sget s.graphs g).map (·.settings)
      let last := decide (ch.stages.length ≤ ch.stage + 2)
      let cls := classOf s g
      let wanted := if cls = 2 then ch.genAdapter else 0xFFFF
      let adapter := if wanted = 0xFFFF then none else adapterFor s g wanted
      let bad := match set with
        | some x => if cls = 2 then decide (input.length = 0) || decide (x.context ≠ 0 ∧ x.context < input.length / 4)
          else !rankInputOk input || (decide (x.rowLength ≠ 0) && (packAll x.rowLength (rankLengths input) (emptyRows x.rows)).isNone)
        | none => false
      if bad then .error .invalid
      else if !graphServes s g ∨ !accountServes s r.account ∨ (wanted ≠ 0xFFFF ∧ adapter.isNone) then .error .notFound
      else
        let out := (ch.outputs[ch.stage + 1]?).getD (0, 0)
        .ok { r with
          graph := g, cls := cls, adapter := adapter, input := input, handoff := false, result := [], ran := false,
          chain := some { ch with stage := ch.stage + 1, documents := docs }, outputs := 0, length := 0, prefilled := 0,
          outAddr := BitVec.ofNat 64 (if cls = 2 then 0 else out.1), outLen := if cls = 2 then 0 else out.2,
          outLimit := if last ∧ cls = 2 then ch.outLimit else 0, stop := if cls = 2 then ch.stop else none,
          blocks := [], summary := {}, attention := [], carried := [], awaiting := [], state := .deferred }

/-- CHAIN_HANDOFF (R390–R392): the next stage's input is formed and the stage decided under R384 at once; while the record of the stage that ended
awaits the partner (R491), the request is still at that stage (log entry 124). -/
def chainHandsOff (h : Nat) (s : State) : State :=
  match sget s.requests h with
  | none => s
  | some r =>
    match r.chain with
    | none => s
    | some ch =>
      if !r.handoff ∨ r.ended ∨ !r.awaiting.isEmpty then s
      else match nextStage s r ch with
        | .error st => endChain s h st
        | .ok q => match decideOpen { s with requests := sdel s.requests h } q with
          | (_, .refused st _) => endChain s h st
          | (s1, _) => settleClosing s1

/-! ### The rows -/

def execRequestOpen (p : Pkt) (s : State) : Out State := .next (packetRow 0x0301 p s id bodyRequestOpen)
def execRequestCancel (p : Pkt) (s : State) : Out State := .next (packetRow 0x0302 p s id bodyRequestCancel)
def execAccountSet (p : Pkt) (s : State) : Out State := .next (packetRow 0x0303 p s id bodyAccountSet)
def execAccountClose (p : Pkt) (s : State) : Out State := .next (packetRow 0x0304 p s id bodyAccountClose)
def execAccountRead (p : Pkt) (s : State) : Out State := .next (packetRow 0x0305 p s id bodyAccountRead)
def execChainHandoff (seq : BitVec 32) (s : State) : Out State := .next (chainHandsOff seq.toNat s)

end Sys2Proof.Machine
end

