-- ==== Sys2Proof/Machine/Lanes.lean ====
section
/-! DEFINITION. Step boundaries and step ends of a lane (R285–R298, R388, R389, R393–R395, R400–R403), and what happens to
records on their way to a ring (R400, R434, R435). -/

namespace Sys2Proof.Machine
open Sys2Proof

/-! ### The boundary: plan, accounts, ends (R293, R388 steps 1 and 2) -/

/-- Whether a request is retired with a generation: pinned, or its adapter is bound to the old base generation (R365). -/
def retiredWith (s : State) (changed : List (ObjKind × Nat)) (r : Request) : Bool :=
  if changed.isEmpty then false
  else r.pinGen || (match r.adapter with
    | none => false
    | some a => match (objGet s .adapter a.1).bind (fun o => o.gens.find? (fun x => x.number = a.2)) with
      | some x => changed.contains (.model, x.base) && decide (x.baseGen ≠ 0)
          && decide (((objGet s .model x.base).bind currentGen).map (·.number) ≠ some x.baseGen)
      | none => false)

/-- A lane whose plan or generation is not the newest switches at its boundary (R293, R364). -/
def boundarySwitch (s : State) (g : Nat) : State :=
  match sget s.lanes g with
  | none => s
  | some l => if l.epoch ≠ s.planner.epoch ∨ !(changedGenerations s g).isEmpty then switchLane s g else s

/-- Objects whose generation a lane's switches since its last boundary have changed (R337, R365). -/
def laneChanged (s : State) (g : Nat) : List (ObjKind × Nat) := ((sget s.lanes g).map (·.changed)).getD []

/-- Buckets of the accounts of a lane's requests (R378, R388 step 1). -/
def boundaryAccounts (s : State) (g : Nat) : State :=
  (((s.requests.filter (fun e => e.2.graph = g && !e.2.mirrored)).map (·.2.account)).eraseDups).foldl updateAccount s

/-- One request of the lane at the boundary: it ends if it is due to (R404, R406, R394, R337, R365). -/
def boundaryEnd (g : Nat) (retired : Request → Bool) (s : State) (h : Nat) : State :=
  match sget s.requests h with
  | none => s
  | some r =>
    if r.graph ≠ g ∨ r.mirrored ∨ r.ended then s
    else if r.closing then dropRequest s h
    else if r.cancelled then endRequest s h .ok
    else if r.deadline ≠ 0 ∧ r.deadline < hostTime s ∧ !r.cont then endRequest s h .deadlineExpired
    else if retired r then endRequest s h .generationRetired
    else s

def boundaryEnds (s : State) (g : Nat) (retired : Request → Bool) : State :=
  (s.requests.map (·.1)).foldl (boundaryEnd g retired) s

/-! ### Returning and joining (R388 steps 4 and 5) -/

/-- Whether every block of a request is resident. -/
def allResident (r : Request) : Bool := r.blocks.all (fun b => b.location = .memoryTier)

/-- Pre-empted requests whose blocks are resident take free slots first, in the order of R336. -/
def rejoin (s : State) (g : Nat) : State :=
  let back := (s.requests.filter (fun e => decide (e.2.graph = g) && decide (e.2.state = .preempted) && !e.2.mirrored
    && !e.2.ended && allResident e.2)).mergeSort (returnsBefore s)
  back.foldl (fun t e =>
    if 0 < slotsFree t g then reqMod t e.1 (fun q => { q with state := if q.prefilled < q.prompt then .prefill else .running })
    else t) s

/-- The head of the deferral queue joins, and those behind it, while slots and room last (R386, R338), each with the newest generation of its adapter
(R370); `fuel` bounds them, `starting` is the batch of the step now starting. -/
def fillDeferred (g : Nat) (starting : List Nat) : Nat → State → State
  | 0, s => s
  | n + 1, s0 =>
    match (sget s0.lanes g).bind (fun l => l.deferral.head?) with
    | none => s0
    | some h =>
      match sget s0.requests h with
      | none => fillDeferred g starting n (laneMod s0 g (fun l => { l with deferral := l.deferral.drop 1 }))
      | some r =>
        if slotsFree s0 g = 0 then s0
        else
          let need := admissionBytes s0 g r.prompt
          let s := if cachedGraph s0 g then makeRoom s0 g need starting else s0
          if cachedGraph s g ∧ !hasRoom s need then s
          else
            let blocks := if cachedGraph s g then ((allocBlock s (openBytes s g) true 0).map (fun b => [b])).getD [] else []
            let s1 := laneMod s g (fun l => { l with deferral := l.deferral.drop 1 })
            fillDeferred g starting n (reqMod s1 h (fun q => { q with
              state := if q.cls = 2 then .prefill else .running
              adapter := (q.adapter.bind (fun a => adapterFor s g a.1)).or q.adapter
              lastStepEnd := hostTime s
              blocks := blocks }))

/-! ### Sitting out (R335, R380, R400, R570) -/

/-- At or below −burst (R380). -/
def overdrawn (s : State) (r : Request) : Bool :=
  let b := bucketOf s r.account r.cls
  decide (b.level ≤ -(Int.ofNat (if pairHalves s then b.burst * 512 else b.burst * 1024)))

/-- Whether a record of a request waits for its ring (R400). -/
def recordWaits (s : State) (h : Nat) : Bool := s.rings.any (fun e => e.2.held.any (fun x => x.request = some h))

/-- Marks the requests of a lane that sit out the step (R380, R400, R570). -/
def markSitOut (s : State) (g : Nat) : State :=
  { s with requests := smapAll s.requests (fun h r =>
      if r.graph = g ∧ inBatch r then
        let held := overdrawn s r
        { r with satOut := held || recordWaits s h || !dmaAllowed s r.fn, budgetHold := r.budgetHold || held }
      else r) }

/-! ### The step kind and the batch (R285, R335, R339, R389) -/

/-- Requests of a lane that take part, in order of admission. -/
def ready (s : State) (g : Nat) (st : ReqState) : List (Nat × Request) :=
  (s.requests.filter (fun e => decide (e.2.graph = g) && inBatch e.2 && decide (e.2.state = st) && !e.2.satOut)).mergeSort
    (fun a b => decide (a.2.order ≤ b.2.order))

/-- Gives a request the open block it has not got (R326); none if none can be allocated. -/
def openFor (g h : Nat) (r : Request) (s : State) : Option State :=
  if r.blocks.any (·.open_) then some s
  else (allocBlock s (openBytes s g) true 0).map (fun b => reqMod s h (fun q => { q with blocks := q.blocks ++ [b] }))

/-- Allocates the blocks a step of `n` tokens needs: an open one, and the sealed ones it fills (R326, R335); none if one cannot be allocated. -/
def growFor (g h n : Nat) (s : State) : Option State :=
  match sget s.requests h with
  | none => none
  | some r =>
    if !cachedGraph s g then some s
    else
      let fill := ((r.blocks.find? (·.open_)).map (·.fill)).getD 0
      (List.range ((fill + n) / 32)).foldl (fun t _ => t.bind (fun u =>
        (allocBlock u (sealedBytes u g) false 0).map (fun b => reqMod u h (fun q => { q with reserved := q.reserved ++ [b] }))))
        (openFor g h r s)

/-- Tokens of the next chunk of a prompt (R389). -/
def chunkOf (l : Lane) (r : Request) : Nat :=
  if l.plan.chunk = 0 then r.prompt - r.prefilled else min l.plan.chunk (r.prompt - r.prefilled)

/-- The batch of a main step: every running request whose block can be allocated; the others sit out (R335). -/
def mainBatch (g : Nat) : List (Nat × Request) → State → State × List Nat
  | [], s => (s, [])
  | e :: es, s =>
    match growFor g e.1 1 s with
    | none => mainBatch g es (reqMod s e.1 (fun q => { q with satOut := true }))
    | some s1 => let (s2, b) := mainBatch g es s1; (s2, e.1 :: b)

/-- Where the sequences of requests stand in the rows of a packed step, in admission order (R339); requests that do not fit are left out, and wait. -/
def packBatch (s : State) (rowLen : Nat) : List (Nat × Request) → List (Nat × Nat) → List PackedSeq
  | [], _ => []
  | e :: es, rows =>
    match packSeqs rowLen e.1 (numbered (seqLengths s e.2)) rows with
    | some (rows1, l) => l ++ packBatch s rowLen es rows1
    | none => packBatch s rowLen es rows

/-- The step chosen for a lane: its kind, its batch, where a packed step's sequences stand; and the state with their blocks allocated. -/
structure Chosen where
  state : State
  prefill : Bool := false
  batch : List Nat
  packed : List PackedSeq := []

/-- The prefill step of the earliest-admitted prompt that can take its chunk. -/
def prefillBatch (g : Nat) (l : Lane) : List (Nat × Request) → State → State × List Nat
  | [], s => (s, [])
  | e :: es, s =>
    match growFor g e.1 (chunkOf l e.2) s with
    | none => prefillBatch g l es (reqMod s e.1 (fun q => { q with satOut := true }))
    | some s1 => (s1, [e.1])

/-- Chooses the step kind and its batch (R389). When every running request sits out and a prompt waits, the prompt's chunk
runs (DEDUCED, log entry 14). -/
def chooseStep (s : State) (g : Nat) (l : Lane) (gr : Graph) : Chosen :=
  let main := ready s g .running
  let pre := ready s g .prefill
  let anyRunning := s.requests.any (fun e => decide (e.2.graph = g) && inBatch e.2 && decide (e.2.state = .running))
  if !pre.isEmpty ∧ (l.lastMain ∨ !anyRunning) then
    let (s1, b) := prefillBatch g l pre s
    if b.isEmpty then let (s2, b2) := mainBatch g main s1; { state := s2, batch := b2 } else { state := s1, prefill := true, batch := b }
  else
    let packed := if gr.settings.rowLength = 0 then [] else packBatch s gr.settings.rowLength main (emptyRows gr.settings.rows)
    let cand := if gr.settings.rowLength = 0 then main else main.filter (fun e => packed.any (fun q => q.request = e.1))
    let (s1, b) := mainBatch g cand s
    if b.isEmpty ∧ !pre.isEmpty then let (s2, b2) := prefillBatch g l pre s1; { state := s2, prefill := true, batch := b2 }
    else { state := s1, batch := b, packed := packed.filter (fun q => b.contains q.request) }

/-- The batch that a lane's step now starting would have (R332). -/
def startingBatch (s : State) (g : Nat) : List Nat :=
  match sget s.lanes g, sget s.graphs g with
  | some l, some gr => if l.sitsOut then [] else (chooseStep (markSitOut s g) g l gr).batch
  | _, _ => []

/-- Whether another lane still holds a resource of this lane in a step of an older epoch (R282, R293). -/
def resourceHeld (s : State) (g : Nat) (l : Lane) : Bool :=
  s.lanes.any (fun e => decide (e.1 ≠ g) && e.2.step.isSome && decide (e.2.epoch ≠ l.epoch) && !lanesApart e.2.plan l.plan)

/-- Starts a step, or leaves the lane without one (R389, R565). A step that needs a resource which another lane still holds in a step of an older epoch
waits; the lane's first after a switch says how long (R290 word 7, R293). -/
def startStep (s0 : State) (g : Nat) : State :=
  match sget s0.lanes g, sget s0.graphs g with
  | some l, some gr =>
    if l.sitsOut then s0
    else
      let c := chooseStep s0 g l gr
      let s := c.state
      let batch := c.batch
      if batch.isEmpty then s
      else if resourceHeld s0 g l then laneMod s0 g (fun x => { x with waitFrom := some (x.waitFrom.getD s0.now) })
      else
        let s1 := { s with
          requests := smapAll s.requests (fun h r =>
            if batch.contains h then { r with ran := true, summary := {}, attention := [] } else r)
          power := { s.power with state := .active } }
        laneMod (openWindows s1 g) g (fun x => { x with
          step := some { prefill := c.prefill, batch := batch, startedAt := hostTime s, epoch := x.epoch, fill := batch.length
                         packed := c.packed
                         lowest := s.thermal.appliedLevel, excursion := decide (s.thermal.appliedLevel < levelOf x.level) }
          stepNo := (x.stepNo + 1) % 16777216
          lastMain := !c.prefill
          switching := false
          waitFrom := none
          switchWait := if x.switching then (x.waitFrom.map (fun t => s.now - t)).getD 0 else x.switchWait })
  | _, _ => s0

/-- Bytes of the open blocks that requests new at a boundary still need: those of its batch that hold none (R331). -/
def openNeeds (s : State) (g : Nat) : Nat :=
  if cachedGraph s g then
    (s.requests.filter (fun e => decide (e.2.graph = g) && inBatch e.2 && !e.2.blocks.any (·.open_))).length * openBytes s g
  else 0

/-- STEP_BOUNDARY (R388): a lane between steps, while the Kiosk firmware runs and the engine is not Dormant. -/
def stepBoundary (g : Nat) (s0 : State) : State :=
  match sget s0.lanes g with
  | none => s0
  | some l0 =>
    if !isRunning s0 ∨ s0.boot.kioskHung ∨ s0.power.state = .dormant ∨ l0.step.isSome then s0
    else
      let s1 := variantDown (adaptersUsable s0)
      let sw := boundarySwitch s1 g
      let retired := fun r => retiredWith sw (laneChanged sw g) r
      let s2 := resumeLane (boundaryArrays (laneMod sw g (fun l => { l with changed := [] })) g) g
      let s3 := settleAdapters (boundaryEnds (boundaryAccounts s2 g) g retired)
      let starting := startingBatch s3 g
      let s4 := settlePool (if mustPreempt s3 (openNeeds s3 g) then preemptFor s3 starting else s3)
      let s5 := fillDeferred g starting 4096 (rejoin (bringBack s4) g)
      startStep (markSitOut s5 g) g

/-! ### The step's end (R187, R192, R193, R311–R318, R393, R395, R401, R402) -/

/-- Whether a request's step incurred an extra (R193). -/
def incurred (m : Summary) : Bool := m.wide || m.replayed || m.split || m.sentinel

/-- Extras and planned stretch of every request of a step, those released before a recomputation included (R188, R192). The extras of each
sequence count for it, also where one pass serves several or some overlap in time (log entry 120). -/
def stepExtras (s : State) (st : LaneStep) : Bool × Nat :=
  st.batch.foldl (fun t h => match sget s.requests h with
    | some r => (t.1 || incurred r.summary, t.2 + r.summary.stretch)
    | none => t) st.released

/-- Extras and stretch of the requests of a step that are released now. -/
def releasedExtras (s : State) (st : LaneStep) (now : List Nat) : Bool × Nat := stepExtras s { st with batch := now }

/-- Bytes per µs a trained link carries: rate in 0.5 GT/s times width in lanes, 8 bits a byte (R410). -/
def linkCarries (rate width : Nat) : Nat := rate * width * 1000 / 16

/-- Read rate the installed lanes reserve on the host link (R410). -/
def reservedReads (s : State) : Nat := s.lanes.foldl (fun t e => t + e.2.plan.hostReadRate) 0

/-- Whether a step lies beyond the worst case for every sequence of it (R193): a sentinel recomputation, or outer-tier reads on a link
that carries less than the lanes reserve (R410). -/
def beyondAll (s : State) (l : Lane) (st : LaneStep) : Bool :=
  !st.recompute.isEmpty || decide (0 < st.attempt)
    || (decide (0 < l.plan.hostReadRate) && decide (linkCarries s.link.rate s.link.width < reservedReads s))

/-- Outputs of a request's queries in a step of n tokens, each with its EMPTY_ATTENTION (R307–R314). -/
def queryResults (s : State) (g h n : Nat) (packed : List PackedSeq) (kv : List NewKv) (qs : List AttnQuery) : List (List F32 × Bool) :=
  match sget s.requests h with
  | none => []
  | some r => qs.filterMap (fun q => (laneAttention s g q.node).map (fun a =>
      attend a.params.dim (if a.packed then packedQuery a packed kv h q else cachedQuery a r n q)))

/-- Tokens a step computes for a request: the chunk of its prompt, else one. -/
def tokensOfStep (l : Lane) (st : LaneStep) (r : Request) : Nat := if st.prefill then chunkOf l r else 1

/-- Planned cost of recomputing the spans of some ATTENTION nodes, whose pages were read again: what the nodes' worst case holds for it (R192,
R317). -/
def rereadCost (l : Lane) (st : LaneStep) (nodes : List Nat) : Nat :=
  (nodes.map (fun n => let x := planNode l.plan n; let t := if st.prefill then x.prefill else x.main; t.worst - t.nominal)).foldl (· + ·) 0

/-- Tensors that carry edges take to a request's next step (R279). -/
def carriedTensors (s : State) (g : Nat) : List Nat :=
  ((sget s.graphs g).map (fun x => ((graphTables x.image).edges.filter (·.carry)).map (·.tensor))).getD []

/-- What a step computed for a request beside its token (R279, R311–R317): keys and values, attention, pages read again, carried tensors. -/
def takeOutputs (g : Nat) (l : Lane) (st : LaneStep) (s : State) (o : StepOut) : State :=
  match sget s.requests o.seq with
  | none => s
  | some r =>
    let n := tokensOfStep l st r
    let s1 := appendKv s o.seq g n o.kv
    let att := queryResults s1 g o.seq n st.packed o.kv o.attention
    let again := (o.rereads.filter (fun x => ((laneAttention s g x).map (fun a => !a.packed)).getD false)).eraseDups
    reqMod s1 o.seq (fun r => { r with
      reserved := []
      attention := att.map (·.1)
      carried := o.carried.filter (fun c => (carriedTensors s g).contains c.1)
      lastStepEnd := hostTime s
      summary := { r.summary with
        emptyAttention := r.summary.emptyAttention || att.any (·.2)
        keyWidened := r.summary.keyWidened || widened s1 g r
        replayed := r.summary.replayed || !again.isEmpty
        nReplayed := r.summary.nReplayed + again.length
        stretch := r.summary.stretch + rereadCost l st again } })

/-- The token record of an output (R401). The planned stretch, kept in 0.1 ps, is given in whole ns, rounded up (log entry
23). -/
def outputRecord (s : State) (l : Lane) (st : LaneStep) (extras : Bool × Nat) (h : Nat) (r : Request) (kind value : Nat)
    (ends : Bool) (status : Status) : TokenRecord :=
  let exc := st.excursion || decide (st.lowest < levelOf l.level)
  let m := { r.summary with
    excursion := r.summary.excursion || exc
    beyond := r.summary.beyond || beyondAll s l st
    stretched := r.summary.stretched || decide (r.summary.stretch < extras.2)
    stretch := (extras.2 + 9999) / 10000 }
  { kind := kind, ends := ends, late := decide (r.deadline ≠ 0 ∧ r.deadline < hostTime s), stale := timeStale s
    emptyAttention := m.emptyAttention, keyWidened := m.keyWidened, resumed := r.resumed, prefill := st.prefill
    budgetHold := r.budgetHold, handle := h, tag := r.tag, index := r.outputs + 1, value := value, status := status
    modelGen := laneModelGen s r.graph, adapterGen := ((r.adapter.map (·.2)).getD 0), graph := r.graph, cls := r.cls
    account := r.account, hostTime := hostTime s, fill := st.fill, summary := summaryWords m extras.1 st.epoch }

/-- Sends a step's record: at once, or when the partner has acknowledged the step's mirror (R491). -/
def sendOutput (s : State) (h : Nat) (l : Lane) (e : RingEntry) : State :=
  match sget s.requests h with
  | none => s
  | some r =>
    if l.protected_ ∧ s.pair.phase = .paired ∧ !s.pair.partnerDormant then
      let s1 := reqMod s h (fun q => { q with awaiting := q.awaiting ++ [e] })
      let waiting := if s1.pair.unacked.contains r.graph then s1.pair.unacked else r.graph :: s1.pair.unacked
      let s2 := { s1 with pair := { s1.pair with unacked := waiting } }
      if e.ends then markEnded s2 h r.graph else s2
    else postRecord s h e

/-- Clears what a record has told (R336, R380). -/
def told (q : Request) : Request :=
  { q with outputs := q.outputs + 1, resumed := false, budgetHold := false }

/-- Delivers a generation request's token (R393, R395, R318). -/
def deliverToken (s : State) (g h : Nat) (l : Lane) (st : LaneStep) (extras : Bool × Nat) (o : StepOut) : State :=
  match sget s.requests h with
  | none => s
  | some r =>
    let ctx := ((sget s.graphs g).map (·.settings.context)).getD 0
    let late := decide (r.deadline ≠ 0 ∧ r.deadline < hostTime s)
    let last := decide (r.outLimit ≤ r.outputs + 1) || decide (r.stop = some o.token.toNat)
      || decide (ctx ≠ 0 ∧ ctx ≤ r.prompt + r.outputs + 1)
    let ends := last || (late && !r.cont)
    let status := if late && !r.cont then Status.deadlineExpired else Status.ok
    let rec_ := outputRecord s l st extras h r 0 o.token.toNat ends status
    sendOutput (reqMod s h told) h l { bytes := tokenRecordBytes rec_, request := some h, ends := ends }

/-- Local top-k lists of a request, by unit (R231). -/
def localLists (s : State) (h : Nat) : List (List (F32 × Nat)) := s.quartz.filterMap (fun e => sget e.2.topk h)

/-- The result of a request whose graph ends in a TOPK node over a layer in arrays: the local lists merged (R231), or the top k of a wide
output, which passes through no set (R226); else what the step's cores computed. -/
def topResult (s : State) (g h : Nat) (given : Bytes) : Bytes :=
  match (sget s.graphs g).bind (·.settings.topSource) with
  | none => given
  | some (node, k, low) =>
    match s.layerSteps.find? (fun x => decide (x.key.lane.val = g ∧ x.key.node = node ∧ x.key.seq = h) && x.done) with
    | none => given
    | some x => topKBytes (topK low k (if x.wide then (numbered x.outputs).map (fun e => (e.2, e.1)) else mergeTree low k 4 (localLists s h)))

/-- Delivers a rank or retrieval result (R402, R392): the last stage of a chain, or a request of its own, ends; an
intermediate stage that ends OK waits for its hand-off. -/
def deliverResult (s : State) (h : Nat) (l : Lane) (st : LaneStep) (extras : Bool × Nat) (o : StepOut) : State :=
  match sget s.requests h with
  | none => s
  | some r =>
    let late := decide (r.deadline ≠ 0 ∧ r.deadline < hostTime s)
    let more := match r.chain with | some c => decide (c.stage + 1 < c.stages.length) | none => false
    let named := decide (r.outAddr ≠ 0)
    let status := if late && !r.cont then Status.deadlineExpired else Status.ok
    if named ∧ r.outLen < o.result.length then endRequest s h .invalid
    else
      let ends := !more || decide (status ≠ .ok)
      let rec_ := outputRecord s l st extras h r 1 (if named then o.result.length else 0) ends status
      let e : RingEntry := { bytes := tokenRecordBytes rec_, request := some h, ends := ends, dataAt := r.outAddr.toNat
                             data := if named then o.result else [] }
      let s1 := if ends then s else unlane s r.graph h
      sendOutput (reqMod s1 h (fun q => { told q with handoff := !ends, result := if ends then [] else o.result })) h l e

/-- Delivers what a step computed for one request. -/
def deliverOne (g : Nat) (l : Lane) (st : LaneStep) (extras : Bool × Nat) (s : State) (o : StepOut) : State :=
  match sget s.requests o.seq with
  | none => s
  | some r =>
    let n := tokensOfStep l st r
    if r.closing then s
    else if r.cls ≠ 2 then deliverResult s o.seq l st extras { o with result := topResult s g o.seq o.result }
    else if st.prefill then
      let s2 := reqMod s o.seq (fun q => { q with
        prefilled := q.prefilled + n
        state := if q.prompt ≤ q.prefilled + n then .running else .prefill })
      if r.prompt ≤ r.prefilled + n then deliverToken s2 g o.seq l st extras o else s2
    else deliverToken s g o.seq l st extras o

/-- Whether a tile of a lane is still to drain (R224, R225). -/
def draining (s : State) (g : Nat) : Bool :=
  s.quartz.any (fun e => (e.2.draining.toList ++ e.2.held).any (fun t => decide (t.key.lane.val = g)))

/-- Whether the work of a lane's step is complete: its layer steps and their drains, its windows, and every check of its arrays
(R187, R247). -/
def stepWorkDone (s : State) (g : Nat) (l : Lane) : Bool :=
  s.layerSteps.all (fun x => decide (x.key.lane.val ≠ g) || x.done) &&
    (laneArrays l).all (fun a => (arrGet s a).checking.isNone) && !draining s g && !windowsOpen s g

/-- The engine is Idle when no lane has a step in progress (R565). -/
def settleIdle (s : State) : State :=
  if s.power.state = .active ∧ s.lanes.all (fun e => e.2.step.isNone) then { s with power := { s.power with state := .idle } }
  else s

/-- What the Quartz units keep of a step goes with it: its layer steps, drained outputs and local top-k lists. -/
def clearStep (s : State) (g : Nat) (batch : List Nat) : State :=
  { s with
    layerSteps := s.layerSteps.filter (fun x => x.key.lane.val ≠ g)
    quartz := smapAll s.quartz (fun _ q => { q with
      drained := q.drained.filter (fun e => e.1.lane.val ≠ g)
      topk := q.topk.filter (fun e => !batch.contains e.1) }) }

/-- The active sets of a lane's units are cleared before a recomputation begins (R226). -/
def clearSets (s : State) (l : Lane) : State := l.plan.layers.foldl clearActive s

/-- A step of a lane is over: a re-check that did not come about, its layer having gone wide, is made in the array's next array step
(R184, R188). -/
def releaseRechecks (s : State) (g : Nat) : State :=
  { s with arrays := smapAll s.arrays (fun _ a => match a.checkFailed with
      | some k => if k.1.lane.val = g then { a with checkFailed := none, sinceCheck := 256 } else a
      | none => a) }

/-- Whether a step's output brings all that later steps read: the keys and values of every cached node (R311), the carried tensors (R279); with queries of its own heads and
tokens only. -/
def outputWhole (s : State) (g : Nat) (l : Lane) (st : LaneStep) (o : StepOut) : Bool :=
  match sget s.requests o.seq with
  | none => true
  | some r =>
    let n := tokensOfStep l st r
    bringsKeys s g n o.kv && (carriedTensors s g).all (fun c => o.carried.any (fun e => e.1 = c)) && o.attention.all (fun q => match laneAttention s g q.node with
      | some a => decide (q.head < a.params.heads) && decide (q.index < (if a.packed then (packedTokens st.packed o.seq).length else n))
      | none => false)

/-- STEP_END: records of the sequences whose step stands; those to be computed again stay in the step, whose windows open anew (R188), and what their discarded step accepted,
recorded and counted is kept (log entry 121). A step that ran below its corner is flagged (R295). -/
def stepEnds (g : Nat) (outs : List StepOut) (slow : Bool) (s : State) : State :=
  match sget s.lanes g with
  | none => s
  | some l =>
    match l.step.map (fun x => ({ x with excursion := x.excursion || slow } : LaneStep)) with
    | none => s
    | some st =>
      let now := st.batch.filter (fun h => !st.recompute.contains h)
      let got := now.filterMap (fun h => outs.find? (fun o => o.seq = h))
      if !isRunning s ∨ s.boot.kioskHung ∨ !stepWorkDone s g l ∨ got.length < now.length ∨ !got.all (outputWhole s g l st) then s
      else
        let s0 := got.foldl (takeOutputs g l st) (if st.prefill then now.foldl settleMeans s else s)
        let extras := stepExtras s0 st
        let s1 := got.foldl (deliverOne g l st extras) s0
        let again := st.recompute.filter (fun h => shas s1.requests h)
        let s2 := clearStep s1 g st.batch
        let s3 := laneMod (if again.isEmpty then releaseRechecks s2 g else openWindows (clearSets s2 l) g) g (fun x =>
          if again.isEmpty then
            { x with step := none
                     left := if st.prefill then x.left else (x.leftNow :: x.left).take 256
                     leftNow := if st.prefill then x.leftNow else 0 }
          else { x with step := some { st with
            batch := again, recompute := [], attempt := st.attempt + 1, released := releasedExtras s0 st now } })
        settleIdle (settleAdapters s3)

/-! ### Records on their way (R399, R400, R434, R435) -/

/-- RECORD_WRITE (R400): the oldest held entry of a ring is written once the ring has a free entry. -/
def writeHeld (n : Nat) (s : State) : State :=
  match sget s.rings n with
  | none => s
  | some r =>
    match r.held with
    | [] => s
    | e :: es =>
      if ringFull r ∨ !dmaAllowed s (ownerOfRing s n) ∨ (e.request.isSome ∧ !mayWriteRecords s) then s
      else recordWritten (ringWriteEntry s n { r with held := es } e) e

/-- CONSUMER_COUNT_REREAD (R434): while a reply ring or an event queue is full, the engine reads its consumer count again. -/
def rereadConsumer (q : RingName) (count : Nat) (s : State) : State :=
  match q with
  | .reply n =>
    match sget s.rings n.val with
    | none => s
    | some r =>
      if ringFull r ∧ dmaAllowed s (ownerOfRing s n.val) then { s with rings := sput s.rings n.val { r with consumer := count } }
      else s
  | .event fn =>
    let f := fnGet s fn.val
    if f.eqEnable ∧ eqEntries f ≤ f.eqProducer - f.eqConsumer ∧ dmaAllowed s fn.val then
      fnSet s fn.val { f with eqConsumer := count }
    else s

/-- MODERATION_DELAY (R435). -/
def moderate (n : Nat) (s : State) : State :=
  match sget s.rings n with
  | none => s
  | some r =>
    if 0 < r.unsignalled ∧ r.oldestAt + r.modDelay * 1000 ≤ s.now ∧ dmaAllowed s (ownerOfRing s n) then
      signal { s with rings := sput s.rings n { r with unsignalled := 0 } } (ownerOfRing s n) r.vector
    else s

/-- TIME_STALE (R399). -/
def timeGoesStale (s : State) : State :=
  if s.time.set ∧ s.time.markAt + 1000000000 < s.now then { s with time := { s.time with stale := true } } else s

/-! ### The rows -/

def execTimeStale (s : State) : Out State := .next (timeGoesStale s)
def execStepBoundary (lane : LaneId) (s : State) : Out State := .next (stepBoundary lane.val s)
def execStepEnd (lane : LaneId) (outs : List StepOut) (slow : Bool) (s : State) : Out State := .next (stepEnds lane.val outs slow s)
def execRecordWrite (ring : Fin 4096) (s : State) : Out State := .next (writeHeld ring.val s)
def execConsumerCountReread (ring : RingName) (count : Nat) (s : State) : Out State := .next (rereadConsumer ring count s)
def execModerationDelay (ring : Fin 4096) (s : State) : Out State := .next (moderate ring.val s)

end Sys2Proof.Machine
end

