-- ==== Sys2Proof/Machine/Power.lean ====
section
/-! DEFINITION. Power and thermal (R561–R584): supply inputs, sensing, thresholds, the output level, shutdown, Dormant, and
the packets of R468. -/

namespace Sys2Proof.Machine
open Sys2Proof

/-! ### THERMAL_READ and THERMAL_SET (R468, R574, R575) -/

/-- A reading as THERMAL_READ gives it: 0x8000 for an input that is open, short or failed. -/
def readingField (failed : Bool) (r : Reading) : Bytes :=
  match r with
  | .temp t => leBytes 2 (if failed then 0x8000 else twos 16 t)
  | _ => leBytes 2 0x8000

def bodyThermalRead (c : Ctx) (s : State) : State :=
  replyOk c s (s.thermal.channels.flatMap (fun x => readingField x.failed x.last)
    ++ readingField false s.thermal.inlet ++ readingField false s.thermal.outlet)

/-- A signed 16-bit parameter. -/
def Ctx.parInt (c : Ctx) (off : Nat) : Int := (BitVec.ofNat 16 (c.par off 2)).toInt

/-- Checks of R575, in order of offset. -/
def thermalChecks (w wc t tc sh re : Int) : List (Bool × Nat) :=
  [ (decide (w < 480 ∨ 880 < w ∨ t < w), 0), (decide (w < wc + 16), 2), (decide (t < 560 ∨ 880 < t ∨ sh < t + 40), 4),
    (decide (t < tc + 16), 6), (decide (sh < 760 ∨ 920 < sh), 8), (decide (sh < re + 16), 10) ]

/-- THERMAL_SET (R575): all six at once. -/
def bodyThermalSet (c : Ctx) (s : State) : State :=
  let w := c.parInt 0
  let wc := c.parInt 2
  let t := c.parInt 4
  let tc := c.parInt 6
  let sh := c.parInt 8
  let re := c.parInt 10
  match firstBad (thermalChecks w wc t tc sh re) with
  | some o => replyInvalid c s (parDetail o)
  | none =>
    replyOk c { s with thermal := { s.thermal with
      warning := w, warningClear := wc, throttle := t, throttleClear := tc, shutdown := sh, rearm := re } } []

/-! ### Dormant (R565–R568) -/

/-- A power-state change is reported (R584). -/
def reportPower (s : State) (old new : PowerState) : State :=
  report s 0x49 0 (sensorUid 0) (leBytes 1 old.code ++ leBytes 1 new.code)

/-- A site as Dormant leaves it: a programming operation runs to its end (R611), a diagnosis that a host waits for goes on, other work
is gone; sequence tables and delays are held with the quarters' logic. Of the fields that R113 keeps through nothing the spare position and the
rotations go too; which slice failed, a slice assignment of R587, stays with its stand-in (log entry 85). -/
def siteDormant (x : Site) : Site :=
  { x with spare := if x.fixed then x.spare else 16, rotations := 0, swapDue := false, activity := (match x.activity with | .diagnosing r => .diagnosing r | .programming a => .programming a | _ => .none)
           step := none, nextStep := none, sweep := [], corrected := [], sweepsRun := 0, halting := false, waits := false
           control := 0x40100000, delay := 4, nextDelay := 4, dac := 0, dacNow := 0, entries := List.replicate 16 0 }

/-- An array as Dormant leaves it (R566): its tables are discarded; its levels need no new verification (R568), and an operation that
programs it runs to its end (R611). -/
def arrayDormant (a : OrArray) : OrArray :=
  if a.program.isSome then { a with active := none, staged := none } else { arrayTablesLost a with verified := a.verified }

/-- The quarters whose firmware regions hold their part of the installed plan, and of one that waits (R289, R566, R568). -/
def planParts (p : Planner) (parts : List Nat) : Planner :=
  { p with plan := p.plan.map (fun x => { x with parts := parts }), waiting := p.waiting.map (fun x => { x with parts := parts }) }

/-- The engine reaches Dormant (R566): self-refresh, quarters gated, tables, trims, Pavilion and tile memory discarded. -/
def enterDormant (s : State) : State :=
  let s1 := { s with
    power := { s.power with state := .dormant, hbmSelfRefresh := true, quartersGated := true }
    arrays := smapAll s.arrays (fun _ a => arrayDormant a)
    sites := smapAll s.sites (fun _ x => siteDormant x)
    cores := smapAll s.cores (fun _ c => { c with windows := List.replicate 8 {}, tile := [] })
    planner := planParts s.planner []
    histories := []
    layerSteps := [] }
  reportPower (protectLanes s1) s.power.state .dormant

/-- The engine has left Dormant (R568): quarters powered, stacks retrained, slices calibrated, plan parts restored; every
programmed array is due for calibration, and lanes wait for the last of them. -/
def wakeDies (s : State) : State :=
  let s1 := { s with
    power := { s.power with state := .idle, hbmSelfRefresh := false, quartersGated := false }
    arrays := smapAll s.arrays (fun _ a => if a.state = .programmed then { a with due := true } else a)
    sites := smapAll s.sites (fun _ x => if isProgramming x.activity then { x with starting := List.range 17 } else
      { x with starting := List.range 17, control := siteControl x.delay 2 0 })
    planner := planParts s.planner (planQuarters s)
    lanes := smapAll s.lanes (fun _ l => { l with sitsOut := true }) }
  reportPower (protectLanes (startPrograms s1)) .dormant .idle

/-- POWER_STATE_SET 2 (R565, R468): an open request or a running build blocks it. -/
def bodyPowerDormant (c : Ctx) (s : State) : State :=
  if s.power.state = .dormant then replyOk c s []
  else if s.requests.any (fun e => !e.2.mirrored) ∨ s.planner.build.isSome then replySt c s .busy
  else replyOk c (enterDormant s) []

/-- A packet whose parameter byte the row fixes. -/
def stampPkt (off v : Nat) (p : Pkt) : Pkt := { p with chain := stampParam off v (padTo (max 128 p.chain.length) p.chain) }

/-! ### Temperature sensing (R571–R573, R576, R582) -/

/-- The channel the module temperature comes from: the hottest that has not failed, lowest number first. -/
def hotChannel (t : Thermal) : Nat :=
  ((numbered t.channels).foldl (fun m e =>
    if e.2.failed then m else match e.2.last with
      | .temp v => match m with
        | some (w, c) => if w < v then some (v, e.1) else some (w, c)
        | none => some (v, e.1)
      | _ => m) (none : Option (Int × Nat))).elim 0 (·.2)

/-- Why a channel fails at a sample (R572): open, short, or a jump of more than 20 °C. -/
def channelFault (c : Channel) (r : Reading) : Option Nat :=
  match r, c.last with
  | .open, _ => some 0
  | .short, _ => some 1
  | .temp n, .temp o => if c.sampled ∧ 160 < (n - o).natAbs then some 2 else none
  | .temp _, _ => none

/-- One channel's sample: a failed channel is reported once and ignored from then on (R572). -/
def sampleChannel (s : State) (e : Nat × Reading) : State :=
  let c := lgetD s.thermal.channels e.1 {}
  let why := if c.failed then none else channelFault c e.2
  let s1 := { s with thermal := { s.thermal with channels := lmod s.thermal.channels e.1 (fun x =>
    { x with last := e.2, sampled := true, failed := x.failed || why.isSome }) } }
  match why with
  | some w => report s1 0x46 2 (sensorUid e.1) (leBytes 1 e.1 ++ leBytes 1 w)
  | none => s1

/-- The thermal level R579 computes: 100 − 6 × (T − throttle threshold), rounded down, from 25 to 100. -/
def throttleValue (t : Thermal) : Nat :=
  (max 25 (min 100 ((800 - 6 * (moduleTemp t - t.throttle)) / 8))).toNat

/-- Thermal shutdown (R582, R583): steps stop, FATAL cause 5, its record unless the comparator tripped, rails off; a third
within the hour makes the Lodge wait for a command. -/
def thermalShutdown (s : State) (channel : Nat) (hard : Bool) : State :=
  let uid := sensorUid channel
  let times := s.now :: s.thermal.shutdowns.filter (fun t => s.now - t ≤ 3600000000000)
  let s1 := enterFatal (stopSteps s) 5 uid
  let s2 := if hard then s1
    else report s1 0x43 5 uid (leBytes 1 channel ++ [0] ++ leBytes 2 (twos 16 (moduleTemp s.thermal)))
  let s3 := { s2 with thermal := { s2.thermal with
    inShutdown := true, armed := false, shutdowns := times, holdOff := decide (3 ≤ times.length)
    tripLatch := if hard then some channel else s2.thermal.tripLatch } }
  railsOff s3 2

/-- Whether the Lodge watches the dies: it runs, and the main rails are on. -/
def watching (s : State) : Bool := s.lodge.alive && s.power.railsOn

/-- Thresholds after a sample (R576, R579, R582, R583). -/
def judgeTemperature (s : State) : State :=
  let t := moduleTemp s.thermal
  let ch := hotChannel s.thermal
  let s0 := if t < s.thermal.rearm then { s with thermal := { s.thermal with armed := true } } else s
  if !watching s0 then s0
  else if s0.thermal.armed ∧ s0.thermal.shutdown ≤ t then thermalShutdown s0 ch false
  else
    let s1 :=
      if !s0.thermal.inWarning ∧ s0.thermal.warning ≤ t then
        report { s0 with thermal := { s0.thermal with inWarning := true } } 0x40 2 (sensorUid ch)
          (leBytes 1 ch ++ [0] ++ leBytes 2 (twos 16 t))
      else if s0.thermal.inWarning ∧ t < s0.thermal.warningClear then
        { s0 with thermal := { s0.thermal with inWarning := false } }
      else s0
    if !s1.thermal.inThrottle ∧ s1.thermal.throttle ≤ t then
      let v := min s1.thermal.thermalLevel (throttleValue s1.thermal)
      report { s1 with thermal := { s1.thermal with
          inThrottle := true, thermalLevel := v, lowestLevel := v, throttleAt := hostTime s1, lastRiseAt := s1.now } }
        0x41 2 (sensorUid 0) (leBytes 2 (twos 16 t) ++ leBytes 1 v)
    else s1

/-- DIODE_SAMPLE (R571, R572): the 18 channels are read; calibrations follow a changed interval (R126). -/
def diodesSampled (readings : List Reading) (s : State) : State :=
  if s.lodge.alive then judgeTemperature (recomputeDue s ((numbered (readings.take 18)).foldl sampleChannel s)) else s

/-- THROTTLE (R579): in the throttle state the thermal level takes a lower value at once and rises toward a higher one by
at most a point per 10 ms; the state ends below throttle clear with the level at 100. -/
def throttleMoves (s : State) : State :=
  if !s.thermal.inThrottle ∨ !watching s then s
  else
    let t := s.thermal
    let v := throttleValue t
    let level := if v < t.thermalLevel then v
      else if t.thermalLevel < v ∧ t.lastRiseAt + 10000000 ≤ s.now then t.thermalLevel + 1 else t.thermalLevel
    let low := min t.lowestLevel level
    let t1 := { t with thermalLevel := level, lowestLevel := low
                       lastRiseAt := if v ≤ t.thermalLevel ∨ t.thermalLevel < level then s.now else t.lastRiseAt }
    if moduleTemp t < t.throttleClear ∧ level = 100 then
      report { s with thermal := { t1 with inThrottle := false } } 0x42 0 (sensorUid 0)
        (leBytes 1 low ++ [0, 0, 0] ++ leBytes 4 ((hostTime s - t.throttleAt) / 1000000))
    else { s with thermal := t1 }

/-- POWER_LEVEL (R580). -/
def powerMoves (mean1s mean10ms : Nat) (s : State) : State :=
  if !watching s then s
  else
    let t := s.thermal
    if s.lodge.powerLimit < mean1s ∨ 2600 < mean10ms then
      let v := max 25 (t.powerLevel - 5)
      let s1 := { s with thermal := { t with powerLevel := v, mean1s := mean1s } }
      if t.powerLevel = 100 then report s1 0x45 2 (sensorUid 0) (leBytes 2 mean1s ++ leBytes 1 v) else s1
    else
      { s with thermal := { t with
          mean1s := mean1s
          powerLevel := if mean1s + 100 < s.lodge.powerLimit then min 100 (t.powerLevel + 1) else t.powerLevel } }

/-- Since when the output level has stood at or above each level of the variants (R297). -/
def levelsHeld (s : State) (l : Nat) : List (Nat × Nat) :=
  (List.range 6).filterMap (fun c =>
    if levelOf c ≤ l then
      match s.thermal.raiseSince.find? (fun e => e.1 = c) with
      | some e => some e
      | none => some (c, hostTime s)
    else none)

/-- OUTPUT_LEVEL_CHANGE (R578, R581, R295): the firing budget and VDD_CORE follow L; a step that has now run below its
variant's level is flagged, and keeps the lowest level it has seen (R298). -/
def outputLevelMoves (s : State) : State :=
  let l := outputLevel s.thermal
  if l = s.thermal.appliedLevel then s
  else
    { s with
      thermal := { s.thermal with appliedLevel := l, raiseSince := levelsHeld s l }
      lanes := smapAll s.lanes (fun _ x => { x with step := x.step.map (fun st =>
        { st with lowest := min st.lowest l, excursion := st.excursion || decide (l < levelOf x.level) }) }) }

/-- THERMAL_UPDATE (R422): the Lodge writes THERMAL. -/
def thermalWritten (s : State) : State :=
  if s.lodge.alive then { s with thermal := { s.thermal with register := BitVec.ofNat 32 (thermalWord s.thermal) } } else s

/-- HARD_THERMAL_TRIP (R577): the comparator of a channel turns the main rails off. -/
def hardTrip (channel : Nat) (s : State) : State := if s.power.railsOn then thermalShutdown s channel true else s

/-- SHUTDOWN_REARM (R583): T below re-arm powers the rails up again as a module reset, unless the Lodge waits. -/
def shutdownRearms (s : State) : State :=
  if s.lodge.alive ∧ s.power.state = .standby ∧ s.power.offReason = 2 ∧ !s.thermal.holdOff
      ∧ moduleTemp s.thermal < s.thermal.rearm then
    powerUpReset { s with thermal := { s.thermal with armed := true } }
  else s

/-- A thermistor's reading in 0.125 °C, if it has one. -/
def readingTemp : Reading → Option Int
  | .temp t => some t
  | _ => none

/-- Whether R573 asks for a coolant record: the inlet above 40 °C, or the outlet more than 20 °C above it. -/
def coolantBad (inlet outlet : Reading) : Bool :=
  match readingTemp inlet, readingTemp outlet with
  | some i, some o => decide (320 < i) || decide (i + 160 < o)
  | some i, none => decide (320 < i)
  | none, _ => false

/-- COOLANT_SAMPLE (R571, R573): a record every 10 s while the condition lasts. -/
def coolantSampled (inlet outlet : Reading) (external : List Reading) (s : State) : State :=
  if !s.lodge.alive then s
  else
    let due : Bool := match s.thermal.coolantRecordAt with | some t => decide (t + 10000000000 ≤ s.now) | none => true
    let bad := coolantBad inlet outlet
    let s1 := { s with thermal := { s.thermal with
      inlet := inlet, outlet := outlet, external := external.take 2
      coolantRecordAt := if bad then (if due then some s.now else s.thermal.coolantRecordAt) else none } }
    if bad ∧ due then report s1 0x47 2 (sensorUid 0) (readingField false inlet ++ readingField false outlet) else s1

/-! ### Supply inputs (R562, R565) -/

/-- Detail of an input-voltage record (R584). -/
def inputDetail (standby : Bool) (mv : Nat) : Bytes := leBytes 1 (boolBit standby) ++ [0] ++ leBytes 2 (mv / 10)

/-- MAIN_INPUT_FAULT (R562): outside 42–62 V for more than 1 ms, rails off, FATAL cause 7. -/
def mainFaults (v : Supply) (s : State) : State :=
  let s1 := { s with power := { s.power with mainMillivolts := v.millivolts } }
  if s.lodge.alive ∧ s.power.railsOn ∧ (v.millivolts < 42000 ∨ 62000 < v.millivolts) ∧ 1000 < v.micros then
    let s2 := report (stopSteps s1) 0x48 5 (sensorUid 0) (inputDetail false v.millivolts)
    fatalBits (railsOff s2 1) 7 (sensorUid 0)
  else s1

/-- MAIN_INPUT_MARGINAL (R562): 42–44 V or 60–62 V, the engine keeps serving. -/
def mainMarginal (v : Supply) (s : State) : State :=
  let s1 := { s with power := { s.power with mainMillivolts := v.millivolts } }
  if watching s ∧ ((42000 ≤ v.millivolts ∧ v.millivolts < 44000) ∨ (60000 < v.millivolts ∧ v.millivolts ≤ 62000)) then
    report s1 0x48 2 (sensorUid 0) (inputDetail false v.millivolts)
  else s1

/-- MAIN_INPUT_RESTORED (R562): within 44–60 V for 100 ms, the Lodge powers up again. -/
def mainRestored (v : Supply) (s : State) : State :=
  let s1 := { s with power := { s.power with mainMillivolts := v.millivolts } }
  if s.lodge.alive ∧ s.power.state = .standby ∧ s.power.offReason = 1 ∧ 44000 ≤ v.millivolts ∧ v.millivolts ≤ 60000
      ∧ 100000 ≤ v.micros then powerUpReset s1
  else s1

/-- STANDBY_INPUT_FAULT (R562): at most one record per 10 s while the condition lasts. -/
def standbyFaults (v : Supply) (s : State) : State :=
  let s1 := { s with power := { s.power with standbyMillivolts := v.millivolts } }
  let due : Bool := match s.power.lastStandbyRecord with | some t => decide (t + 10000000000 ≤ s.now) | none => true
  if s.lodge.alive ∧ (v.millivolts < 11400 ∨ 12600 < v.millivolts) ∧ 1000 < v.micros ∧ due then
    report { s1 with power := { s1.power with lastStandbyRecord := some s.now } } 0x48 2 (sensorUid 0)
      (inputDetail true v.millivolts)
  else s1

/-- STANDBY_INPUT_APPLIED (R565, R588 event A). -/
def standbyApplied (s : State) : State := if s.power.state = .off then coldPowerOn s else s

/-- STANDBY_INPUT_LOST (R565). -/
def standbyLost (s : State) : State := if s.power.state = .off then s else powerOff s

/-! ### Pins the block drives (R493, R595, R596) -/

/-- ALERT_L, true while held low (R596); an output of a module without standby power is released (R595). -/
def alertLow (s : State) : Bool :=
  decide (s.power.state ≠ .off) && (decide (thermalState s.thermal ≠ 0) || s.boot.fatal
    || s.lodge.held.any (fun r => decide (4 ≤ r.record.severity)))

/-! ### The rows -/

def execThermalRead (p : Pkt) (s : State) : Out State := .next (packetRow 0x0601 p s id bodyThermalRead)
def execThermalSet (p : Pkt) (s : State) : Out State := .next (packetRow 0x0602 p s id bodyThermalSet)
def execPowerStateSetDormant (p : Pkt) (s : State) : Out State :=
  .next (packetRow 0x0603 (stampPkt 0 2 p) s id bodyPowerDormant)
def execDiodeSample (readings : List Reading) (s : State) : Out State := .next (diodesSampled readings s)
def execThrottle (s : State) : Out State := .next (throttleMoves s)
def execPowerLevel (mean1s mean10ms : Nat) (s : State) : Out State := .next (powerMoves mean1s mean10ms s)
def execOutputLevelChange (s : State) : Out State := .next (outputLevelMoves s)
def execThermalUpdate (s : State) : Out State := .next (thermalWritten s)
def execHardThermalTrip (channel : Fin 18) (s : State) : Out State := .next (hardTrip channel.val s)
def execShutdownRearm (s : State) : Out State := .next (shutdownRearms s)
def execCoolantSample (inlet outlet : Reading) (external : List Reading) (s : State) : Out State :=
  .next (coolantSampled inlet outlet external s)
def execMainInputFault (v : Supply) (s : State) : Out State := .next (mainFaults v s)
def execMainInputMarginal (v : Supply) (s : State) : Out State := .next (mainMarginal v s)
def execMainInputRestored (v : Supply) (s : State) : Out State := .next (mainRestored v s)
def execStandbyInputFault (v : Supply) (s : State) : Out State := .next (standbyFaults v s)
def execStandbyInputApplied (s : State) : Out State := .next (standbyApplied s)
def execStandbyInputLost (s : State) : Out State := .next (standbyLost s)

end Sys2Proof.Machine
end

