-- ==== Sys2Proof/Machine/HostRegs.lean ====
section
/-! DEFINITION. What the host writes without a packet (R408–R445, R605–R608): the control page, doorbells, the MSI-X table,
the debug aperture; functions, the link and the resets the host starts. -/

namespace Sys2Proof.Machine
open Sys2Proof

/-- A function the host can reach: the link has trained, and the function is there (R413, R605). -/
def reachable (s : State) (fn : Nat) : Bool :=
  s.link.up && decide (s.boot.sequence = .up) && (decide (fn = 0) || (fnGet s fn).enabled)

/-! ### Event records held back (R608, R597, R570) -/

/-- Writes what is held for a function's event queue, once it is enabled, the firmware runs and DMA may go. -/
def flushIfEnabled (s : State) (fn : Nat) : State :=
  let f := fnGet s fn
  if f.eqEnable ∧ isRunning s ∧ dmaAllowed s fn then flushHeld s fn else s

/-- DMA may go again for functions whose queues stayed enabled. -/
def flushAllHeld (s : State) : State := (s.fns.map (·.1)).foldl flushIfEnabled s

/-! ### Bootstrap queue and ring (R425, R607) -/

def depthValid (d : Nat) : Bool := decide (4 ≤ d ∧ d ≤ 12)

/-- The bootstrap queue of a function comes into being with its registers' values (R425, R426). -/
def openBootQueue (s : State) (fn : Nat) : State :=
  let f := fnGet s fn
  if f.bsqEnable ∧ isRunning s then
    let q : SubQueue := { base := f.bsqBase, depth := 2 ^ f.bsqDepth, priority := 0, ring := bootRing fn }
    { s with queues := sput s.queues (bootQueue fn) q }
  else s

/-- The bootstrap reply ring of a function comes into being: every entry is signalled (R607). -/
def openBootRing (s : State) (fn : Nat) : State :=
  let f := fnGet s fn
  if f.brplEnable ∧ isRunning s then
    let r : ReplyRing := { base := f.brplBase, depth := 2 ^ f.brplDepth, vector := f.brplVector, modCount := 1, modDelay := 0 }
    { s with rings := sput s.rings (bootRing fn) r }
  else s

/-- The engine begins to act on the registers it accepted before it ran (R417). -/
def actOnRegisters (s : State) : State :=
  (s.fns.map (·.1)).foldl (fun t fn => flushIfEnabled (openBootQueue (openBootRing t fn) fn) fn) s

/-- Write of BSQ_CTL (R425): writing Enable = 0 is a queue reset of the bootstrap queue. -/
def writeBsqCtl (fn v : Nat) (s : State) : State :=
  let f := fnGet s fn
  let d := fld v 3 0
  if fld v 31 31 = 1 then
    if f.bsqEnable then s
    else openBootQueue (fnSet s fn { f with bsqEnable := depthValid d, bsqDepth := d }) fn
  else if f.bsqEnable then
    let s1 := resetQueue (fnSet s fn { f with bsqEnable := false }) (bootQueue fn)
    { s1 with queues := sdel s1.queues (bootQueue fn) }
  else fnSet s fn { f with bsqDepth := d }

/-- Write of BRPL_CTL (R425, R444, R607). -/
def writeBrplCtl (fn v : Nat) (s : State) : State :=
  let f := fnGet s fn
  let d := fld v 3 0
  let vec := fld v 21 11
  if fld v 31 31 = 1 then
    if vec = 0 ∨ vectorsOf fn ≤ vec then s
    else if f.brplEnable then
      let s1 := fnSet s fn { f with brplVector := vec }
      { s1 with rings := smod s1.rings (bootRing fn) (fun r => { r with vector := vec }) }
    else openBootRing (fnSet s fn { f with brplEnable := depthValid d, brplDepth := d, brplVector := vec }) fn
  else if f.brplEnable then
    let s1 := closeRequests (fnSet s fn { f with brplEnable := false, brplVector := vec }) (fun r => r.ring = bootRing fn)
    let s2 := resetRing s1 (bootRing fn)
    { s2 with rings := sdel s2.rings (bootRing fn) }
  else fnSet s fn { f with brplDepth := d, brplVector := vec }

/-! ### Event queue (R436) -/

/-- Write of EQ_CTL (R436): Overflow clears by one; only a change of Enable from 0 to 1 starts the counts at 0. -/
def writeEqCtl (fn v : Nat) (s : State) : State :=
  let f0 := fnGet s fn
  let f := if fld v 30 30 = 1 then { f0 with eqOverflow := false } else f0
  let size := fld v 20 16
  if f.eqEnable then
    if fld v 31 31 = 1 then fnSet s fn f else fnSet s fn { f with eqEnable := false }
  else if fld v 31 31 = 1 ∧ 6 ≤ size ∧ size ≤ 16 then
    flushIfEnabled (fnSet s fn { f with eqEnable := true, eqSize := size, eqDropped := 0, eqProducer := 0, eqConsumer := 0 }) fn
  else fnSet s fn { f with eqSize := size }

/-! ### Reset control and mailbox (R420, R421, R438, R439) -/

/-- Write of RESET_CTL (R420, R421): a chip reset, only out of the fatal state and while none is in progress. -/
def writeResetCtl (v : Nat) (s : State) : State :=
  if fld v 31 24 = 0xC9 ∧ fld v 23 20 = 1 ∧ s.boot.fatal ∧ s.boot.state ≠ .chipReset ∧ s.boot.state ≠ .halted then
    chipReset (flushCounts s) 5 0
  else s

/-- A bundle length R538 and R439 allow. -/
def bundleLengthOk (n : Nat) : Bool := decide (4096 ≤ n ∧ n ≤ 33554432 ∧ n % 4096 = 0)

/-- Another FATAL cause while the boot ROM waits (R440). -/
def fatalCauseSet (s : State) (cause : Nat) : State := enterFatal s cause 0

/-- Write of MBX_CTL (R438, R439): a load command. -/
def writeMbxCtl (v : Nat) (s : State) : State :=
  if fld v 31 28 ≠ 1 then s
  else if s.boot.state ≠ .waiting then { s with boot := { s.boot with mbxStatus := 8 } }
  else
    let s1 := { s with boot := { s.boot with source := 1 } }
    if bundleLengthOk s.boot.mbxLen.toNat then
      { s1 with boot := { s1.boot with state := .fetching, mbxStatus := 1 } }
    else fatalCauseSet { s1 with boot := { s1.boot with mbxStatus := 6 } } 6

/-! ### The control page (R416, R606) -/

/-- A base register written one half at a time: bits 11..0 of the low half read zero (R425). -/
def setLow (b : BitVec 64) (v : Nat) : BitVec 64 := BitVec.ofNat 64 (b.toNat / 2 ^ 32 * 2 ^ 32 + v / 4096 * 4096 % 2 ^ 32)
def setHigh (b : BitVec 64) (v : Nat) : BitVec 64 := BitVec.ofNat 64 (v % 2 ^ 32 * 2 ^ 32 + b.toNat % 2 ^ 32)

/-- Offsets that only the physical function has (R416). -/
def pfOnlyOffset (off : Nat) : Bool := decide (off ∈ [0x10, 0x80, 0x84, 0x88, 0x8C])

/-- Registers that a write leaves as they are. -/
def readOnlyOffset (off : Nat) : Bool := decide (off ∈ [0x0, 0x4, 0x8, 0xC, 0xC0, 0x100, 0x104])

/-- Offsets of the control page that hold a register (R416). -/
def knownOffset (off : Nat) : Bool :=
  pfOnlyOffset off || readOnlyOffset off || decide (off ∈ [0x20, 0x24, 0x28, 0x30, 0x34, 0x38, 0x40, 0x44, 0x48])

/-- One aligned 32-bit write below 0x4000 (R416, R606). -/
def writeReg32 (fn off v : Nat) (s : State) : State :=
  let f := fnGet s fn
  if pfOnlyOffset off ∧ fn ≠ 0 then violation s fn
  else if off = 0x10 then writeResetCtl v s
  else if off = 0x20 then (if f.eqEnable then s else fnSet s fn { f with eqBase := setLow f.eqBase v })
  else if off = 0x24 then (if f.eqEnable then s else fnSet s fn { f with eqBase := setHigh f.eqBase v })
  else if off = 0x28 then writeEqCtl fn v s
  else if off = 0x30 then (if f.bsqEnable then s else fnSet s fn { f with bsqBase := setLow f.bsqBase v })
  else if off = 0x34 then (if f.bsqEnable then s else fnSet s fn { f with bsqBase := setHigh f.bsqBase v })
  else if off = 0x38 then writeBsqCtl fn v s
  else if off = 0x40 then (if f.brplEnable then s else fnSet s fn { f with brplBase := setLow f.brplBase v })
  else if off = 0x44 then (if f.brplEnable then s else fnSet s fn { f with brplBase := setHigh f.brplBase v })
  else if off = 0x48 then writeBrplCtl fn v s
  else if off = 0x80 then { s with boot := { s.boot with mbxAddr := setLow s.boot.mbxAddr v } }
  else if off = 0x84 then { s with boot := { s.boot with mbxAddr := setHigh s.boot.mbxAddr v } }
  else if off = 0x88 then { s with boot := { s.boot with mbxLen := BitVec.ofNat 32 (fld v 25 0) } }
  else if off = 0x8C then writeMbxCtl v s
  else if readOnlyOffset off then s
  else violation s fn

/-- A word of the control page as a read returns it (R416, R418–R423, R425, R436, R438): zero for a reserved offset. -/
def readReg32 (s : State) (fn off : Nat) : Nat :=
  let f := fnGet s fn
  if pfOnlyOffset off ∧ fn ≠ 0 then 0
  else if off = 0x0 then identWord fn
  else if off = 0x4 then compatWord s.fuses
  else if off = 0x8 then fwVersionWord s.boot
  else if off = 0xC then bootStateWord s.boot
  else if off = 0x10 then resetCtlWord s.boot
  else if off = 0x20 then f.eqBase.toNat % 2 ^ 32
  else if off = 0x24 then f.eqBase.toNat / 2 ^ 32
  else if off = 0x28 then eqCtlWord f
  else if off = 0x30 then f.bsqBase.toNat % 2 ^ 32
  else if off = 0x34 then f.bsqBase.toNat / 2 ^ 32
  else if off = 0x38 then bsqCtlWord f
  else if off = 0x40 then f.brplBase.toNat % 2 ^ 32
  else if off = 0x44 then f.brplBase.toNat / 2 ^ 32
  else if off = 0x48 then brplCtlWord f
  else if off = 0x80 then s.boot.mbxAddr.toNat % 2 ^ 32
  else if off = 0x84 then s.boot.mbxAddr.toNat / 2 ^ 32
  else if off = 0x88 then s.boot.mbxLen.toNat
  else if off = 0x8C then mbxCtlWord s.boot
  else if off = 0xC0 then s.thermal.register.toNat
  else if off = 0x100 then fatalWord s.boot
  else if off = 0x104 then s.boot.fatalUid.toNat
  else 0

/-! ### MSI-X table (R408, R416, R435, R606) -/

/-- One 32-bit write to an entry of the MSI-X table: unmasking an entry whose pending bit is set sends its message. -/
def writeMsix (fn n word v : Nat) (s : State) : State :=
  let f := fnGet s fn
  let e := sgetD f.msix n {}
  let e1 : MsixEntry :=
    if word = 0 then { e with address := BitVec.ofNat 64 (e.address.toNat / 2 ^ 32 * 2 ^ 32 + v % 2 ^ 32) }
    else if word = 1 then { e with address := BitVec.ofNat 64 (v % 2 ^ 32 * 2 ^ 32 + e.address.toNat % 2 ^ 32) }
    else if word = 2 then { e with data := BitVec.ofNat 32 v }
    else { e with masked := decide (v % 2 = 1) }
  let s1 := fnSet s fn { f with msix := sput f.msix n e1 }
  if f.pba.contains n ∧ !e1.masked then
    signal (fnSet s1 fn { fnGet s1 fn with pba := f.pba.filter (fun x => x ≠ n) }) fn n
  else s1

/-- One 32-bit write to the MSI-X table of a function at an offset of BAR0; past a virtual function's 64 entries the
offset is reserved (R416). -/
def writeTable (fn off v : Nat) (s : State) : State :=
  let n := (off - 0x8000) / 16
  if vectorsOf fn ≤ n then violation s fn else writeMsix fn n (off / 4 % 4) v s

/-- Whether a BAR0 offset is reserved for a function above 0x4000 (R416). -/
def reservedHigh (fn off : Nat) : Bool :=
  decide (0x4100 ≤ off ∧ off < 0x8000) || (decide (fn ≠ 0) && (decide (0x4008 ≤ off ∧ off < 0x4100) || decide (0x8400 ≤ off)))

/-- A BAR0 write of `width` bytes (R606). -/
def writeBar0 (fn off width v : Nat) (s : State) : State :=
  let aligned := decide ((width = 4 ∨ width = 8) ∧ off % width = 0)
  if reservedHigh fn off then violation s fn
  else if !aligned then violation s fn
  else
    let one := fun (o w : Nat) (t : State) =>
      if o < 0x4000 then writeReg32 fn o w t else if o < 0x8000 then t else writeTable fn o w t
    let s1 := one off (v % 2 ^ 32) s
    if width = 8 then one (off + 4) (v / 2 ^ 32 % 2 ^ 32) s1 else s1

/-- A word of BAR0 as a read returns it: the control page, the pending-bit array, the MSI-X table; zero for a reserved offset. -/
def readWord (s : State) (fn off : Nat) : Nat :=
  let f := fnGet s fn
  if reservedHigh fn off then 0
  else if off < 0x4000 then readReg32 s fn off
  else if off < 0x8000 then
    (List.range 32).foldl (fun t i => t + if f.pba.contains (8 * (off - 0x4000) + i) then 2 ^ i else 0) 0
  else
    let e := sgetD f.msix ((off - 0x8000) / 16) {}
    match off / 4 % 4 with
    | 0 => e.address.toNat % 2 ^ 32
    | 1 => e.address.toNat / 2 ^ 32
    | 2 => e.data.toNat
    | _ => boolBit e.masked

/-- A BAR0 read of any size and alignment returns the addressed bytes (R606). No row of the table commands one (log entry 102). -/
def readBar0 (s : State) (fn off len : Nat) : Bytes :=
  (List.range len).map (fun i => BitVec.ofNat 8 (readWord s fn ((off + i) / 4 * 4) / 256 ^ ((off + i) % 4)))

/-- Whether such a read is a violation: an offset that reads zero for the function, or is reserved (R416, R555). -/
def readViolates (fn off len : Nat) : Bool :=
  (List.range len).any (fun i =>
    let o := (off + i) / 4 * 4
    reservedHigh fn o || (decide (o < 0x4000) && ((pfOnlyOffset o && decide (fn ≠ 0)) || !knownOffset o)))

/-! ### Doorbells (R413, R415, R427, R429) -/

/-- A doorbell write: an aligned 8-byte write whose bits 15..0 are the producer count of its queue. -/
def ringDoorbell (fn index width v : Nat) (s : State) : State :=
  let q := if fn = 0 then index else bootQueue fn + index
  let count := v % 65536
  if fn ≠ 0 ∧ 1024 ≤ index then s
  else if ownerOfQueue s q ≠ fn then violation s fn
  else if width ≠ 8 then s
  else match sget s.queues q with
    | none => s
    | some x =>
      let ahead := (count + 65536 - x.consumed) % 65536
      if x.depth < ahead ∨ ahead < covered x then
        reportOf s 0x31 2 pciePortUid (leBytes 2 q ++ leBytes 2 count) fn none
      else { s with queues := sput s.queues q { x with producer := count } }

/-- A doorbell reads as the last count the engine accepted (R427). -/
def readDoorbell (s : State) (fn index : Nat) : Nat :=
  ((sget s.queues (if fn = 0 then index else bootQueue fn + index)).map (·.producer)).getD 0

/-! ### The debug aperture (R412, R555, R558) -/

/-- BAR4 is live: debug unlock holds. -/
def bar4Live (s : State) : Bool := s.lodge.debugUnlocked && decide (s.fuses.variant.val = 2) && !s.fuses.debugDisabled

/-- What R558 maps: Gatehouse SRAM and the firmware regions of Q0–Q3. -/
def bar4Mapped : Nat := 0x0C000000

/-- Writes the mapped bytes of a run; the others are ignored. -/
def bar4Write (m : Memory) (a : Nat) : Bytes → Memory
  | [] => m
  | b :: r => bar4Write (if a < bar4Mapped then memWrite m a b else m) (a + 1) r

def bar4Access (fn off len : Nat) (data : Option Bytes) (s : State) : State :=
  if fn ≠ 0 then s
  else match data with
    | some b =>
      if bar4Live s then { s with debugMem := bar4Write s.debugMem off b } else violation s fn
    | none =>
      let out := (List.range len).map (fun i =>
        if bar4Live s ∧ off + i < bar4Mapped then memRead s.debugMem (off + i) else 0)
      { s with link := { s.link with readData := out } }

/-! ### Functions (R413, R414, R442) -/

/-- VF_ENABLE (R414): requests of the slices end, their queues and rings are reset, their event queues disabled, and the
slices are the virtual functions'. -/
def vfEnabled (m : Nat) (s : State) : State :=
  if s.link.vfEnable ∨ m = 0 then s
  else
    let inSlices := fun (n : Nat) => decide (1 ≤ n ∧ n ≤ m)
    let s1 := closeRequests s (fun r => inSlices (r.queue / 1024) || inSlices (r.ring / 64))
    let s2 := (s1.queues.map (·.1)).foldl (fun t q => if inSlices (q / 1024) then
      { t with queues := smod t.queues q (fun x => { x with producer := 0, consumed := 0 }) } else t) s1
    let s3 := (s2.rings.map (·.1)).foldl (fun t r => if inSlices (r / 64) then resetRing t r else t) s2
    let s4 := (List.range m).foldl (fun t i => fnMod t (i + 1) (fun f => { f with eqEnable := false, enabled := true })) s3
    { s4 with link := { s4.link with vfEnable := true, numVfs := m } }

/-- VF_ENABLE_CLEARED (R414): every virtual function is reset, and the physical function regains the slices empty. -/
def vfDisabled (s : State) : State :=
  if !s.link.vfEnable then s
  else
    let s1 := ((List.range 64).drop 1).foldl (fun t n => if (fnGet t n).enabled then flrOne t n else t) s
    { s1 with fns := smapAll s1.fns (fun _ f => { f with enabled := false }),
              link := { s1.link with vfEnable := false, numVfs := 0 } }

/-- D_STATE_CHANGE (R570): in D3hot no DMA for the function; back in D0 its held event records go. -/
def dStateChanges (fn : Nat) (d3hot : Bool) (s : State) : State :=
  let s1 := fnMod s fn (fun f => { f with d3hot := d3hot })
  if d3hot ∨ (fnGet s fn).holding then s1 else flushIfEnabled s1 fn

/-! ### Link (R410, R588 event G, R597) -/

/-- A link event is reported (R410, R518). -/
def reportLink (s : State) (rate width : Nat) : State :=
  report s 0x30 2 pciePortUid (leBytes 1 rate ++ leBytes 1 width)

/-- LINK_TRAINED (R410, R588 events F and G): once the Gatehouse is released, PERST is deasserted and the clock runs. -/
def linkTrains (rate width : Nat) (s : State) : State :=
  let first := decide (s.boot.sequence = .released)
  if s.power.perstAsserted ∨ !s.power.refClock ∨ (!first ∧ s.boot.sequence ≠ .up) ∨ s.boot.gatehouseSilent then s
  else
    let changed := !first && decide (s.link.rate ≠ rate ∨ s.link.width ≠ width)
    let s1 := { s with link := { s.link with up := true, rate := rate, width := width }
                       boot := { s.boot with sequence := .up } }
    let s2 := flushAllHeld s1
    let s3 := if changed then reportLink s2 rate width else s2
    if linkCarries rate width < reservedReads s3 then forceBuild s3 .hostLink else s3

/-- The link goes down (R597). -/
def linkFalls (s : State) : State :=
  if s.link.up then reportLink { s with link := { s.link with up := false, rate := 0, width := 0 } } 0 0 else s

/-- REFERENCE_CLOCK_LOST (R597): the link goes down; firmware and engine state are kept. -/
def clockLost (s : State) : State := linkFalls { s with power := { s.power with refClock := false } }

/-- REFERENCE_CLOCK_RETURNED (R597). -/
def clockReturned (s : State) : State := { s with power := { s.power with refClock := true } }

/-! ### Resets from outside (R443, R585, R586) -/

/-- PCIE_HOT_RESET (R443). -/
def hotResets (s : State) : State := if s.boot.sequence = .up then hotReset s else s

/-- PERST (R585): its assertion is a module reset, code 2; inputs are dead while the module is Off (R595). -/
def perstChanges (asserted : Bool) (s : State) : State :=
  let s1 := { s with power := { s.power with perstAsserted := asserted } }
  if asserted ∧ s.power.state ≠ .off then moduleReset s1 2 else s1

/-- MOD_RESET_L (R585): held low for at least 10 µs, a module reset. -/
def modResets (high : Bool) (lowNs : Nat) (s : State) : State :=
  let s1 := { s with power := { s.power with modResetL := high } }
  if 10000 ≤ lowNs ∧ s.power.state ≠ .off then moduleReset s1 1 else s1

/-! ### The rows -/

def execDoorbell (fn : FnId) (index : Fin 65536) (value : BitVec 64) (width : Nat) (s : State) : Out State :=
  .next (if reachable s fn.val then ringDoorbell fn.val index.val width value.toNat s else s)
def execResetCtl (fn : FnId) (value : Word) (s : State) : Out State :=
  .next (if reachable s fn.val then writeReg32 fn.val 0x10 value.toNat s else s)
def execBsqCtl (fn : FnId) (value : Word) (s : State) : Out State :=
  .next (if reachable s fn.val then writeReg32 fn.val 0x38 value.toNat s else s)
def execBrplCtl (fn : FnId) (value : Word) (s : State) : Out State :=
  .next (if reachable s fn.val then writeReg32 fn.val 0x48 value.toNat s else s)
def execEqCtl (fn : FnId) (value : Word) (s : State) : Out State :=
  .next (if reachable s fn.val then writeReg32 fn.val 0x28 value.toNat s else s)
def execMbxCtlLoad (fn : FnId) (value : Word) (s : State) : Out State :=
  .next (if reachable s fn.val then writeReg32 fn.val 0x8C value.toNat s else s)
def execRegisterWrite (fn : FnId) (offset : Fin 65536) (width : Nat) (value : BitVec 64) (s : State) : Out State :=
  .next (if reachable s fn.val then writeBar0 fn.val offset.val width value.toNat s else s)
def execBar4Access (fn : FnId) (offset : BitVec 30) (length : Nat) (data : Option Bytes) (s : State) : Out State :=
  .next (if reachable s fn.val then bar4Access fn.val offset.toNat length data s else s)
def execVfEnable (numVfs : Fin 64) (s : State) : Out State :=
  .next (if reachable s 0 then vfEnabled numVfs.val s else s)
def execVfEnableCleared (s : State) : Out State := .next (if reachable s 0 then vfDisabled s else s)
def execFunctionLevelReset (fn : FnId) (s : State) : Out State :=
  .next (if reachable s fn.val then functionReset s fn.val else s)
def execPcieHotReset (s : State) : Out State := .next (hotResets s)
def execPerst (asserted : Bool) (s : State) : Out State := .next (perstChanges asserted s)
def execModResetL (high : Bool) (lowNs : Nat) (s : State) : Out State := .next (modResets high lowNs s)
def execDStateChange (fn : FnId) (d3hot : Bool) (s : State) : Out State :=
  .next (if reachable s fn.val then dStateChanges fn.val d3hot s else s)
def execLinkTrained (rate width : Nat) (s : State) : Out State := .next (linkTrains rate width s)
def execLinkDown (s : State) : Out State := .next (linkFalls s)
def execReferenceClockLost (s : State) : Out State := .next (clockLost s)
def execReferenceClockReturned (s : State) : Out State := .next (clockReturned s)

end Sys2Proof.Machine
end

