-- ==== Sys2Proof/Machine/Fabric.lean ====
section
/-! DEFINITION. Fabric ports (R472–R483): modes and training, the Hachate link, Ethernet mode and its transport, and the
packets of R470 that are not about a pair. -/

namespace Sys2Proof.Machine
open Sys2Proof

/-! ### Modes and training (R472–R474) -/

/-- A port in a mode, training unless it is off (R473). -/
def portInMode (mode : Nat) : Port := { mode := mode, state := if mode = 0 then 0 else 1 }

/-- Sets a port's mode: a change takes it down and retrains it. -/
def setPortMode (s : State) (n mode : Nat) : State :=
  portMod s n (fun p => if p.mode = mode then p else portInMode mode)

/-- PORT_MODE_SET (R470, R473). -/
def bodyPortModeSet (c : Ctx) (s : State) : State :=
  if 15 < c.par 0 1 then replyInvalid c s (parDetail 0)
  else if 2 < c.par 1 1 then replyInvalid c s (parDetail 1)
  else if c.par 0 1 < 4 ∧ (s.pair.configured ∨ s.pair.phase ≠ .unpaired) then replySt c s .busy
  else replyOk c (setPortMode s (c.par 0 1) (c.par 1 1)) []

/-- A fabric port's lanes are reported (R474, R476, R518). -/
def reportPort (s : State) (n severity lanes : Nat) : State := report s 0x38 severity (fabricUid n) (leBytes 1 lanes)

/-- PORT_TRAINING_TIMEOUT (R472): the link partner did not answer the backplane offer. -/
def trainingTimesOut (n : Nat) (s : State) : State :=
  portMod s n (fun p => if p.state = 1 then { p with offeredBackplane := false } else p)

/-- FABRIC_PORT_UP (R472–R474): training ends. Ethernet mode needs all four lanes. -/
def portComesUp (n : Nat) (backplane : Bool) (lanes : Nat) (s : State) : State :=
  portMod s n (fun p =>
    if p.state ≠ 1 ∨ lanes = 0 ∨ backplane ≠ p.offeredBackplane ∨ (p.mode = 2 ∧ lanes ≠ 4) then p
    else drainPort { p with state := if lanes = 4 then 2 else 3, lanes := lanes, profile := if backplane then 1 else 2
                            retraining := false, failCount := 0, lastHeartbeatIn := s.now })

/-- Lanes on which a port retrains when one fails (R474). -/
def fewerLanes (n : Nat) : Nat := if 2 < n then 2 else if n = 2 then 1 else 0

/-- LANE_FAILURE (R474): a Hachate port goes on with fewer lanes, an Ethernet port goes down. -/
def laneFails (n : Nat) (s : State) : State :=
  let p := portGet s n
  if !portUp p then s
  else if p.mode = 1 then
    let k := fewerLanes p.lanes
    if k = 0 then reportPort (portMod s n (fun q => { q with state := 4, lanes := 0 })) n 3 0
    else reportPort (portMod s n (fun q => { q with state := 3, lanes := k })) n 2 k
  else reportPort (portMod s n (fun q => { q with state := 0, lanes := 0 })) n 2 0

/-- RETRAIN_TIMEOUT (R476): retraining has not succeeded within 50 ms. -/
def retrainTimesOut (n : Nat) (s : State) : State :=
  let p := portGet s n
  if p.state = 1 ∧ p.retraining then
    reportPort (portMod s n (fun q => { q with state := 4, lanes := 0, retraining := false })) n 3 0
  else s

/-! ### The Hachate link (R475–R477) -/

/-- Whether flit `a` is not after flit `b`, within half the number space. -/
def flitUpTo (a b : Nat) : Bool := decide ((b + flitMod - a) % flitMod < flitMod / 2)

/-- Sends the retry buffer again from a flit on (R476): each resend counts (R483); the eighth failure of one flit makes the
port retrain, keeping its retry buffer. -/
def resendFrom (n seq : Nat) (s : State) : State :=
  portMod s n (fun p =>
    if !portUp p ∨ p.mode ≠ 1 then p
    else
      let again := p.retry.filter (fun e => flitUpTo seq e.1)
      let fails := if p.failCount ≠ 0 ∧ p.failSeq = seq then p.failCount + 1 else 1
      if fails < 8 then
        { p with resends := min 65535 (p.resends + again.length), failSeq := seq, failCount := fails
                 sent := (again.map (·.2)).reverse ++ p.sent }
      else { p with state := 1, retraining := true, offeredBackplane := decide (p.profile = 1), failSeq := seq, failCount := 0 })

/-- What an intact flit acknowledges and returns (R475). -/
def takeAck (f : Bytes) (p : Port) : Port :=
  let ack := leAt f 4 3
  { p with
    acked := ack
    retry := p.retry.filter (fun e => !flitUpTo e.1 ack)
    credits := (List.range 4).map (fun v => min 256 (lgetD p.credits v 0 + leAt f (8 + v) 1)) }

/-- HACHATE_FLIT (R475, R476): a flit that fails its check or lies in an uncorrectable codeword, or that is ahead of its
turn, is asked for again; flits of kinds 1 and 3 carry the numbers (log entry 18). What it acknowledges and the credits it returns let queued data
go. -/
def flitArrives (n : Nat) (f : Bytes) (corrected : Nat) (uncorrectable : Bool) (s : State) : State :=
  portMod s n (fun p0 =>
    if !portUp p0 ∨ p0.mode ≠ 1 then p0
    else
      let p := { p0 with corrected := satAdd32 p0.corrected corrected
                         uncorrectable := if uncorrectable then satSucc 65535 p0.uncorrectable else p0.uncorrectable }
      if uncorrectable ∨ !flitOk f then { p with naks := p.rxNext :: p.naks }
      else
        let kind := leAt f 0 1 / 4
        let vc := leAt f 0 1 % 4
        if 4 < kind then p
        else
          let q := takeAck f p
          drainPort (
            if kind ≠ 1 ∧ kind ≠ 3 then q
            else if leAt f 1 3 = q.rxNext then
              let r := { q with rxNext := (q.rxNext + 1) % flitMod }
              if kind = 3 then { r with lastHeartbeatIn := s.now } else { r with freed := lmod r.freed vc (· + 1) }
            else if flitUpTo q.rxNext (leAt f 1 3) then { q with naks := q.rxNext :: q.naks }
            else q))

/-! ### Ethernet mode (R478–R482) -/

/-- MAC address of a port (R478). -/
def portMac (s : State) (n : Nat) : BitVec 48 := s.fuses.macBase + BitVec.ofNat 48 n

/-- Interface identifier of a port: its MAC address by modified EUI-64 (R478). -/
def portInterface (s : State) (n : Nat) : BitVec 64 :=
  let m := portMac s n ^^^ BitVec.ofNat 48 (2 ^ 41)
  m.extractLsb' 24 24 ++ BitVec.ofNat 16 0xFFFE ++ m.extractLsb' 0 24

/-- IPv6 link-local address of a port (R478). -/
def linkLocal (s : State) (n : Nat) : BitVec 128 := BitVec.ofNat 64 (0xFE80 * 2 ^ 48) ++ portInterface s n

/-- Global addresses of a port, one for each advertised network (R478). -/
def globalAddresses (s : State) (n : Nat) : List (BitVec 128) := (portGet s n).networks.map (fun p => p ++ portInterface s n)

/-- NEIGHBOUR_DISCOVERY_MESSAGE (R478). -/
def neighbourHeard (n : Nat) (network : Option (BitVec 64)) (neighbour : Option (BitVec 128 × BitVec 48)) (s : State) : State :=
  portMod s n (fun p =>
    if p.mode ≠ 2 ∨ !portUp p then p
    else
      { p with
        networks := (match network with
          | some a => if p.networks.contains a then p.networks else p.networks ++ [a]
          | none => p.networks)
        neighbours := (match neighbour with
          | some e => p.neighbours.filter (fun x => x.1 ≠ e.1) ++ [e]
          | none => p.neighbours) })

/-- A load whose source cannot be reached or refuses it ends with NOT_FOUND (R348, R481, R482); an object that a chip reset
refetches stays. -/
def fetchFails (s : State) (f : ObjKind × Nat × Nat × Nat) : State :=
  match (objGet s f.1 f.2.1).bind (fun o => o.gens.find? (fun g => g.number = f.2.2.1)) with
  | some g => if g.state = 1 then abandonGen s f.1 f.2.1 f.2.2.1 .notFound 0
      else forgetFetch s (fun e => decide (e = f))
  | none => forgetFetch s (fun e => decide (e = f))

/-- A peer refuses a block that is on its way to it over a port, or cannot be reached: it counts as full, and the block goes to the next destination of
R333; with none its request ends (R334, R481, R482). A block that no longer goes there is left alone. -/
def writeRefused (n h i : Nat) (s : State) : State :=
  match (sget s.requests h).bind (fun r => r.blocks[i]?) with
  | none => s
  | some b =>
    if b.location ≠ .leaving ∨ b.dest ≠ .peer ∨ b.port ≠ n then s
    else
      let s1 := { s with kv := { s.kv with peers := smod s.kv.peers n (fun p => { p with full := true }) } }
      match copyDestination s1 [b.bytes] with
      | some (d, port, places) => copyBlock h (reqMod s1 h (fun q => { q with
          blocks := lmod q.blocks i (fun x => { x with dest := d, port := port, destAt := lgetD places 0 0 }) })) i
      | none => endRequest s1 h .refusedCapacity

/-- A refusal names a read request or a write by its sequence (R481). -/
def refused (n seq : Nat) (source : BitVec 128) (s : State) : State :=
  match (portGet s n).asked.find? (fun a => a.sequence = seq ∧ a.destination = source) with
  | none => s
  | some a => match a.purpose with
    | .shard f => fetchFails s f
    | .block h i => writeRefused n h i s

/-- Flits of a datagram. -/
def datagramFlits (b : Bytes) : List Bytes := (List.range ((b.length - 16) / 256)).map (fun i => slice b (16 + 256 * i) 256)

/-- Whether a run of bytes has the form of a datagram (R479): version, zero reserved bytes, 0–8 intact flits. -/
def datagramForm (b : Bytes) : Bool :=
  let n := leAt b 2 2
  decide (leAt b 0 1 = 1) && decide (n ≤ 8) && decide (b.length = 16 + 256 * n) && decide (leAt b 12 4 = 0) && (datagramFlits b).all flitOk

/-- Whether a datagram other than a refusal is well formed (R479). -/
def datagramOk (b : Bytes) : Bool :=
  let k := leAt b 1 1
  datagramForm b && decide (1 ≤ k ∧ k ≤ 4) && (decide (k = 4) || decide (0 < leAt b 2 2))

/-- Whether a refusal is well formed (R479, R481): one flit. -/
def refusalOk (b : Bytes) : Bool := datagramForm b && decide (leAt b 1 1 = 5) && decide (leAt b 2 2 = 1)

/-- What a datagram acknowledges waits no longer (R479, R482). -/
def takeAcknowledged (n : Nat) (source : BitVec 128) (b : Bytes) (s : State) : State :=
  portMod s n (fun q => { q with unacked := q.unacked.filter (fun u => ¬(u.destination = source ∧ u.sequence ≤ leAt b 8 4)) })

/-- A numbered datagram (R479, R482): in its turn it is taken, acknowledged and acted on; a repeated one is acknowledged again. -/
def takeInTurn (n : Nat) (source : BitVec 128) (b : Bytes) (act : State → State) (s : State) : State :=
  let seq := leAt b 4 4
  let got := sgetD (portGet s n).dgRx source.toNat 0
  if seq = got + 1 then act (sendAck (portMod s n (fun q => { q with dgRx := sput q.dgRx source.toNat seq })) n source)
  else if seq ≤ got then sendAck s n source
  else s

/-- REFUSAL (R479–R481): of a shard read, or of a KV write. Without a transport header the descriptor opens the payload of a flit, which is taken in its
turn like any other; there the link partner is the one that answers. -/
def refusalArrives (n : Nat) (source : BitVec 128) (b : Bytes) (s : State) : State :=
  let p := portGet s n
  if !portUp p then s
  else if p.mode = 2 then
    if !refusalOk b then s else takeInTurn n source b (refused n (leAt b 28 4) source) (takeAcknowledged n source b s)
  else
    let s1 := flitArrives n b 0 false s
    if (portGet s1 n).rxNext = p.rxNext then s1 else refused n (leAt b 12 4) 0 s1

/-- DATAGRAM (R479–R482): what it acknowledges is acknowledged; one in its turn is taken and acknowledged, a repeated one
acknowledged again. The engine holds no capacity or object for others: it refuses a read request and a write (R481). -/
def datagramArrives (n : Nat) (source : BitVec 128) (b : Bytes) (s : State) : State :=
  let p := portGet s n
  if !portUp p ∨ p.mode ≠ 2 ∨ !datagramOk b then s
  else
    let k := leAt b 1 1
    let s1 := takeAcknowledged n source b s
    if k = 4 then s1
    else takeInTurn n source b (fun t => if k = 2 then t
      else sendDatagram t n source 5 [dataFlit (refusalDescriptor (leAt b 4 4) (if k = 1 then 2 else 1))] none) s1

/-- DATAGRAM_RESEND (R482): the oldest datagram not acknowledged for 200 µs goes again, at most eight times; then its
destination is unreachable: a shard fetch fails, a KV block goes elsewhere as after a refusal (log entry 51). -/
def datagramResends (n : Nat) (s : State) : State :=
  let p := portGet s n
  match p.unacked.find? (fun u => u.sentAt + 200000 ≤ s.now) with
  | none => s
  | some u =>
    if u.attempts < 8 then
      portMod s n (fun q => { q with
        sent := u.payload :: q.sent
        unacked := q.unacked.map (fun x => if x = u then { x with attempts := x.attempts + 1, sentAt := s.now } else x) })
    else
      let s1 := portMod s n (fun q => { q with unacked := q.unacked.filter (fun x => x ≠ u) })
      let s2 := report s1 0x39 2 (fabricUid n) (leBytes 16 u.destination.toNat)
      match u.fetch with
      | some f => fetchFails s2 f
      | none => match p.asked.find? (fun a => a.sequence = u.sequence ∧ a.destination = u.destination) with
        | some { purpose := .block h i, .. } => writeRefused n h i s2
        | _ => s2

/-! ### Weight servers, KV peers, status (R470, R483) -/

/-- A loaded shard uses a weight-server slot. -/
def slotUsed (s : State) (slot : Nat) : Bool :=
  s.objects.any (fun o => o.gens.any (fun g => g.shards.any (fun x => decide (x.source = 1 ∧ x.slot = slot))))

def bodyWeightServerRegister (c : Ctx) (s : State) : State :=
  if 63 < c.par 0 1 then replyInvalid c s (parDetail 0)
  else if 15 < c.par 1 1 then replyInvalid c s (parDetail 1)
  else if c.par 24 8 = 0 then replyInvalid c s (parDetail 24)
  else if slotUsed s (c.par 0 1) then replySt c s .busy
  else
    let w : WeightServer := { port := c.par 1 1, udp := BitVec.ofNat 16 (c.par 4 2), address := BitVec.ofNat 128 (c.par 8 16),
                              object := BitVec.ofNat 64 (c.par 24 8) }
    replyOk c { s with servers := sput s.servers (c.par 0 1) w } []

/-- Blocks lie at the peer of a port, or are on their way to or from it. -/
def peerUsed (s : State) (n : Nat) : Bool :=
  s.requests.any (fun e => e.2.blocks.any (fun b => decide (b.port = n) &&
    (decide (b.location = .peer) || (decide (b.dest = .peer) && decide (b.location = .leaving ∨ b.location = .returning)))))

def bodyKvPeerRegister (c : Ctx) (s : State) : State :=
  let n := c.par 0 1
  if 15 < n then replyInvalid c s (parDetail 0)
  else if 1 < c.par 1 1 then replyInvalid c s (parDetail 1)
  else if (portGet s n).mode = 1 ∧ c.par 8 16 ≠ 0 then replyInvalid c s (parDetail 8)
  else if (portGet s n).mode = 1 ∧ c.par 24 2 ≠ 0 then replyInvalid c s (parDetail 24)
  else if peerUsed s n then replySt c s .busy
  else if c.par 1 1 = 0 then replyOk c { s with kv := { s.kv with peers := sdel s.kv.peers n } } []
  else
    let k : KvPeer := { capacity := c.par 4 4, address := BitVec.ofNat 128 (c.par 8 16), udp := BitVec.ofNat 16 (c.par 24 2) }
    replyOk c { s with kv := { s.kv with peers := sput s.kv.peers n k } } []

def PairPhase.code : PairPhase → Nat
  | .unpaired => 0 | .establishing => 1 | .paired => 2 | .partitioned => 3 | .partnerLost => 4

/-- A port status record (R483). -/
def portRecord (s : State) (n : Nat) : Bytes :=
  let p := portGet s n
  wordBytes
    [ packW [(30, 2, p.mode), (27, 3, p.state), (24, 3, p.lanes), (22, 2, p.profile)], p.corrected.toNat,
      packW [(16, 16, p.resends), (0, 16, p.uncorrectable)], packW [(29, 3, s.pair.phase.code), (28, 1, s.pair.side)] ]

def bodyFabricStatusRead (c : Ctx) (s : State) : State := replyBuffer c s 0 ((List.range 16).flatMap (portRecord s))

/-! ### The rows -/

def execPortModeSet (p : Pkt) (s : State) : Out State := .next (packetRow 0x0801 p s id bodyPortModeSet)
def execWeightServerRegister (p : Pkt) (s : State) : Out State := .next (packetRow 0x0803 p s id bodyWeightServerRegister)
def execKvPeerRegister (p : Pkt) (s : State) : Out State := .next (packetRow 0x0804 p s id bodyKvPeerRegister)
def execFabricStatusRead (p : Pkt) (s : State) : Out State := .next (packetRow 0x0805 p s id bodyFabricStatusRead)
def execPortTrainingTimeout (port : PortId) (s : State) : Out State := .next (trainingTimesOut port.val s)
def execNegativeAcknowledgement (port : PortId) (sequence : BitVec 24) (s : State) : Out State :=
  .next (resendFrom port.val sequence.toNat s)
def execRetrainTimeout (port : PortId) (s : State) : Out State := .next (retrainTimesOut port.val s)
def execLaneFailure (port : PortId) (s : State) : Out State := .next (laneFails port.val s)
def execDatagram (port : PortId) (source : BitVec 128) (payload : Bytes) (s : State) : Out State :=
  .next (datagramArrives port.val source payload s)
def execRefusal (port : PortId) (source : BitVec 128) (payload : Bytes) (s : State) : Out State :=
  .next (refusalArrives port.val source payload s)
def execDatagramResend (port : PortId) (s : State) : Out State := .next (datagramResends port.val s)
def execNeighbourDiscoveryMessage (port : PortId) (network : Option (BitVec 64)) (neighbour : Option (BitVec 128 × BitVec 48))
    (s : State) : Out State := .next (neighbourHeard port.val network neighbour s)

end Sys2Proof.Machine
end

