-- ==== Sys2Proof/Machine/PairOps.lean ====
section
/-! DEFINITION. Two modules in a pair (R484–R498): forming and dissolving it, heartbeats, mirroring, loss and takeover. -/

namespace Sys2Proof.Machine
open Sys2Proof

/-! ### Forming the pair (R485, R487, R559) -/

/-- A pair port that carries traffic in Hachate link mode. -/
def pairPortUp (s : State) : Bool := (s.ports.take 4).any (fun p => decide (p.mode = 1) && portUp p)

/-- The pair is not formed: its packet is answered and the module is unpaired. -/
def pairRefused (s : State) (st : Status) : State :=
  let s1 := protectLanes { s with pair := { s.pair with phase := .unpaired, configured := false, building := false } }
  finishJobs s1 (fun j => match j.work with | .pair _ => some (st, 0, []) | _ => none)

/-- Steps 1 to 4 of R485, once a pair port is up: the partner's identity, its compatibility, the sides, the forced build.
A partner that has not begun its own configuration is waited for. -/
def tryPair (s : State) : State :=
  match s.pair.partner with
  | none => s
  | some i =>
    if s.pair.phase ≠ .establishing ∨ s.pair.building ∨ !pairPortUp s ∨ !isRunning s then s
    else if i.identity ≠ s.pair.partnerHash then pairRefused s .authFail
    else if i.compat ≠ BitVec.ofNat 16 (compatWord s.fuses / 65536)
        ∨ i.major ≠ BitVec.ofNat 16 (fwVersionWord s.boot / 65536)
        ∨ i.isD ≠ decide (s.fuses.variant.val = 2) then pairRefused s .invalid
    else if i.configured then
      forceBuild { s with pair := { s.pair with
        configured := true, building := true, side := if Config.identityKeyHash.toNat < i.identity.toNat then 0 else 1 } } .pair
    else s

/-- Whether a pairing is at work. -/
def pairJob (s : State) : Bool := s.jobs.any (fun j => match j.work with | .pair _ => true | _ => false)

/-- PAIR_CONFIGURE with pair (R470, R485). A pair that exists, or is being formed, blocks it. -/
def bodyPair (c : Ctx) (s : State) : State :=
  if s.pair.phase ≠ .unpaired ∨ pairJob s then replySt c s .busy
  else
    let h := BitVec.ofNat 256 (beNat (c.parBytes 4 32))
    let s1 := [0, 1, 2, 3].foldl (fun t n => setPortMode t n 1) s
    tryPair (startJob c { s1 with pair := { s1.pair with
      phase := .establishing, partnerHash := h, partner := c.partner, startedAt := hostTime s, building := false } } (.pair h))

/-- PAIR_CONFIGURE with unpair (R470): mirrored requests go, records wait for no partner, plans are built for one module. -/
def bodyUnpair (c : Ctx) (s : State) : State :=
  if s.pair.phase = .unpaired then replyOk c s []
  else
    let s1 := pairRefused s .busy
    let s2 := { s1 with requests := s1.requests.filter (fun e => !e.2.mirrored)
                        pair := { s1.pair with partner := none, unacked := [], partnerDormant := false } }
    replyOk c (forceBuild ((s2.requests.map (·.1)).foldl flushAwaiting s2) .pair) []

/-- PAIR_CONFIGURE_TIMEOUT (R485): 60 s of host time without the partner's own configuration. -/
def pairTimesOut (s : State) : State :=
  if s.pair.phase = .establishing ∧ pairJob s ∧ s.pair.startedAt + 60000000000 ≤ hostTime s
      ∧ !(((s.pair.partner).map (·.configured)).getD false) then pairRefused s .busy
  else s

/-- FABRIC_PORT_UP (R472): a pair port may bring the pair on. -/
def pairPortRises (n : Nat) (backplane : Bool) (lanes : Nat) (s : State) : State :=
  tryPair (portComesUp n backplane lanes s)

/-! ### Loss and takeover (R494–R496) -/

/-- Buckets of an account at takeover: full rate and burst from here on, the level the sum of both sides' (R496). -/
def sumLevels (a : Account) : Account :=
  { a with buckets := a.buckets.map (fun b => { b with level := b.level + b.mirrored, mirrored := 0 }) }

/-- Where records of a taken-over request go (R496): the ring of the same number, or the physical function's bootstrap ring. -/
def takeoverRing (s : State) (r : Request) : Request :=
  if shas s.rings r.ring then { r with fn := ownerOfRing s r.ring } else { r with ring := bootRing 0, fn := 0 }

/-- One mirrored request is taken over (R496). -/
def takeOne (s : State) (h : Nat) : State :=
  match sget s.requests h with
  | none => s
  | some r =>
    if !r.mirrored then s
    else
      let ok := ((sget s.lanes r.graph).map (·.protected_)).getD false
      let q := { takeoverRing s r with mirrored := false, resumed := true, ran := true, session := 0xFFFF, queue := noRing }
      let s1 := { s with requests := sput s.requests h q }
      if !ok then endRequest s1 h .refusedCapacity
      else match r.state with
        | .deferred => laneMod s1 r.graph (fun l => { l with deferral := l.deferral ++ [h] })
        | .preempted => s1
        | _ => reqMod s1 h (fun x => { x with takenOver := true })

/-- The partner is lost: its mirrored requests are taken over in its order (R494, R496); records wait for it no longer. -/
def takeOver (s : State) : State :=
  let mine := (s.requests.filter (fun e => e.2.mirrored)).mergeSort (fun a b => decide (a.2.order ≤ b.2.order))
  let s1 := (s.accounts.map (·.1)).foldl updateAccount s
  let s2 := { s1 with accounts := smapAll s1.accounts (fun _ a => sumLevels a)
                      pair := { s1.pair with phase := .partnerLost, unacked := [] } }
  let s3 := (mine.map (·.1)).foldl takeOne s2
  reportPair (protectLanes ((s3.requests.map (·.1)).foldl flushAwaiting s3)) 3 4

/-- The pair is partitioned: each module serves its own requests unmirrored (R495). -/
def partition (s : State) : State :=
  let s1 := { s with pair := { s.pair with phase := .partitioned, unacked := [] } }
  reportPair (protectLanes ((s1.requests.map (·.1)).foldl flushAwaiting s1)) 2 3

/-- No heartbeat has arrived on any pair port for 1 ms (R494). -/
def heartbeatsSilent (s : State) : Bool := (s.ports.take 4).all (fun p => decide (p.lastHeartbeatIn + 1000000 ≤ s.now))

/-- HEARTBEAT_SILENT (R494, R495). -/
def silenceFound (s : State) : State :=
  if s.pair.phase = .paired ∧ heartbeatsSilent s then (if s.pair.okIn then partition s else takeOver s) else s

/-- PAIR_OK_IN (R495). -/
def okInChanges (asserted : Bool) (s : State) : State :=
  let s1 := { s with pair := { s.pair with okIn := asserted } }
  if asserted ∨ !s.pair.okIn then s1
  else match s.pair.phase with
    | .paired => if heartbeatsSilent s then takeOver s1 else reportPair s1 2 2
    | .partitioned => takeOver s1
    | _ => s1

/-- What a heartbeat changes (R485, R495): a partition ends, a lost partner that has come back is paired with again. -/
def heartbeatHeard (s : State) : State :=
  if !s.pair.okIn then s
  else match s.pair.phase with
    | .partitioned => settlePair { s with pair := { s.pair with phase := .paired } } false
    | .partnerLost => tryPair { s with pair := { s.pair with phase := .establishing } }
    | _ => s

/-- HACHATE_FLIT: a heartbeat in its turn on a pair port also counts for the pair. -/
def flitTaken (n : Nat) (f : Bytes) (corrected : Nat) (uncorrectable : Bool) (s : State) : State :=
  let s1 := flitArrives n f corrected uncorrectable s
  if n < 4 ∧ leAt f 0 1 / 4 = 3 ∧ (portGet s1 n).rxNext ≠ (portGet s n).rxNext then heartbeatHeard s1 else s1

/-- HEARTBEAT (R493): a heartbeat flit on VC1 of a pair port that is up. -/
def heartbeatGoes (n : Nat) (s : State) : State :=
  if s.pair.configured ∧ (portGet s n).mode = 1 ∧ portUp (portGet s n) then
    portMod (sendFlit s n 3 1 []) n (fun p => { p with heartbeatsOut := p.heartbeatsOut + 1 })
  else s

/-! ### Mirroring (R490–R492) -/

/-- A block of the mirror half (R487). -/
def mirrorBlock (s : State) (bytes : Nat) (isOpen : Bool) : Block :=
  { address := (placeBlock s bytes).getD 0, bytes := bytes, open_ := isOpen }

/-- Gives a mirrored request the blocks that `n` positions take. -/
def mirrorRoom (g h n : Nat) (s : State) : State :=
  match sget s.requests h with
  | none => s
  | some r =>
    if !cachedGraph s g then s
    else
      let s1 := if r.blocks.any (·.open_) then s
        else reqMod s h (fun q => { q with blocks := q.blocks ++ [mirrorBlock s (openBytes s g) true] })
      let fill := ((r.blocks.find? (·.open_)).map (·.fill)).getD 0
      (List.range ((fill + n) / 32)).foldl (fun t _ =>
        reqMod t h (fun q => { q with reserved := q.reserved ++ [mirrorBlock t (sealedBytes t g) false] })) s1

/-- A step of a mirrored request (R490): its keys and values are stored and sealed here, its output and charge counted. The result of a chain's
stage that has another after it awaits the hand-off (R390); a request that steps is no longer pre-empted. -/
def mirrorStep (h count : Nat) (token : Option (BitVec 32)) (result : Bytes) (kv : List NewKv) (carried : List (Nat × List F32)) (charge : Nat)
    (s : State) : State :=
  match sget s.requests h with
  | none => s
  | some r =>
    if !r.mirrored then s
    else
      let s1 := appendKv (mirrorRoom r.graph h count s) h r.graph count kv
      let took := min count (r.prompt - r.prefilled)
      let out := token.isSome || !result.isEmpty
      let more := match r.chain with | some c => decide (c.stage + 1 < c.stages.length) | none => false
      let s2 := reqMod s1 h (fun q => { q with
        ran := true, carried := carried, reserved := [], prefilled := q.prefilled + took
        outputs := if out then q.outputs + 1 else q.outputs
        handoff := more && !result.isEmpty, result := result
        state := if q.cls = 2 ∧ q.prefilled + took < q.prompt then .prefill else .running })
      { s2 with accounts := smod s2.accounts r.account (fun a => { a with buckets := lmod a.buckets r.cls (fun b =>
          { b with mirrored := b.mirrored - Int.ofNat (charge * 1024) }) }) }

/-- A request admitted or deferred at the partner (R490): kept as the packet asked for it; one already known has been
admitted from the deferral queue. -/
def mirrorOpened (h : Nat) (p : Pkt) (deferred : Bool) (s : State) : State :=
  match sget s.requests h with
  | some r => if r.mirrored ∧ !deferred then
      reqMod s h (fun q => { q with state := if q.cls = 2 then .prefill else .running }) else s
  | none =>
    let c : Ctx := { origin := { fn := 0, queue := p.queue.val, ring := 0, opcode := 0x0301, tag := hdrTag p.chain }
                     session := 0xFFFF, chain := p.chain, data := p.data }
    let g := c.par 0 1
    let adapter := if c.par 4 2 = 0xFFFF then none else adapterFor s g (c.par 4 2)
    let r := requestOf s c adapter
    let q := { r with
      mirrored := true, queue := noRing, order := s.nextOrder, charge := admissionCharge r.cls r.input
      prompt := if r.cls = 2 then r.input.length / 4 else 0
      state := if deferred then .deferred else if r.cls = 2 then .prefill else .running }
    { s with requests := sput s.requests h q, nextOrder := s.nextOrder + 1 }

/-- The next stage of a chain admitted or deferred at the partner (R390, R490): formed here from the mirrored stage before it; one that cannot be
formed here is not kept. -/
def mirrorChained (before h : Nat) (deferred : Bool) (s : State) : State :=
  match sget s.requests before with
  | none => s
  | some r => match r.mirrored, r.chain with
    | true, some ch => match nextStage s r ch with
      | .error _ => s
      | .ok q =>
        let q1 : Request := { q with
          order := s.nextOrder, charge := admissionCharge q.cls q.input, prompt := if q.cls = 2 then q.input.length / 4 else 0
          state := if deferred then .deferred else if q.cls = 2 then .prefill else .running }
        { s with requests := sput (sdel s.requests before) h q1, nextOrder := s.nextOrder + 1 }
    | _, _ => s

/-- MIRROR (R490): while the pair is in force. -/
def mirrorTaken (m : MirrorMsg) (s : State) : State :=
  if s.pair.phase ≠ .paired then s
  else match m with
    | .step h n t r kv carried charge => mirrorStep h.toNat n t r kv carried charge s
    | .opened h p d => mirrorOpened h.toNat p d s
    | .chained b h d => mirrorChained b.toNat h.toNat d s
    | .preempted h => match sget s.requests h.toNat with
      | some r => if r.mirrored then reqMod s h.toNat (fun q => { q with state := .preempted, preemptedAt := hostTime s }) else s
      | none => s
    | .ended h => match sget s.requests h.toNat with
      | some r => if r.mirrored then { s with requests := sdel s.requests h.toNat } else s
      | none => s
    | .level a cls l => { s with accounts := smod s.accounts a.val (fun x => { x with buckets := lmod x.buckets cls.val (fun b =>
        { b with mirrored := l }) }) }
    | .lanes ds => settlePair { s with pair := { s.pair with partner := s.pair.partner.map (fun p => { p with lanes := ds }) } } false
    | .dormant now =>
      let s1 := protectLanes { s with pair := { s.pair with partnerDormant := now } }
      if now then (s1.requests.map (·.1)).foldl flushAwaiting { s1 with pair := { s1.pair with unacked := [] } } else s1

/-- MIRROR_ACKNOWLEDGEMENT (R491): the partner holds a lane's last step, whose records are written now. -/
def mirrorAcknowledged (g : Nat) (s : State) : State :=
  if s.pair.unacked.contains g then
    let s1 := { s with pair := { s.pair with unacked := s.pair.unacked.filter (fun x => x ≠ g) } }
    ((s1.requests.filter (fun e => e.2.graph = g)).map (·.1)).foldl flushAwaiting s1
  else s

/-! ### The rows -/

/-- The row's packet carries 1 in its first parameter; `partner` is what the partner reports. -/
def execPairConfigurePair (p : Pkt) (partner : PartnerInfo) (s : State) : Out State :=
  .next (packetRow 0x0802 (stampPkt 0 1 p) s (fun c => { c with partner := some partner }) bodyPair)

/-- The row's packet carries 0 in its first parameter. -/
def execPairConfigureUnpair (p : Pkt) (s : State) : Out State := .next (packetRow 0x0802 (stampPkt 0 0 p) s id bodyUnpair)
def execFabricPortUp (port : PortId) (backplane : Bool) (lanes : Fin 5) (s : State) : Out State :=
  .next (pairPortRises port.val backplane lanes.val s)
def execHachateFlit (port : PortId) (flit : Bytes) (corrected : Nat) (uncorrectable : Bool) (s : State) : Out State :=
  .next (flitTaken port.val flit corrected uncorrectable s)
def execHeartbeat (port : Fin 4) (s : State) : Out State := .next (heartbeatGoes port.val s)
def execHeartbeatSilent (s : State) : Out State := .next (silenceFound s)
def execPairOkIn (asserted : Bool) (s : State) : Out State := .next (okInChanges asserted s)
def execMirror (m : MirrorMsg) (s : State) : Out State := .next (mirrorTaken m s)
def execMirrorAcknowledgement (lane : LaneId) (s : State) : Out State := .next (mirrorAcknowledged lane.val s)
def execPairConfigureTimeout (s : State) : Out State := .next (pairTimesOut s)

end Sys2Proof.Machine
end

