-- ==== Sys2Proof/Machine/Firmware.lean ====
section
/-! DEFINITION. Firmware bundles and Lodge images (R538–R547), the power-up sequence (R588), what the boot ROM and the
watchdogs do (R424, R439, R440, R535, R544), and the end of a chip reset (R512–R514). -/

namespace Sys2Proof.Machine
open Sys2Proof

/-! ### Verification (R538, R539, R545) -/

/-- The fused security version: consecutive set bits from the lowest up (R536). -/
def fusedVersion (f : Fuses) : Nat := ((List.range 64).find? (fun i => !f.securityVersion.getLsbD i)).getD 64

/-- An entry of the image table: kind, offset, length. -/
def imageEntry (b : Bytes) (i : Nat) : Nat × Nat × Nat :=
  (leAt b (128 + 48 * i) 1, leAt b (132 + 48 * i) 4, leAt b (136 + 48 * i) 4)

/-- Whether byte `k` lies in no image. -/
def isPadding (images : List (Nat × Nat × Nat)) (k : Nat) : Bool := images.all (fun e => decide (k < e.2.1 ∨ e.2.1 + e.2.2 ≤ k))

/-- Whether two images overlap. -/
def imagesOverlap (a b : Nat × Nat × Nat) : Bool := decide (a.2.1 < b.2.1 + b.2.2 ∧ b.2.1 < a.2.1 + a.2.2)

/-- First non-zero byte of a range that must be zero. -/
def zeroCheck (b : Bytes) (off len : Nat) : List (Bool × Nat) :=
  match firstNonZero b off len with | some i => [(true, i)] | none => []

/-- Checks of one entry of the image table: kinds missing or repeated, place and size (R538, R539). -/
def entryChecks (b : Bytes) (kinds : List Nat) (i : Nat) : List (Bool × Nat) :=
  let e := imageEntry b i
  let before := (List.range i).map (imageEntry b)
  let o := 128 + 48 * i
  [ (!kinds.contains e.1 || before.any (fun x => x.1 = e.1), o) ]
  ++ zeroCheck b (o + 1) 3
  ++ [ (decide (e.2.1 % 64 ≠ 0 ∨ e.2.1 < 320) || before.any (imagesOverlap e), o + 4),
       (decide (b.length < e.2.1 + e.2.2 + 192), o + 8) ]
  ++ zeroCheck b (o + 12) 4

/-- Checks of the layout of R538, with the kinds the table must name. -/
def layoutChecks (b : Bytes) (kinds : List Nat) : List (Bool × Nat) :=
  let n := kinds.length
  [ (decide (leAt b 0 2 ≠ 1), 0), (decide (leAt b 2 2 ≠ n), 2),
    (decide (leAt b 4 4 ≠ b.length) || !bundleLengthOk b.length, 4), (decide (leAt b 8 2 = 0), 8),
    (decide (64 < leAt b 12 1), 12), (decide (1 < leAt b 13 1), 13), (decide (leAt b 14 2 ≠ 0), 14) ]
  ++ zeroCheck b 80 48
  ++ (List.range n).flatMap (entryChecks b kinds)
  ++ zeroCheck b (128 + 48 * n) (192 - 48 * n)

/-- First padding byte that is not zero. -/
def paddingFault (b : Bytes) (kinds : List Nat) : Option Nat :=
  let images := (List.range kinds.length).map (imageEntry b)
  ((numbered b).find? (fun e => decide (e.2 ≠ 0) && decide (320 ≤ e.1 ∧ e.1 + 192 < b.length) && isPadding images e.1)).map (·.1)

/-- Whether the key at an offset verifies the signature at another over the bytes before `len`. -/
def signedBy (b : Bytes) (key sig len : Nat) : Bool :=
  ecdsaVerify (beAt b key 32) (beAt b (key + 32) 32) (sha256 (b.take len)) (beAt b sig 32) (beAt b (sig + 32) 32)

/-- What verification answers: none accepts; else the status of MBX_CTL and the offset of the first offending field. -/
def judgeBundle (f : Fuses) (kinds : List Nat) (b : Bytes) : Option (Nat × Nat) :=
  let l := b.length
  match firstBad (layoutChecks b kinds) with
  | some o => some (6, o)
  | none =>
    match paddingFault b kinds with
    | some o => some (6, o)
    | none =>
      if sha256 (slice b 16 64) ≠ f.vendorKeyHash ∨ !signedBy b 16 (l - 192) (l - 192) then some (4, 16)
      else if f.ownerKeyHash ≠ 0 ∧ (sha256 (slice b (l - 128) 64) ≠ f.ownerKeyHash ∨ !signedBy b (l - 128) (l - 64) (l - 64)) then
        some (4, l - 128)
      else if leAt b 12 1 < fusedVersion f then some (5, 12)
      else ((List.range kinds.length).find? (fun i =>
          let e := imageEntry b i
          decide (digestBytes (sha256 (slice b e.2.1 e.2.2)) ≠ slice b (144 + 48 * i) 32))).map (fun i => (6, 144 + 48 * i))

/-- The four images of a firmware bundle; the one of a Lodge image (R538, R545). -/
def bundleKinds : List Nat := [1, 2, 3, 4]
def lodgeKinds : List Nat := [5]

/-! ### Arriving at running (R540, R541) -/

/-- Thermometer code of a security version. -/
def versionBits (v : Nat) : BitVec 64 := BitVec.ofNat 64 (2 ^ v - 1)

/-- A committed bundle burns security-version bits up to its version (R541). -/
def burnVersion (s : State) (b : Bytes) : State :=
  if leAt b 13 1 % 2 = 1 then
    { s with fuses := { s.fuses with securityVersion := s.fuses.securityVersion ||| versionBits (leAt b 12 1) } }
  else s

/-- BOOT_STATE reaches running with a bundle: FATAL bit 31 clears (R423), copies stand in the preserved region (R540), the
engine is Idle (R588 event I), and what the host wrote before is acted on (R417). -/
def reachRunning (s : State) (b : Bytes) : State :=
  let s1 := burnVersion { s with
    boot := { s.boot with
      state := .running, fatal := false, accepted := none, running := some b, copies := [b, b], dmaStopped := false,
      kioskHung := false, watchdogAt := none }
    power := { s.power with state := .idle } } b
  refreshPairOk (actOnRegisters s1)

/-! ### FIRMWARE_LOAD and CHIP_RESET (R469, R543) -/

/-- FIRMWARE_LOAD (R543): verified and staged; with reset when staged the chip reset follows the reply. -/
def bodyFirmwareLoad (c : Ctx) (s : State) : State :=
  let len := c.par 8 4
  if !bundleLengthOk len then replyInvalid c s (parDetail 8)
  else if !c.data.readable then replySt c s .notFound
  else
    let b := padTo len c.data.first
    match judgeBundle s.fuses bundleKinds b with
    | some (n, o) =>
      if n = 6 then replyInvalid c s (imageDetail o) else reply c s .authFail (if n = 4 then 2 else 3) []
    | none =>
      let s1 := replyOk c { s with boot := { s.boot with staged := [b, b] } } []
      if c.par 12 1 % 2 = 1 then chipReset (flushCounts s1) 4 0 else s1

/-- CHIP_RESET (R469): the reply is written, then the chip reset starts. -/
def bodyChipReset (c : Ctx) (s : State) : State := chipReset (flushCounts (replyOk c s [])) 4 0

/-! ### The power-up sequence (R588, R545) -/

/-- LODGE_IMAGE_VERIFIED (R545, R547, R588 event B): the Lodge runs its image, or the ROM waits for a recovery image with
the main rails off. -/
def lodgeVerified (s : State) : State :=
  if s.boot.sequence ≠ .lodgeRom then s
  else match judgeBundle s.fuses lodgeKinds s.lodge.flashImage with
    | none =>
      { s with lodge := { s.lodge with alive := true, runningImage := some s.lodge.flashImage }
               boot := { s.boot with sequence := .waitRails } }
    | some _ =>
      { s with boot := { s.boot with sequence := .recovery }, power := { s.power with railsOn := false, state := .standby } }

/-- RECOVERY_IMAGE (R547): an image that passes is written, and the Lodge restarts. -/
def recoveryArrives (image : Bytes) (s : State) : State :=
  let waits := decide (s.boot.sequence = .recovery) ||
    (!s.lodge.alive && decide (s.power.state ≠ .off) && decide (s.boot.sequence ≠ .lodgeRom))
  if waits ∧ (judgeBundle s.fuses lodgeKinds image).isNone then
    let s1 := defaultForModule (flushCounts s)
    { s1 with lodge := { lodgeRestart s1.lodge with flashImage := image }, boot := { s1.boot with sequence := .lodgeRom } }
  else s

/-- Event C of R588: main input within 44–60 V, MOD_RESET_L high, T below shutdown re-arm, no hold of R583. -/
def railsMayRise (s : State) : Bool :=
  decide (s.boot.sequence = .waitRails) && s.lodge.alive && decide (s.power.offReason = 0) && !s.thermal.holdOff
    && decide (44000 ≤ s.power.mainMillivolts ∧ s.power.mainMillivolts ≤ 60000) && s.power.modResetL
    && decide (moduleTemp s.thermal < s.thermal.rearm)

/-- MAIN_RAILS_POWER_UP (R588 events C and D): rails up; Standby is left (R584); a comparator trip is reported (R577). -/
def railsPowerUp (s : State) : State :=
  if railsMayRise s then
    let s1 := { s with boot := { s.boot with sequence := .railsUp }
                       power := { s.power with railsOn := true, state := .idle } }
    let s2 := if s.power.state = .standby then reportPower s1 .standby .idle else s1
    match s2.thermal.tripLatch with
    | some ch => report { s2 with thermal := { s2.thermal with tripLatch := none } } 0x44 5 (sensorUid ch) (leBytes 1 ch)
    | none => s2
  else s

/-- GATEHOUSE_RELEASED (R588 event E, R597): the boot ROM waits for a bundle; FATAL cause 1. -/
def gatehouseReleases (s : State) : State :=
  if s.boot.sequence = .railsUp ∧ s.power.refClock then
    enterFatal { s with boot := { s.boot with sequence := .released, state := .waiting } } 1 0
  else s

/-! ### Delivery (R439, R440, R542) -/

/-- The boot ROM judges a delivered bundle (R539, R440). -/
def judgeDelivery (s : State) (b : Bytes) : State :=
  match judgeBundle s.fuses bundleKinds b with
  | none => { s with boot := { s.boot with state := .starting, mbxStatus := 3, accepted := some b } }
  | some (n, _) => enterFatal { s with boot := { s.boot with state := .waiting, mbxStatus := n } } 6 0

/-- BUNDLE_FETCH_END (R439, R440): the mailbox fetch ends, in an error or with the bundle. -/
def fetchEnds (bundle : Option Bytes) (s : State) : State :=
  if s.boot.state ≠ .fetching then s
  else match bundle with
    | none => enterFatal { s with boot := { s.boot with state := .waiting, mbxStatus := 7 } } 1 0
    | some b =>
      if s.link.up then judgeDelivery s (padTo s.boot.mbxLen.toNat b)
      else enterFatal { s with boot := { s.boot with state := .waiting, mbxStatus := 7 } } 1 0

/-- PLDM_FIRMWARE_UPDATE (R542): a delivery by the Lodge, inside an SPDM session with it, while the boot ROM waits. -/
def lodgeDelivers (spdm : Option Nat) (bundle : Bytes) (s : State) : State :=
  let inside : Bool := match spdm with | some id => (lodgeSession s id).isSome | none => false
  let there := decide (s.boot.sequence = .released ∨ s.boot.sequence = .up)
  if s.lodge.alive ∧ inside ∧ there ∧ s.boot.state = .waiting then
    judgeDelivery { s with boot := { s.boot with source := 2 } } bundle
  else s

/-- LODGE_IMAGE_UPDATE (R546): the image region is erased, then written; an interrupted write leaves no image that passes. -/
def lodgeImageWritten (spdm : Option Nat) (image : Bytes) (interrupted : Bool) (s : State) : State :=
  let inside : Bool := match spdm with | some id => (lodgeSession s id).isSome | none => false
  if s.lodge.alive ∧ inside then { s with lodge := { s.lodge with flashImage := if interrupted then [] else image } } else s

/-- BOOT_RUNNING (R440, R540): the accepted bundle's images are loaded. -/
def bootRuns (s : State) : State :=
  match s.boot.accepted with
  | some b => if s.boot.state = .starting then reachRunning s b else s
  | none => s

/-! ### Watchdogs and silence (R424, R511, R535) -/

/-- KIOSK_WATCHDOG (R424): 100 ms without the firmware's signal. -/
def kioskDogs (s : State) : State :=
  if isRunning s ∧ !s.boot.fatal then
    let s1 := enterFatal { s with boot := { s.boot with kioskHung := true } } 3 kioskUid
    { s1 with boot := { s1.boot with watchdogAt := some s.now } }
  else s

/-- WATCHDOG_CHIP_RESET (R511, R515): 1 s after FATAL cause 3 the Lodge starts a containment chip reset, or halts the
engine if three have begun within the hour. -/
def watchdogResets (s : State) : State :=
  match s.boot.watchdogAt with
  | none => s
  | some t =>
    if s.lodge.alive ∧ s.boot.state = .running ∧ t + 1000000000 ≤ s.now then
      if 3 ≤ (recentContainments s).length then
        let s1 := stopSteps { s with boot := { s.boot with state := .halted, watchdogAt := none } }
        report (enterFatal s1 4 kioskUid) 0x63 5 kioskUid (leBytes 1 4)
      else containmentReset s 0
    else s

/-- GATEHOUSE_SILENT (R535): every path out goes through the Gatehouse; the Lodge sets FATAL cause 7. -/
def gatehouseFalls (s : State) : State :=
  if s.lodge.alive ∧ s.power.railsOn ∧ !s.boot.gatehouseSilent then
    let s1 := stopSteps { s with
      boot := { s.boot with gatehouseSilent := true, kioskHung := true }
      link := { s.link with up := false, rate := 0, width := 0 } }
    let s2 := fatalBits s1 7 kioskUid
    lodgeTake { s2 with pair := { s2.pair with okOut := false } } (makeRecord s2 0x63 5 kioskUid (leBytes 1 7) 0 none 1)
  else s

/-- LODGE_SILENT (R535): the Gatehouse stops firing, sets FATAL cause 7 and reports to the event queues alone. -/
def lodgeFalls (s : State) : State :=
  if s.lodge.alive ∧ (s.boot.sequence = .released ∨ s.boot.sequence = .up) ∧ !s.boot.gatehouseSilent then
    let s1 := stopSteps { s with lodge := { s.lodge with alive := false }, boot := { s.boot with kioskHung := true } }
    report (enterFatal s1 7 lodgeUid) 0x63 5 lodgeUid (leBytes 1 7)
  else s

/-! ### The end of a chip reset (R365, R366, R512–R514, R544) -/

/-- What a chip reset leaves of a loaded object (R365): a generation still Loading is abandoned; of two that serve the
newer returns. -/
def survivingGens (o : LoadedObject) : List Generation :=
  let kept := o.gens.filter (fun g => g.state ≠ 1)
  if o.kind = .adapter then kept else (kept.getLast?).toList

/-- Arrays of a generation that did not return are free. -/
def settleObject (s : State) (o : LoadedObject) : State :=
  let kept := survivingGens o
  let gone := o.gens.filter (fun g => !kept.any (fun k => k.number = g.number))
  let s1 := gone.foldl (fun t g =>
    let u := freeArrays t o.kind o.handle g.number
    if g.state = 1 ∧ !kept.isEmpty then report u 0x21 2 kioskUid (leBytes 2 o.handle ++ leBytes 2 g.number) else u) s
  if kept.isEmpty then freeObject s1 o.kind o.handle
  else objMod s1 o.kind o.handle (fun x => { x with gens := kept, refs := x.refs })

/-- Whether the installed plan places something on an array that must be programmed again (R68). -/
def planNeedsArrays (s : State) : Bool :=
  (lanesArrays (planLanes s)).any (fun a => (arrGet s a).levels.isEmpty)

/-- The kind 0x60 record (R514): the cause, requests ended, recovery time. -/
def reportRecovery (s : State) : State :=
  report s 0x60 4 kioskUid
    (leBytes 1 s.boot.resetCause ++ [0, 0, 0] ++ leBytes 4 s.boot.resetEnded ++ leBytes 4 ((s.now - s.boot.resetAt) / 1000000))

/-- The copies of an item in the preserved region as a chip reset finds them (R356). -/
def foundCopies (found : ResetFindings) (item : PreservedItem) (copies : List Bytes) : List Bytes :=
  (numbered copies).map (fun e => ((found.damage.find? (fun d => decide (d.1 = item ∧ d.2.1.val = e.1))).map (·.2.2)).getD e.2)

/-- The manifest of a generation after a chip reset (R356): the first copy that passes its digest stands in both places again; else what host memory
gives, if that passes. With none its shards cannot be found, and the generation is not fetched (log entry 122). -/
def recoverManifest (found : ResetFindings) (o : LoadedObject) (g : Generation) : Generation :=
  let mine := fun (h : Fin 16384) (k : ObjKind) (n : Nat) => decide (k = o.kind ∧ h.val = o.handle ∧ n = g.number)
  let copies := foundCopies found (.manifest o.kind (Fin.ofNat 16384 o.handle) g.number) g.copies
  let fromHost := (found.manifests.filter (fun e => mine e.2.1 e.1 e.2.2.1)).map (·.2.2.2)
  { g with copies := match (copies ++ fromHost).find? (fun b => decide (sha256 b = g.digest)) with
      | some b => [b, b]
      | none => [] }

/-- What the engine does once it runs again after a chip reset (R365, R366, R512): objects and graphs as they return, a
forced build where the plan cannot stand. -/
def afterChipReset (s : State) (found : ResetFindings) : State :=
  let s0 : State := s.objects.foldl settleObject s
  let s1 : State := { s0 with objects := s0.objects.map (fun (o : LoadedObject) => { o with gens := o.gens.map (recoverManifest found o) }) }
  let s2 := { s1 with
    graphs := s1.graphs.filter (fun e => shas s1.lanes e.1)
    lanes := smapAll s1.lanes (fun g l => { l with generation := laneGenerations s1 g }) }
  let s4 : State := s2.objects.foldl (fun t o =>
    (o.gens.filter (fun g => !g.copies.isEmpty)).foldl (fun u g => requestShards u o.kind o.handle g) t) s2
  let s3 : State := if found.planDigestOk ∨ s4.planner.plan.isNone then s4 else forceBuild s4 .planDigest
  if planNeedsArrays s3 then forceBuild s3 .arrays else s3

/-- The bundle a chip reset runs (R544): the staged one if it passes, else the first copy that does. -/
def bundleToRun (found : ResetFindings) (s : State) : Option Bytes :=
  (foundCopies found .staged s.boot.staged ++ foundCopies found .bundle s.boot.copies).find? (fun b => (judgeBundle s.fuses bundleKinds b).isNone)

/-- Status of MBX_CTL after the staged bundle was judged (R544). -/
def stagedStatus (found : ResetFindings) (s : State) : Nat :=
  let copies := foundCopies found .staged s.boot.staged
  if copies.any (fun b => (judgeBundle s.fuses bundleKinds b).isNone) then s.boot.mbxStatus
  else ((copies.head?.bind (judgeBundle s.fuses bundleKinds)).map (·.1)).getD s.boot.mbxStatus

/-- CHIP_RESET_COMPLETE (R512–R514, R506, R544). -/
def chipResetEnds (found : ResetFindings) (s : State) : State :=
  if s.boot.state ≠ .chipReset then s
  else if s.boot.endsHalted then
    report (enterFatal { s with boot := { s.boot with state := .halted } } 2 (gatehouseSramUid 0)) 0x63 5 (gatehouseSramUid 0) (leBytes 1 2)
  else
    let s1 := { s with boot := { s.boot with staged := [], mbxStatus := stagedStatus found s } }
    match bundleToRun found s with
    | none =>
      enterFatal { s1 with boot := { s1.boot with state := .waiting, running := none, copies := [] } } 1 0
    | some b => tryPair (reportRecovery (afterChipReset (reachRunning s1 b) found))

/-! ### The rows -/

def execChipReset (p : Pkt) (s : State) : Out State := .next (packetRow 0x0701 p s id bodyChipReset)
def execFirmwareLoad (p : Pkt) (s : State) : Out State := .next (packetRow 0x0702 p s id bodyFirmwareLoad)
def execLodgeImageVerified (s : State) : Out State := .next (lodgeVerified s)
def execRecoveryImage (image : Bytes) (s : State) : Out State := .next (recoveryArrives image s)
def execMainRailsPowerUp (s : State) : Out State := .next (railsPowerUp s)
def execGatehouseReleased (s : State) : Out State := .next (gatehouseReleases s)
def execBundleFetchEnd (bundle : Option Bytes) (s : State) : Out State := .next (fetchEnds bundle s)
def execPldmFirmwareUpdate (spdm : Option Nat) (bundle : Bytes) (s : State) : Out State := .next (lodgeDelivers spdm bundle s)
def execLodgeImageUpdate (spdm : Option Nat) (image : Bytes) (interrupted : Bool) (s : State) : Out State :=
  .next (lodgeImageWritten spdm image interrupted s)
def execBootRunning (s : State) : Out State := .next (bootRuns s)
def execKioskWatchdog (s : State) : Out State := .next (kioskDogs s)
def execWatchdogChipReset (s : State) : Out State := .next (watchdogResets s)
def execGatehouseSilent (s : State) : Out State := .next (gatehouseFalls s)
def execLodgeSilent (s : State) : Out State := .next (lodgeFalls s)
def execChipResetComplete (found : ResetFindings) (s : State) : Out State := .next (chipResetEnds found s)

end Sys2Proof.Machine
end

