-- ==== Sys2Proof/Machine/Lodge.lean ====
section
/-! DEFINITION. The Lodge's management messages (R523–R525), its records on their routes (R521, R522), and SPDM
(R548–R553). -/

namespace Sys2Proof.Machine
open Sys2Proof

/-! ### Management messages (R523, R524) -/

/-- A management message reaches a command only inside an SPDM session with the Lodge; any other is discarded and counted
(R523). A response is no request; reserved flags are refused. -/
def mgmtRow (command : Nat) (m : Mgmt) (s : State) (work : Nat → State → State) : State :=
  if !s.lodge.alive then s
  else match m.spdm with
    | none => violation s 64
    | some id =>
      if (lodgeSession s id).isNone then violation s 64
      else if m.flags.toNat % 2 = 1 then s
      else if m.flags ≠ 0 then mgmtRespond s id m.sequence command .invalid []
      else work id s

/-- A command the Lodge answers at once. -/
def mgmtAnswer (command : Nat) (m : Mgmt) (s : State) (work : State → State × Status × Bytes) : State :=
  mgmtRow command m s (fun id t => let r := work t; mgmtRespond r.1 id m.sequence command r.2.1 r.2.2)

/-- Pass periods a target takes, in s (R508). -/
def periodRange (target : Nat) : Nat × Nat :=
  if target < 2 then (1, 3600) else if target = 2 then (3600, 604800) else (21600, 2592000)

/-- SCRUB_PERIOD_SET (R508, R525). -/
def scrubPeriodWork (m : Mgmt) (s : State) : State × Status × Bytes :=
  let t := mgmtPar m 0 1
  let p := mgmtPar m 4 4
  if 3 < t ∨ p < (periodRange t).1 ∨ (periodRange t).2 < p then (s, .invalid, [])
  else ({ s with lodge := { s.lodge with scrubPeriods := s.lodge.scrubPeriods.set t p } }, .ok, [])

/-- SCRUB_PERIOD_READ (R525). -/
def scrubReadWork (s : State) : State × Status × Bytes := (s, .ok, (s.lodge.scrubPeriods.take 4).flatMap (leBytes 4))

/-- SETPOINT_SET (R564). -/
def setpointWork (m : Mgmt) (s : State) : State × Status × Bytes :=
  let v := mgmtPar m 0 2
  if v < 680 ∨ 780 < v ∨ v % 10 ≠ 0 then (s, .invalid, []) else ({ s with lodge := { s.lodge with setpointMv := v } }, .ok, [])

/-- POWER_LIMIT_SET (R580). -/
def powerLimitWork (m : Mgmt) (s : State) : State × Status × Bytes :=
  let v := mgmtPar m 0 2
  if v < 1200 ∨ 2400 < v then (s, .invalid, []) else ({ s with lodge := { s.lodge with powerLimit := v } }, .ok, [])

/-- Sends every held record on a route: 0 MCTP, 1 the management port (R522). -/
def sendHeld (s : State) (route : Nat) : State :=
  { s with lodge := { s.lodge with
      sent := (s.lodge.held.map (fun r => (route, r.sequence))).reverse ++ s.lodge.sent
      held := if route = 1 then s.lodge.held.map (fun r => { r with sentAt := s.now }) else s.lodge.held } }

/-- COLLECTOR_REGISTER (R522, R525): an all-zero address withdraws the collector. -/
def collectorWork (m : Mgmt) (s : State) : State × Status × Bytes :=
  let a := BitVec.ofNat 128 (mgmtPar m 0 16)
  if a = 0 then ({ s with lodge := { s.lodge with collector := none } }, .ok, [])
  else (sendHeld { s with lodge := { s.lodge with collector := some (a, BitVec.ofNat 16 (mgmtPar m 16 2)) } } 1, .ok, [])

/-- RECORD_ACK (R522, R525): every record datagram up to a sequence number. -/
def recordAckWork (m : Mgmt) (s : State) : State × Status × Bytes :=
  ({ s with lodge := { s.lodge with held := s.lodge.held.filter (fun r => mgmtPar m 0 4 < r.sequence) } }, .ok, [])

/-- OWNER_KEY_FUSE (R537, R525): BOOT_STATE waiting and the field zero are tested first, then the point. -/
def ownerKeyWork (m : Mgmt) (s : State) : State × Status × Bytes :=
  let released := decide (s.boot.sequence = .released ∨ s.boot.sequence = .up)
  let key := padTo 64 m.payload
  if !released ∨ s.boot.state ≠ .waiting ∨ s.fuses.ownerKeyHash ≠ 0 then (s, .busy, [])
  else if !onCurve (beAt key 0 32) (beAt key 32 32) then (s, .invalid, [])
  else ({ s with fuses := { s.fuses with ownerKeyHash := sha256 key } }, .ok, [])

/-- An array after ARRAY_ERASE_ALL (R600): nothing programmed; quarantine, retirement and stuck cells stay. One that is being programmed is
erased when the operation has ended (R611). -/
def erasedArray (a : OrArray) : OrArray :=
  if a.program.isSome then { a with eraseAfter := true, staged := none }
  else { arrayTablesLost a with
    state := (match a.state with | .quarantined => .quarantined | .retired => .retired | _ => .erased)
    levels := [], scales := [], levelSums := [], ownerKind := 0, owner := 0, generation := 0 }

/-- Arrays whose wear count an erase has raised to a count: those the state lists, or all where no operation has told them apart. -/
def wornTo (s : State) (n : Nat) : List Nat :=
  (if s.erases = n then List.range 2097152 else s.arrays.map (·.1)).filter (fun a => wearOf s a = n)

/-- The counts of R64 apply to what an erase adds: records at 90,000, wear-limited at 100,000. -/
def eraseWears (s : State) : State :=
  let s1 := (wornTo s 90000).foldl reportWear s
  (wornTo s1 100000).foldl (fun t a => arrMod t a (fun x => { x with wearLimited := true })) s1

/-- ARRAY_ERASE_ALL (R600): only while BOOT_STATE reads waiting, or running with no accepted graph. An array being programmed is erased
when its operation has ended, within the time of R600 (R611); other work at sites but a diagnosis is given up (log entry 21). -/
def eraseWork (s : State) : State × Status × Bytes :=
  let allowed := decide (s.boot.state = .waiting) || (isRunning s && s.graphs.isEmpty)
  if !allowed then (s, .busy, [])
  else
    let s1 := { s with
      erases := s.erases + 1
      arrays := smapAll s.arrays (fun _ a => erasedArray a)
      sites := smapAll s.sites (fun _ x => { x with activity := (match x.activity with
        | .diagnosing b => .diagnosing b | .programming a => .programming a | _ => .none) })
      lodge := { s.lodge with flashLog := [] } }
    (finishJobs (eraseWears s1) (fun j => match j.work with | .arrayCal _ _ => some (.invalid, parDetail 0, []) | _ => none), .ok, [])

/-- Whether debug unlock can be granted at all (R557). -/
def debugEligible (s : State) : Bool := decide (s.fuses.variant.val = 2) && !s.fuses.debugDisabled

/-- DEBUG_NONCE (R557): a fresh nonce, whose bytes the manual leaves open. -/
def debugNonceWork (s : State) : State × Status × Bytes :=
  if debugEligible s then
    let n := (List.range 32).map (fun i => Config.freeByte (s.freeIdx + i))
    ({ s with freeIdx := s.freeIdx + 32, lodge := { s.lodge with nonce := some n } }, .ok, n)
  else (s, .invalid, [])

/-- What an unlock token signs (R557): the serial number, then the nonce. -/
def tokenMessage (f : Fuses) (nonce : Bytes) : Bytes := leBytes 8 f.serial.toNat ++ nonce

/-- Whether a token verifies under the vendor key, which the running Lodge image carries (R545, R557). -/
def tokenOk (s : State) (nonce token : Bytes) : Bool :=
  match s.lodge.runningImage with
  | none => false
  | some im =>
    decide (sha256 (slice im 16 64) = s.fuses.vendorKeyHash) &&
      ecdsaVerify (beAt im 16 32) (beAt im 48 32) (sha256 (tokenMessage s.fuses nonce)) (beAt token 0 32) (beAt token 32 32)

/-- DEBUG_UNLOCK (R557): a nonce serves once. -/
def debugUnlockWork (m : Mgmt) (s : State) : State × Status × Bytes :=
  match s.lodge.nonce with
  | none => (s, .authFail, [])
  | some n =>
    let s1 := { s with lodge := { s.lodge with nonce := none } }
    if debugEligible s ∧ tokenOk s n (padTo 64 m.payload) then
      ({ s1 with lodge := { s1.lodge with debugUnlocked := true } }, .ok, [])
    else (s1, .authFail, [])

/-! ### POWER_CONTROL (R525, R583, R585) -/

/-- POWER_CONTROL is answered BUSY while a reset is in progress. -/
def powerControl (m : Mgmt) (s : State) (work : State → State) : State :=
  mgmtAnswer 0x0C m s (fun t => if resetInProgress t then (t, .busy, []) else (work t, .ok, []))

/-- Main rails off, into Standby; rails already off stay off until a command. -/
def commandRailsOff (s : State) : State :=
  if s.power.railsOn then railsOff s 3 else { s with power := { s.power with offReason := 3 } }

/-- Power up as a module reset; the hold of R583 is released and the count of shutdowns cleared. -/
def commandPowerUp (s : State) : State :=
  if s.power.railsOn then moduleReset s 1
  else
    let s1 := powerUpReset s
    { s1 with thermal := { s1.thermal with shutdowns := [], holdOff := false } }

/-! ### Records on their routes (R521, R522) -/

/-- PLATFORM_EVENT_MESSAGE_RESPONSE (R522): one record delivered over MCTP. -/
def platformAck (n : Nat) (s : State) : State :=
  if s.lodge.alive ∧ s.lodge.eventReceiver.isSome then
    { s with lodge := { s.lodge with held := s.lodge.held.filter (fun r => r.sequence ≠ n) } }
  else s

/-- SET_EVENT_RECEIVER (R522): records held are delivered on the route that opens. -/
def eventReceiverSet (eid : BitVec 8) (s : State) : State :=
  if s.lodge.alive then sendHeld { s with lodge := { s.lodge with eventReceiver := some eid } } 0 else s

/-- RECORD_RESEND (R522): datagrams that have waited 10 ms go again. -/
def recordsResent (s : State) : State :=
  if s.lodge.alive ∧ s.lodge.collector.isSome then
    let due := s.lodge.held.filter (fun r => r.sentAt + 10000000 ≤ s.now)
    { s with lodge := { s.lodge with
        sent := (due.map (fun r => (1, r.sequence))).reverse ++ s.lodge.sent
        held := s.lodge.held.map (fun r => if r.sentAt + 10000000 ≤ s.now then { r with sentAt := s.now } else r) } }
  else s

/-- MANAGEMENT_MESSAGE_DISCARDED (R523, R556). -/
def messageDiscarded (s : State) : State := if s.lodge.alive then violation s 64 else s

/-- DYNAMIC_ADDRESS_ASSIGNMENT (R595): while the standby domain is powered. -/
def addressAssigned (a : BitVec 7) (s : State) : State :=
  if s.power.state = .off then s else { s with power := { s.power with i3cAddress := a, i3cDynamic := true } }

/-! ### Measurements (R550, R551) -/

/-- Rank of an object kind in measurement 6. -/
def generationEntries (s : State) : Bytes :=
  let objs := s.objects.mergeSort (fun a b => decide (objCode a.kind * 16384 + a.handle ≤ objCode b.kind * 16384 + b.handle))
  objs.flatMap (fun o => o.gens.flatMap (fun g =>
    leBytes 1 (objCode o.kind) ++ [0] ++ leBytes 2 o.handle ++ leBytes 2 g.number ++ [0, 0] ++ digestBytes g.digest))

/-- Digest of an image without its last signatures: bytes 0..L − 193. -/
def imageMeasure (index : Nat) (im : Option Bytes) : Bytes :=
  digestBytes (match im with | some b => sha256 (b.take (b.length - 192)) | none => Config.absentDigest index)

/-- Measurement 4: raw bytes (R550). -/
def stateMeasure (s : State) : Bytes :=
  leBytes 1 (fusedVersion s.fuses) ++ leBytes 1 s.fuses.variant.val ++ leBytes 1 (boolBit (decide (s.fuses.ownerKeyHash ≠ 0)))
    ++ leBytes 1 (boolBit s.fuses.debugDisabled) ++ leBytes 1 (boolBit s.lodge.debugUnlocked)
    ++ [match s.boot.running with | some b => lgetD b 12 0 | none => Config.absentVersion] ++ [0, 0]

/-- Digests of the installed probe packs in pack-number order. -/
def packDigests (s : State) : Bytes :=
  (s.probes.mergeSort (fun a b => decide (a.number ≤ b.number))).flatMap (fun p => digestBytes (sha256 p.bytes))

/-- Measurements 1–7, all of one state (R551). -/
def measurements (s : State) : List Bytes :=
  let nothing := digestBytes (sha256 [])
  [ digestBytes Config.bootRomDigest, imageMeasure 2 s.boot.running, imageMeasure 3 s.lodge.runningImage, stateMeasure s ]
  ++ (if isRunning s then
      [ digestBytes (match s.planner.plan with | some p => p.digest | none => Config.absentDigest 5),
        digestBytes (sha256 (generationEntries s)), digestBytes (sha256 (packDigests s)) ]
    else [nothing, nothing, nothing])

/-- A responder of R548 that answers: a function's DOE mailbox, or the Lodge. -/
def responderThere (s : State) (fn : Option FnId) : Bool :=
  match fn with
  | some f => reachable s f.val && decide (s.boot.state ≠ .chipReset)
  | none => s.lodge.alive

/-- GET_MEASUREMENTS (R551). -/
def measurementsTaken (fn : Option FnId) (s : State) : State :=
  if responderThere s fn then { s with measured := measurements s } else s

/-! ### SPDM sessions (R548, R552, R553) -/

/-- A session's function, as the state numbers it. -/
def spdmFn (fn : Option FnId) : Option Nat := fn.map (·.val)

/-- KEY_EX: at most eight sessions of a function, four with the Lodge (R552). -/
def sessionKeyed (fn : Option FnId) (id : BitVec 32) (secret : Bytes) (s : State) : State :=
  let mine := s.spdm.filter (fun e => e.fn = spdmFn fn)
  let limit := if fn.isSome then 8 else 4
  if responderThere s fn ∧ mine.length < limit ∧ !mine.any (fun e => e.id = id) then
    { s with spdm := s.spdm ++ [{ fn := spdmFn fn, id := id, secret := secret }] }
  else s

/-- KEY_UPDATE (R553): the data keys change, a host session's key does not. -/
def dataKeysUpdated (fn : Option FnId) (id : BitVec 32) (s : State) : State :=
  { s with spdm := s.spdm.map (fun e => if e.fn = spdmFn fn ∧ e.id = id then { e with dataKeys := e.dataKeys + 1 } else e) }

/-- SPDM_SESSION_END (R450): host sessions bound to it lose their keys. -/
def spdmEnds (fn : Option FnId) (id : BitVec 32) (s : State) : State :=
  { s with
    spdm := s.spdm.filter (fun e => ¬(e.fn = spdmFn fn ∧ e.id = id))
    sessions := smapAll s.sessions (fun _ x =>
      if some x.fn = spdmFn fn ∧ x.spdm = some id then { x with spdm := none, key := none } else x) }

/-! ### The rows -/

def execScrubPeriodSet (m : Mgmt) (s : State) : Out State := .next (mgmtAnswer 0x01 m s (scrubPeriodWork m))
def execScrubPeriodRead (m : Mgmt) (s : State) : Out State := .next (mgmtAnswer 0x02 m s scrubReadWork)
def execSetpointSet (m : Mgmt) (s : State) : Out State := .next (mgmtAnswer 0x03 m s (setpointWork m))
def execPowerLimitSet (m : Mgmt) (s : State) : Out State := .next (mgmtAnswer 0x04 m s (powerLimitWork m))
def execCollectorRegister (m : Mgmt) (s : State) : Out State := .next (mgmtAnswer 0x05 m s (collectorWork m))
def execRecordAck (m : Mgmt) (s : State) : Out State := .next (mgmtAnswer 0x06 m s (recordAckWork m))
def execOwnerKeyFuse (m : Mgmt) (s : State) : Out State := .next (mgmtAnswer 0x07 m s (ownerKeyWork m))
def execArrayEraseAll (m : Mgmt) (s : State) : Out State := .next (mgmtAnswer 0x08 m s eraseWork)
def execDebugNonce (m : Mgmt) (s : State) : Out State := .next (mgmtAnswer 0x09 m s debugNonceWork)
def execDebugUnlock (m : Mgmt) (s : State) : Out State := .next (mgmtAnswer 0x0A m s (debugUnlockWork m))
def execPowerControlRailsOff (m : Mgmt) (s : State) : Out State := .next (powerControl m s commandRailsOff)
def execPowerControlPowerUp (m : Mgmt) (s : State) : Out State := .next (powerControl m s commandPowerUp)
def execPowerControlModuleReset (m : Mgmt) (s : State) : Out State := .next (powerControl m s (fun t => moduleReset t 1))
def execPlatformEventMessageResponse (sequence : BitVec 32) (s : State) : Out State := .next (platformAck sequence.toNat s)
def execSetEventReceiver (eid : BitVec 8) (s : State) : Out State := .next (eventReceiverSet eid s)
def execRecordResend (s : State) : Out State := .next (recordsResent s)
def execManagementMessageDiscarded (s : State) : Out State := .next (messageDiscarded s)
def execDynamicAddressAssignment (address : BitVec 7) (s : State) : Out State := .next (addressAssigned address s)
def execGetMeasurements (fn : Option FnId) (s : State) : Out State := .next (measurementsTaken fn s)
def execKeyEx (fn : Option FnId) (id : BitVec 32) (masterSecret : Bytes) (s : State) : Out State :=
  .next (sessionKeyed fn id masterSecret s)
def execKeyUpdate (fn : Option FnId) (id : BitVec 32) (s : State) : Out State := .next (dataKeysUpdated fn id s)
def execSpdmSessionEnd (fn : Option FnId) (id : BitVec 32) (s : State) : Out State := .next (spdmEnds fn id s)

end Sys2Proof.Machine
end

