-- ==== Sys2Proof/Machine/MemoryErrors.lean ====
section
/-! DEFINITION. Errors of the memory tier and of on-chip SRAM (R499–R510, R207), the scrubber, lost stacks and quarters (R533,
R534), and the end of a record's hold (R519). -/

namespace Sys2Proof.Machine
open Sys2Proof

def relMod (s : State) (f : Reliability → Reliability) : State := { s with reliability := f s.reliability }

/-! ### Naming (R15, R235) -/

/-- Number of a pseudo-channel in the module. -/
def pseudoKey (l : HbmLoc) : Nat := (l.quarter.val * 4 + l.stack.val) * 256 + l.pseudo.val

/-- Number of a row. -/
def rowKey (l : HbmLoc) : Nat := l.row * 4096 + pseudoKey l

def locUid (l : HbmLoc) : Word := hbmUid l.quarter.val l.stack.val l.pseudo.val

/-- UID of an SRAM bank (R506). -/
def bankUid : SramBank → Word
  | .pavilion q b => uidOf q.val 6 b.val 0 0
  | .garnetTile q n b => coreUid ⟨q, .garnet n⟩ b.val
  | .opalTile q n b => coreUid ⟨q, .opal n⟩ b.val
  | .jetTile q n b => coreUid ⟨q, .jet n⟩ b.val
  | .gatehouse b => gatehouseSramUid b.val

/-- Number of a bank as record 0x12 gives it. -/
def bankNumber : SramBank → Nat
  | .pavilion _ b => b.val
  | .garnetTile _ _ b => b.val
  | .opalTile _ _ b => b.val
  | .jetTile _ _ b => b.val
  | .gatehouse b => b.val

/-- Detail of records 0x16 and 0x17: address and source. -/
def memDetail (address source : Nat) : Bytes := leBytes 8 address ++ leBytes 1 source

/-- Steps under way of lanes that met a re-read beyond their worst case (R610, R193). -/
def stretchLanes (s : State) (lanes : List LaneId) : State :=
  lanes.foldl (fun t g => match (sget t.lanes g.val).bind (·.step) with
    | some st => st.batch.foldl (fun u h => summaryMod u h (fun m => { m with beyond := true })) t
    | none => t) s

/-! ### Lost stacks (R534) -/

/-- An HBM stack is lost: contained by chip reset, mapped out after it with a forced build. -/
def loseStack (s : State) (q k : Nat) : State :=
  if s.planner.lostStacks.contains (q, k) then s
  else
    let s1 := { s with planner := { s.planner with lostStacks := s.planner.lostStacks ++ [(q, k)] } }
    forceBuild (containAs s1 0x62 3 (hbmUid q k 0) (leBytes 1 k) none) .stack

/-! ### Corrected reads (R500, R502, R503) -/

/-- The row is repaired, a row that stands in for it too once it fails in its turn, or without a spare row its region leaves the memory tier (R502). -/
def repairRow (s : State) (l : HbmLoc) : State :=
  let row := rowKey l
  if l.spareRows = 0 then
    let region := l.address.toNat / 2097152
    if s.planner.removedRegions.contains region then s
    else forceBuild { s with planner := { s.planner with removedRegions := s.planner.removedRegions ++ [region] } } .hbmRegion
  else
    report (relMod s (fun r => { r with rowRepairs := r.rowRepairs.filter (· ≠ row) ++ [row], hardRepairs := r.hardRepairs.filter (· ≠ row) ++ [row]
                                        rowCorrections := r.rowCorrections.filter (fun e => e.1 ≠ row)
                                        rowScrubs := r.rowScrubs.filter (fun e => e.1 ≠ row) }))
      0x14 2 (locUid l) (leBytes 8 l.address.toNat ++ leBytes 1 (l.spareRows - 1))

/-- Adds an entry to a list kept by key, dropping what `keep` does not. -/
def logBy (k n : Nat) (keep : Nat → Bool) (l : List (Nat × List Nat)) : List (Nat × List Nat) :=
  (k, n :: (((l.find? (fun e => e.1 = k)).map (·.2)).getD []).filter keep) :: l.filter (fun e => e.1 ≠ k)

/-- Entries kept for a key. -/
def loggedBy (k : Nat) (l : List (Nat × List Nat)) : List Nat := ((l.find? (fun e => e.1 = k)).map (·.2)).getD []

/-- A read with one symbol in error (R500): corrected, written back, counted and reported; a row corrected on two scrub passes
or 16 times in 24 h is repaired (R502), a pin corrected more than 1,000 times in an hour is due for repair (R503). -/
def hbmCorrected (s : State) (l : HbmLoc) (symbol : Nat) (pass : Option Nat) : State :=
  let h := hostTime s
  let row := rowKey l
  let pin := pseudoKey l * 68 + symbol
  let s1 := relMod s (fun r => { r with
    pseudoCorrections := (pseudoKey l, (((r.pseudoCorrections.find? (fun e => e.1 = pseudoKey l)).map (·.2)).getD 0) + 1)
      :: r.pseudoCorrections.filter (fun e => e.1 ≠ pseudoKey l)
    rowCorrections := logBy row h (fun t => decide (h ≤ t + 86400000000000)) r.rowCorrections
    symbolCorrections := logBy pin h (fun t => decide (h ≤ t + 3600000000000)) r.symbolCorrections
    rowScrubs := match pass with
      | some n => if (loggedBy row r.rowScrubs).contains n then r.rowScrubs else logBy row n (fun _ => true) r.rowScrubs
      | none => r.rowScrubs })
  let s2 := report s1 0x13 1 (locUid l) (leBytes 8 l.address.toNat ++ leBytes 1 symbol)
  let s3 := if 2 ≤ (loggedBy row s2.reliability.rowScrubs).length ∨ 16 ≤ (loggedBy row s2.reliability.rowCorrections).length then
    repairRow s2 l else s2
  if 1000 < (loggedBy pin s3.reliability.symbolCorrections).length ∧ !s3.reliability.laneRepairsDue.contains pin then
    if l.spareLanes = 0 then loseStack s3 l.quarter.val l.stack.val
    else report (relMod s3 (fun r => { r with laneRepairsDue := r.laneRepairsDue ++ [pin] })) 0x15 2 (locUid l) (leBytes 1 symbol)
  else s3

/-! ### Uncorrectable reads (R501, R207, R511) -/

/-- A read that failed once: transient, or contained (R501, R207). -/
def hbmUncorrected (s : State) (l : HbmLoc) (transient : Bool) (source : Nat) (lanes : List LaneId) : State :=
  let detail := memDetail l.address.toNat source
  if transient then report (stretchLanes s lanes) 0x16 1 (locUid l) detail
  else contain s 0x17 (locUid l) detail none

/-! ### On-chip SRAM (R504–R506) -/

/-- What a lasting error does to serving, by what the line held (R505); `source` of a containment: 3. -/
def rebuildLine (s : State) (e : SramErr) : State :=
  match e.held with
  | .derivedWeights => e.lanes.foldl (fun t g => recomputeStep t g.val true) s
  | .stepData => e.lanes.foldl (fun t g => recomputeStep t g.val true) s
  | .planPart => e.lanes.foldl (fun t g => recomputeStep t g.val true) s
  | .masterPlan => s
  | .unused => s
  | .other => contain s 0x17 (bankUid e.bank) (memDetail e.line.toNat 3) none

/-- A fifth lasting error in a bank of a core's tile memory: the core is left out of placement (R506). -/
def coreBankExhausted (s : State) (e : SramErr) (c : CoreId) (bank : Nat) : State :=
  let s1 := { s with planner := { s.planner with leftOut := (s.planner.leftOut ++ [coreUid c 0]).eraseDups } }
  rebuildLine (report (relMod s1 (fun r => { r with retiredBanks := r.retiredBanks ++ [e.bank] })) 0x12 3 (coreUid c bank)
    (leBytes 2 bank)) e

/-- A fifth lasting error in a bank (R506). -/
def bankExhausted (s : State) (e : SramErr) : State :=
  match e.bank with
  | .pavilion q b =>
    let s1 := relMod s (fun r => { r with retiredBanks := r.retiredBanks ++ [e.bank] })
    rebuildLine (report (forceBuild s1 .bank) 0x12 3 (uidOf q.val 6 b.val 0 0) (leBytes 2 b.val)) e
  | .garnetTile q n b => coreBankExhausted s e ⟨q, .garnet n⟩ b.val
  | .opalTile q n b => coreBankExhausted s e ⟨q, .opal n⟩ b.val
  | .jetTile q n b => coreBankExhausted s e ⟨q, .jet n⟩ b.val
  | .gatehouse b =>
    let spent := s.reliability.gatehouseSpares = 0
    let s1 := relMod s (fun r => { r with
      gatehouseSpares := r.gatehouseSpares - 1, remaps := r.remaps.filter (fun m => m.1 ≠ e.bank) })
    let s2 := contain s1 0x17 (gatehouseSramUid b.val) (memDetail e.line.toNat 4) none
    if spent ∧ s2.boot.state = .chipReset then { s2 with boot := { s2.boot with endsHalted := true } } else s2

/-- A parity error (R504–R506): transient, remapped into one of the bank's four spare lines, or a fifth one. A retired bank is
read no longer. -/
def sramError (e : SramErr) (plan : Bool) (s : State) : State :=
  if s.reliability.retiredBanks.contains e.bank then s
  else if e.transient then
    report (if plan then stretchLanes s e.lanes else s) 0x10 1 (bankUid e.bank) (leBytes 4 e.line.toNat)
  else
    let used := (s.reliability.remaps.filter (fun m => m.1 = e.bank)).length
    if 4 ≤ used then bankExhausted s e
    else
      let s1 := relMod s (fun r => { r with remaps := r.remaps ++ [(e.bank, e.line)] })
      rebuildLine (report s1 0x11 2 (bankUid e.bank) (leBytes 4 e.line.toNat ++ leBytes 1 (3 - used))) e

/-! ### The scrubber (R508, R509) -/

/-- Number of a scrub target. -/
def scrubIndex : ScrubTarget → Nat
  | .pavilionTile => 0 | .gatehouse => 1 | .hbm => 2 | .arrays => 3

/-- SCRUB_PASS: an error is handled as one found by a plan read. -/
def scrubReads (target : ScrubTarget) (pass : Nat) (f : ScrubFinding) (s : State) : State :=
  let s1 := relMod s (fun r => { r with scrubPasses := lmod r.scrubPasses (scrubIndex target) (fun n => max n pass) })
  match f with
  | .clean => s1
  | .hbmCorrected l k => hbmCorrected s1 l k.val (some pass)
  | .hbmUncorrected l transient => hbmUncorrected s1 l transient 1 []
  | .sram e => sramError e false s1

/-! ### A lost quarter (R533) -/

/-- A request whose KV blocks lay in the quarter's stacks: copied back from the partner's mirror, else ended. -/
def losesBlocks (s : State) (h : Nat) : State :=
  match sget s.requests h with
  | none => s
  | some r =>
    if r.ended ∨ r.mirrored ∨ r.blocks.isEmpty then s
    else if ((sget s.lanes r.graph).map (·.protected_)).getD false ∧ s.pair.phase = .paired then
      reqMod s h (fun q => { q with state := .preempted, preemptedAt := hostTime s, reserved := []
                                    blocks := q.blocks.map (fun b => if b.location = .memoryTier then { b with location := .partner } else b) })
    else endRequest s h .refusedCapacity

/-- Whether a golden copy lay in a quarter's stacks: where it was placed (R357), or by what the event names. -/
def quarterHeld (q : Nat) (named : List (ObjKind × Fin 16384 × Nat)) (o : LoadedObject) (e : Nat × Shard) : Bool :=
  e.2.verified && ((e.2.inMemoryTier && decide (e.2.stack / 4 = q))
    || named.any (fun x => decide (x.1 = o.kind ∧ x.2.1.val = o.handle ∧ x.2.2 = e.1)))

/-- The golden copies that lay in a quarter's stacks are fetched again. -/
def refetchQuarter (q : Nat) (named : List (ObjKind × Fin 16384 × Nat)) (s : State) : State :=
  let lost := s.objects.flatMap (fun o => o.gens.flatMap (fun g =>
    ((numbered g.shards).filter (quarterHeld q named o)).map (fun e => (o.kind, o.handle, g.number, e))))
  let s1 : State := { s with objects := s.objects.map (fun o => { o with gens := o.gens.map (fun g =>
    { g with shards := (numbered g.shards).map (fun e => if quarterHeld q named o e then shardLost e.2 else e.2) }) }) }
  lost.foldl (fun t e => readShard e.1 e.2.1 e.2.2.1 t e.2.2.2) s1

/-- QUARTER_LOST: recorded; steps that use it are discarded and their lanes sit out; a forced build starts without it. The
record's unit is the quarter's first Pavilion bank (log entry 35). -/
def loseQuarter (q : Nat) (requests : List (BitVec 32)) (shards : List (ObjKind × Fin 16384 × Nat)) (s : State) : State :=
  if !isRunning s ∨ s.planner.lostQuarters.contains q then s
  else
    let uses := fun (l : Lane) => l.plan.quarters.toNat.testBit q
    let hit := (s.lanes.filter (fun e => uses e.2)).map (·.1)
    let s1 := report s 0x61 3 (uidOf q 6 0 0 0) (leBytes 1 q)
    let s2 := (hit.flatMap (fun g => (s1.layerSteps.filter (fun x => x.key.lane.val = g)).map (·.key))).foldl dropSiteSteps s1
    let s3 : State := { hit.foldl dropWindows s2 with
      lanes := smapAll s2.lanes (fun _ l => if uses l then { l with step := none, sitsOut := true } else l)
      layerSteps := s2.layerSteps.filter (fun x => !hit.contains x.key.lane.val)
      planner := { s2.planner with lostQuarters := s2.planner.lostQuarters ++ [q] } }
    let s4 : State := refetchQuarter q shards ((requests.map (·.toNat)).foldl losesBlocks s3)
    settleIdle (forceBuild s4 .quarter)

/-! ### Held records (R519) -/

/-- RECORD_HOLD_END: the 100 ms of a pair have ended with events held. -/
def holdEnds (kind : Nat) (uid : Word) (s : State) : State :=
  match countOf s kind uid with
  | none => s
  | some c =>
    match c.held with
    | some r => if c.lastIssued + 100000000 ≤ hostTime s then
        emitRecord (setCount s { c with lastIssued := hostTime s, held := none }) { r with count := c.count } else s
    | none => s

/-! ### The rows -/

def execHbmReadError (loc : HbmLoc) (symbol : Fin 68) (s : State) : Out State := .next (hbmCorrected s loc symbol.val none)
def execUncorrectableMemoryError (loc : HbmLoc) (transient : Bool) (lanes : List LaneId) (s : State) : Out State :=
  .next (hbmUncorrected s loc transient 0 lanes)
/-- A burst that fails its check (R207): the data decode, but the burst is not what was written. -/
def execBurstCheckFail (loc : HbmLoc) (transient : Bool) (lanes : List LaneId) (s : State) : Out State :=
  .next (hbmUncorrected s loc transient 0 lanes)
def execSramParityError (e : SramErr) (s : State) : Out State := .next (sramError e true s)
def execScrubPass (target : ScrubTarget) (pass : Nat) (f : ScrubFinding) (s : State) : Out State := .next (scrubReads target pass f s)
def execStackLost (quarter stack : Fin 4) (s : State) : Out State := .next (loseStack s quarter.val stack.val)
def execQuarterLost (quarter : Fin 4) (requests : List (BitVec 32)) (shards : List (ObjKind × Fin 16384 × Nat)) (s : State) :
    Out State :=
  .next (loseQuarter quarter.val requests shards s)
def execRecordHoldEnd (kind : BitVec 8) (uid : Word) (s : State) : Out State := .next (holdEnds kind.toNat uid s)

end Sys2Proof.Machine
end

