-- ==== Sys2Proof/Machine/PacketDispatch.lean ====
section
/-! DEFINITION. Packets that are carried out apart from their row: those the Lodge carries (R525, R529, R575) and those that
waited in Dormant (R567); leaving Dormant (R568). -/

namespace Sys2Proof.Machine
open Sys2Proof

/-- The work of a packet the Lodge carries: PROBE_INSTALL, whose address field is zero, PROBE_REMOVE, THERMAL_SET. -/
def bodyCarried (c : Ctx) (s : State) : State :=
  if c.origin.opcode = 0x0509 then
    if c.par 0 8 ≠ 0 then replyInvalid c s (parDetail 0) else bodyProbeInstall c s
  else if c.origin.opcode = 0x050A then bodyProbeRemove c s
  else bodyThermalSet c s

/-- PACKET (R525): the chain, then the pack; BUSY with an empty payload while BOOT_STATE does not read running. -/
def packetCarried (m : Mgmt) (id : Nat) (s : State) : State :=
  if !isRunning s then mgmtRespond s id m.sequence 0x0B .busy []
  else if s.boot.kioskHung then s
  else
    let n := 128 * hdrUnits m.payload
    let ch := padTo n m.payload
    let c : Ctx := { origin := { fn := 0, queue := 0xFFFF, ring := noRing, via := some id, mgmtSeq := m.sequence,
                                 opcode := hdrOpcode ch, tag := hdrTag ch },
                     chain := ch, data := { first := m.payload.drop n } }
    carryPacket c s bodyCarried

/-- The work of a long opcode that waited in Dormant. -/
def bodyWaited (c : Ctx) (s : State) : State :=
  match c.origin.opcode with
  | 0x0101 => bodyModelLoad c s
  | 0x0102 => bodyModelReplace c s
  | 0x0103 => bodyModelRetire c s
  | 0x0111 => bodyAdapterLoad c s
  | 0x0112 => bodyAdapterReplace c s
  | 0x0113 => bodyAdapterRetire c s
  | 0x0201 => bodyGraphSubmit c s
  | 0x0202 => bodyGraphRetire c s
  | 0x0401 => bodyKvPoolSet c s
  | 0x0503 => bodyArrayCalRun c s
  | 0x0506 => bodySiteDiagRun c s
  | 0x0508 => bodyCheckFractionSet c s
  | 0x0702 => bodyFirmwareLoad c s
  | 0x0802 => if c.par 0 1 = 1 then bodyPair c s else bodyUnpair c s
  | _ => s

/-- Packets that waited are carried out in the order they came. -/
def releaseWaiting (s : State) : State :=
  s.dormantWait.foldl (fun t c => bodyWaited c t) { s with dormantWait := [] }

/-- POWER_STATE_SET 0 or 1 (R565, R568): answered once the engine is Idle; then what waited is carried out. -/
def bodyPowerActive (c : Ctx) (s : State) : State :=
  if 2 < c.par 0 1 then replyInvalid c s (parDetail 0)
  else if s.power.state = .dormant then releaseWaiting (replyOk c (wakeDies s) [])
  else replyOk c s []

/-- The row's packet carries any value but 2, which is the other row's; a byte of 2 is taken as 0. -/
def activePkt (p : Pkt) : Pkt := if leAt p.chain 16 1 = 2 then stampPkt 0 0 p else p

/-! ### The rows -/

def execPacket (m : Mgmt) (s : State) : Out State := .next (mgmtRow 0x0B m s (packetCarried m))
def execPowerStateSetActive (p : Pkt) (s : State) : Out State := .next (packetRow 0x0603 (activePkt p) s id bodyPowerActive)

end Sys2Proof.Machine
end

