-- ==== Sys2Proof/Machine/Pergola.lean ====
section
/-! DEFINITION. Remote accesses over the Pergola and the windows they go through (R255–R264), link faults (R240). -/

namespace Sys2Proof.Machine
open Sys2Proof

/-! ### Finding the window (R255, R256, R259, R260) -/

/-- Slots of a core whose window of the current plan epoch holds a line. -/
def slotsOf (s : State) (r : Remote) : List (Nat × Window) :=
  (numbered (coreGet s (coreKey r.owner)).windows).filter (fun e =>
    windowCurrent s e.2 && decide (e.2.base ≤ r.line ∧ r.line < e.2.base + e.2.lines))

/-- What becomes of an access: the slot it goes through, late at a slot, or a violation. -/
inductive RemoteFate where
  | through (slot : Nat)
  | late (slot : Nat) (w : Window)
  | violation
  deriving DecidableEq, Repr

/-- R259 and R260; `wrong` is the direction that does not serve the access (log entry 32). -/
def judgeAccess (s : State) (r : Remote) (wrong : Fin 3) : RemoteFate :=
  let all := slotsOf s r
  match all.find? (fun e => e.2.open_ && decide (e.2.tag = r.tag)) with
  | some e => if e.2.direction = wrong then .violation else .through e.1
  | none => match all.head? with
    | some e => .late e.1 e.2
    | none => .violation

/-! ### Late accesses (R259, R262) -/

/-- The engine diagnoses a unit (R262): an array's or site's site, every site of a Quartz unit. For cores, banks and ports the manual describes
no diagnosis. -/
def diagnoseUnit (s : State) (uid : Word) : State :=
  let u := uidQuarter uid * 4096 + uidIndex uid
  if uidKind uid ≤ 1 then startDiagnosis s (uidQuarter uid * 65536 + uidIndex uid)
  else if uidKind uid = 2 then (List.range 16).foldl (fun t i => startDiagnosis t (u * 16 + i)) s
  else s

/-- Counts a late access. The first at a core in an epoch is reported; in two consecutive epochs, owner and source are left out
of placement and diagnosed (R262). -/
def lateAccess (s : State) (r : Remote) (slot : Nat) (w : Window) (write : Bool) : State :=
  let key := coreKey r.owner
  let c := coreGet s key
  let s1 := coreMod (slotMod s key slot (fun x =>
    if write then { x with lateWrites := x.lateWrites + 1 } else { x with lateReads := x.lateReads + 1 })) key (fun x =>
      if write then { x with lateWrites := satAdd32 x.lateWrites 1 } else { x with lateReads := satAdd32 x.lateReads 1 })
  if c.lateEpochs.contains w.epoch then s1
  else
    let detail := leBytes 4 r.source.toNat ++ leBytes 2 w.tag.toNat ++ leBytes 1 (boolBit (!write))
    let s2 := reportOf (coreMod s1 key (fun x => { x with lateEpochs := (w.epoch :: x.lateEpochs).take 8 }))
      0x1A 2 (coreUid r.owner 0) detail 0 (opOf s w.lane w.node)
    if c.lateEpochs.any (fun e => nextEpoch e = w.epoch) then
      diagnoseUnit { s2 with planner := { s2.planner with leftOut := (s2.planner.leftOut ++ [coreUid r.owner 0, r.source]).eraseDups } } r.source
    else s2

/-! ### Accesses (R257, R258) -/

/-- Credits a VC2 sender holds at a core's receiving port (R244). -/
def creditsOf (c : Core) (source : Word) : Nat := ((c.credits.find? (fun e => e.1 = source)).map (·.2)).getD 64

def setCredits (s : State) (key : Nat) (source : Word) (n : Nat) : State :=
  coreMod s key (fun c => { c with credits := (source, n) :: c.credits.filter (fun e => e.1 ≠ source) })

/-- A VC2 line is sent against a credit, which the receiving port grants again once it has taken the line; without a credit nothing is sent
(R244). Every command being one whole access, the model grants it with the same command (log entry 103). -/
def onCredit (r : Remote) (take : State → State) (s : State) : State :=
  let key := coreKey r.owner
  if r.vc2 then match sendLine (creditsOf (coreGet s key) r.source) with
    | none => s
    | some n => setCredits (take (setCredits s key r.source n)) key r.source (grantCredits n 1)
  else take s

/-- What a memory port writes into a line (R250): of the bytes that its descriptor delivers, packed at the destination pitch, those of the
line. The source is an object's golden copy, or the bytes the access brings. -/
def portLine (s : State) (p : PortRead) (line : Nat) (source : Bytes) : Bytes :=
  let byte := fun i => match p.golden with
    | some o => (((objGet s o.1 o.2).bind currentGen).map (fun g => goldenByte s g (p.offset + i))).getD 0
    | none => lgetD source (p.offset + i) 0
  padTo 64 (slice ((accessOf p.descriptor).deliver byte) (64 * (line - p.first)) 64)

/-- What a remote write stores. -/
def remoteBytes (s : State) (r : Remote) : Bytes :=
  match r.port with
  | some p => portLine s p r.line r.data
  | none => padTo 64 r.data

/-- REMOTE_WRITE: the line is written whole (R258), discarded as late, or ignored as a violation (R260). -/
def writeRemote (r : Remote) (s0 : State) : State :=
  onCredit r (fun s1 =>
    let key := coreKey r.owner
    let s := reopenWindows s1 key
    match judgeAccess s r 1 with
    | .through i =>
      let t := coreMod s key (fun c => { c with tile := sput c.tile r.line (remoteBytes s r) })
      settleWindow (slotMod t key i (fun w => { w with
        written := if w.written.contains r.line then w.written else r.line :: w.written })) key i
    | .late i w => lateAccess s r i w true
    | .violation => violation s 64) s0

/-- A line of a core's tile memory: what remote writes left, else what the core computed there, a free value. -/
def tileLine (s : State) (key line : Nat) : Bytes :=
  (sget (coreGet s key).tile line).getD ((List.range 64).map (fun i => Config.freeByte (s.freeIdx + i)))

/-- REMOTE_READ: the line, or zeros for a late read or a violation. -/
def readRemote (r : Remote) (s0 : State) : State :=
  onCredit r (fun s1 =>
    let key := coreKey r.owner
    let s := reopenWindows s1 key
    let answer := fun (t : State) (b : Bytes) => coreMod t key (fun c => { c with lastRead := b })
    match judgeAccess s r 0 with
    | .through _ =>
      let b := tileLine s key r.line
      answer { (coreMod s key (fun c => { c with tile := sput c.tile r.line b })) with freeIdx := s.freeIdx + 64 } b
    | .late i w => answer (lateAccess s r i w false) (List.replicate 64 0)
    | .violation => answer (violation s 64) (List.replicate 64 0)) s0

/-- COMPLETION_MARK (R257): each declared reader counts once. -/
def markArrives (owner : CoreId) (slot : Nat) (reader : Word) (s0 : State) : State :=
  let key := coreKey owner
  let s := reopenWindows s0 key
  settleWindow (slotMod s key slot (fun w =>
    if w.open_ ∧ w.direction ≠ 0 then
      { w with completions := min 255 (w.completions + 1), marks := if w.marks.contains reader then w.marks else reader :: w.marks }
    else w)) key slot

/-- WINDOW_CLOSE_POINT (R257). -/
def closePoint (owner : CoreId) (slot : Nat) (s : State) : State :=
  let t := reopenWindows s (coreKey owner)
  let w := slotGet t (coreKey owner) slot
  if w.open_ ∧ w.vc2 then closeWindow t (coreKey owner) slot else t

/-- WINDOW_GUARD (R261): a write window is still open when its guard ends, as the owner core's timer measures it, to within 5 %. -/
def windowGuards (owner : CoreId) (slot : Nat) (s : State) : State :=
  let t := reopenWindows s (coreKey owner)
  let w := slotGet t (coreKey owner) slot
  if w.open_ ∧ w.direction ≠ 1 ∧ 95 * w.guard ≤ 100 * (s.now - w.openedAt) then
    contain t 0x19 (coreUid owner 0) (leBytes 2 w.tag.toNat ++ leBytes 2 w.written.length) (opOf s w.lane w.node)
  else t

/-! ### Link faults (R240) -/

/-- The core that names a router in a record: the Garnet or Jet core attached to it (R236; log entry 33). -/
def routerUid (quarter router : Nat) : Word :=
  if router < 96 then uidOf quarter 3 router 0 0 else uidOf quarter 5 (router - 96) 0 0

/-- FLIT_CRC_FAIL: the link sends the flit again; the third failure of one flit is contained. -/
def flitFails (quarter router port : Nat) (resent : Bool) (s : State) : State :=
  let key := (quarter * 128 + router) * 8 + port
  let n := if resent then (((s.reliability.linkFails.find? (fun e => e.1 = key)).map (·.2)).getD 0) + 1 else 1
  let s1 := { s with reliability := { s.reliability with
    linkFails := (key, n) :: s.reliability.linkFails.filter (fun e => e.1 ≠ key) } }
  if 3 ≤ n then contain s1 0x18 (routerUid quarter router) (leBytes 2 router ++ leBytes 1 port) none else s1

/-! ### The rows -/

def execRemoteWrite (r : Remote) (s : State) : Out State := .next (writeRemote r s)
def execRemoteRead (r : Remote) (s : State) : Out State := .next (readRemote r s)
def execCompletionMark (owner : CoreId) (mark : WindowMark) (s : State) : Out State := .next (markArrives owner mark.slot.val mark.reader s)
def execWindowClosePoint (owner : CoreId) (slot : Fin 8) (s : State) : Out State := .next (closePoint owner slot.val s)
def execWindowGuard (owner : CoreId) (slot : Fin 8) (s : State) : Out State := .next (windowGuards owner slot.val s)
def execFlitCrcFail (quarter : Fin 4) (router : Fin 128) (port : Fin 8) (resent : Bool) (s : State) : Out State :=
  .next (flitFails quarter.val router.val port.val resent s)

end Sys2Proof.Machine
end

