-- ==== Sys2Proof/Machine/Sessions.lean ====
section
/-! DEFINITION. The session and administration packets (R459): host sessions, time marks, queues and rings. -/

namespace Sys2Proof.Machine
open Sys2Proof

/-! ### Sessions (R448–R451, R404, R553) -/

/-- SESSION_OPEN: binds a session to an SPDM session of the function, or to none, and returns its handle. -/
def bodySessionOpen (c : Ctx) (s : State) : State :=
  let id := c.par 0 4
  if id ≠ 0 ∧ (fnSpdm s c.fn id).isNone then replySt c s .notFound
  else match firstFree s.sessions 0 4096 with
    | none => replySt c s .refusedCapacity
    | some h =>
      let ses : Session :=
        { fn := c.fn, spdm := if id = 0 then none else some (BitVec.ofNat 32 id)
          key := if id = 0 then none else (fnSpdm s c.fn id).map (fun e => sessionKey e.secret h) }
      replyOk c { s with sessions := sput s.sessions h ses } (leBytes 2 h)

/-- SESSION_CLOSE (R404): its requests end at their lanes' boundaries without records; answered when the last has ended. -/
def bodySessionClose (c : Ctx) (s : State) : State :=
  let s1 := { s with sessions := smod s.sessions c.session (fun x => { x with closing := true }) }
  let s2 := closeRequests (startJob c s1 (.closeSession c.session)) (fun r => r.session = c.session && r.fn = c.fn)
  settleClosing s2

/-- SESSION_KEY_UPDATE (R553): the session is rebound and its key derived afresh; the counter carries on. -/
def bodySessionKeyUpdate (c : Ctx) (s : State) : State :=
  match fnSpdm s c.fn (c.par 0 4) with
  | none => replySt c s .notFound
  | some e =>
    replyOk c { s with sessions := smod s.sessions c.session (fun x =>
      { x with spdm := some e.id, key := some (sessionKey e.secret c.session) }) } []

/-! ### Host time (R396–R399) -/

/-- TIME_MARK (R398): a mark later than host time sets it, one at most 1 ms earlier is accepted with host time held, one
earlier still is refused with a record. The first mark since host time was last empty is always accepted. -/
def bodyTimeMark (c : Ctx) (s : State) : State :=
  let m := c.par 0 8
  if s.time.set ∧ m + 1000000 < hostTime s then
    replyInvalid c (report s 0x32 2 kioskUid (leBytes 8 m)) (parDetail 0)
  else replyOk c (acceptMark s m) []

/-! ### Queues and rings (R426, R432, R444) -/

/-- QUEUE_CREATE (R426). -/
def bodyQueueCreate (c : Ctx) (s : State) : State :=
  let q := c.par 0 2
  let ring := c.par 4 2
  if ownerOfQueue s q ≠ c.fn then replyForeign c s 0
  else if q = bootQueue c.fn then replyInvalid c s (parDetail 0)
  else if c.par 2 1 < 4 ∨ 12 < c.par 2 1 then replyInvalid c s (parDetail 2)
  else if 3 < c.par 3 1 then replyInvalid c s (parDetail 3)
  else if 4096 ≤ ring then replyInvalid c s (parDetail 4)
  else if ownerOfRing s ring ≠ c.fn then replyForeign c s 4
  else if c.par 8 8 % 4096 ≠ 0 then replyInvalid c s (parDetail 8)
  else if shas s.queues q then replySt c s .busy
  else if !shas s.rings ring then replySt c s .notFound
  else
    let x : SubQueue :=
      { base := BitVec.ofNat 64 (c.par 8 8), depth := 2 ^ c.par 2 1, priority := c.par 3 1, ring := ring }
    replyOk c { s with queues := sput s.queues q x } []

/-- QUEUE_DELETE (R459): ends the queue's requests as a queue reset does. -/
def bodyQueueDelete (c : Ctx) (s : State) : State :=
  let q := c.par 0 2
  if ownerOfQueue s q ≠ c.fn then replyForeign c s 0
  else if q = bootQueue c.fn ∨ (c.origin.via = none ∧ q = c.origin.queue) ∨ !shas s.queues q then
    replyInvalid c s (parDetail 0)
  else
    let s1 := resetQueue s q
    replyOk c { s1 with queues := sdel s1.queues q } []

/-- QUEUE_RESET (R444): of a submission queue, or of a reply ring that no open request names. -/
def bodyQueueReset (c : Ctx) (s : State) : State :=
  let n := c.par 2 2
  if c.par 0 1 = 0 then
    if ownerOfQueue s n ≠ c.fn then replyForeign c s 2
    else if !shas s.queues n then replyInvalid c s (parDetail 2)
    else replyOk c (resetQueue s n) []
  else if c.par 0 1 = 1 then
    if 4096 ≤ n then replyInvalid c s (parDetail 2)
    else if ownerOfRing s n ≠ c.fn then replyForeign c s 2
    else if !shas s.rings n then replyInvalid c s (parDetail 2)
    else if s.requests.any (fun e => e.2.ring = n) then replySt c s .busy
    else replyOk c (resetRing s n) []
  else replyInvalid c s (parDetail 0)

/-- RING_CREATE (R432). -/
def bodyRingCreate (c : Ctx) (s : State) : State :=
  let n := c.par 0 2
  if 4096 ≤ n then replyInvalid c s (parDetail 0)
  else if ownerOfRing s n ≠ c.fn then replyForeign c s 0
  else if n = bootRing c.fn then replyInvalid c s (parDetail 0)
  else if c.par 2 1 < 4 ∨ 12 < c.par 2 1 then replyInvalid c s (parDetail 2)
  else if c.par 3 1 = 0 ∨ 64 < c.par 3 1 then replyInvalid c s (parDetail 3)
  else if c.par 6 2 = 0 then replyInvalid c s (parDetail 6)
  else if vectorsOf c.fn ≤ c.par 6 2 then replyForeign c s 6
  else if c.par 8 8 % 4096 ≠ 0 then replyInvalid c s (parDetail 8)
  else if shas s.rings n then replySt c s .busy
  else
    let x : ReplyRing :=
      { base := BitVec.ofNat 64 (c.par 8 8), depth := 2 ^ c.par 2 1, vector := c.par 6 2, modCount := c.par 3 1,
        modDelay := c.par 4 1 }
    replyOk c { s with rings := sput s.rings n x } []

/-- RING_DESTROY (R405): BUSY while an open request or a submission queue of the function names the ring. -/
def bodyRingDestroy (c : Ctx) (s : State) : State :=
  let n := c.par 0 2
  if 4096 ≤ n then replyInvalid c s (parDetail 0)
  else if ownerOfRing s n ≠ c.fn then replyForeign c s 0
  else if n = bootRing c.fn ∨ !shas s.rings n then replyInvalid c s (parDetail 0)
  else if s.requests.any (fun e => e.2.ring = n)
      ∨ s.queues.any (fun e => decide (e.2.ring = n) && decide (ownerOfQueue s e.1 = c.fn)) then replySt c s .busy
  else replyOk c { s with rings := sdel s.rings n } []

/-! ### The rows -/

def execSessionOpen (p : Pkt) (s : State) : Out State := .next (packetRow 0x0001 p s id bodySessionOpen)
def execSessionClose (p : Pkt) (s : State) : Out State := .next (packetRow 0x0002 p s id bodySessionClose)
def execSessionKeyUpdate (p : Pkt) (s : State) : Out State := .next (packetRow 0x0003 p s id bodySessionKeyUpdate)
def execTimeMark (p : Pkt) (s : State) : Out State := .next (packetRow 0x0004 p s id bodyTimeMark)
def execQueueCreate (p : Pkt) (s : State) : Out State := .next (packetRow 0x0010 p s id bodyQueueCreate)
def execQueueDelete (p : Pkt) (s : State) : Out State := .next (packetRow 0x0011 p s id bodyQueueDelete)
def execQueueReset (p : Pkt) (s : State) : Out State := .next (packetRow 0x0012 p s id bodyQueueReset)
def execRingCreate (p : Pkt) (s : State) : Out State := .next (packetRow 0x0013 p s id bodyRingCreate)
def execRingDestroy (p : Pkt) (s : State) : Out State := .next (packetRow 0x0014 p s id bodyRingDestroy)

/-- UNKNOWN_OPCODE (R452): an opcode no row of R459–R470 gives. A chain that names a known opcode is no such packet; its
opcode field is taken as 0xFFFF. -/
def execUnknownOpcode (p : Pkt) (s : State) : Out State :=
  .next (packetRow (if (opRow (hdrOpcode p.chain)).isSome then 0xFFFF else hdrOpcode p.chain) p s id (fun _ t => t))

end Sys2Proof.Machine
end

