-- ==== Sys2Proof/Machine/Dispatch.lean ====
section
/-! DEFINITION. One arm per command: what each command does to everything but the queue. -/

namespace Sys2Proof.Machine
open Sys2Proof

/-- The effect of a command on everything but the queue of waiting commands. -/
def exec (i : Instr) (s : State) : Host.Outcome State Fault Refusal :=
  match i with
  | .sessionOpen p => Sys2Proof.Machine.execSessionOpen p s
  | .sessionClose p => Sys2Proof.Machine.execSessionClose p s
  | .sessionKeyUpdate p => Sys2Proof.Machine.execSessionKeyUpdate p s
  | .timeMark p => Sys2Proof.Machine.execTimeMark p s
  | .queueCreate p => Sys2Proof.Machine.execQueueCreate p s
  | .queueDelete p => Sys2Proof.Machine.execQueueDelete p s
  | .queueReset p => Sys2Proof.Machine.execQueueReset p s
  | .ringCreate p => Sys2Proof.Machine.execRingCreate p s
  | .ringDestroy p => Sys2Proof.Machine.execRingDestroy p s
  | .modelLoad p => Sys2Proof.Machine.execModelLoad p s
  | .modelReplace p arraysFit => Sys2Proof.Machine.execModelReplace p arraysFit s
  | .modelRetire p => Sys2Proof.Machine.execModelRetire p s
  | .modelStatusRead p => Sys2Proof.Machine.execModelStatusRead p s
  | .adapterLoad p => Sys2Proof.Machine.execAdapterLoad p s
  | .adapterReplace p => Sys2Proof.Machine.execAdapterReplace p s
  | .adapterRetire p => Sys2Proof.Machine.execAdapterRetire p s
  | .publisherKeyRegister p => Sys2Proof.Machine.execPublisherKeyRegister p s
  | .rehashPeriodSet p => Sys2Proof.Machine.execRehashPeriodSet p s
  | .graphSubmit p => Sys2Proof.Machine.execGraphSubmit p s
  | .graphRetire p => Sys2Proof.Machine.execGraphRetire p s
  | .planRead p => Sys2Proof.Machine.execPlanRead p s
  | .requestOpen p => Sys2Proof.Machine.execRequestOpen p s
  | .requestCancel p => Sys2Proof.Machine.execRequestCancel p s
  | .accountSet p => Sys2Proof.Machine.execAccountSet p s
  | .accountClose p => Sys2Proof.Machine.execAccountClose p s
  | .accountRead p => Sys2Proof.Machine.execAccountRead p s
  | .kvPoolSet p => Sys2Proof.Machine.execKvPoolSet p s
  | .kvSwapRegister p => Sys2Proof.Machine.execKvSwapRegister p s
  | .kvMapRead p => Sys2Proof.Machine.execKvMapRead p s
  | .coreStatsRead p => Sys2Proof.Machine.execCoreStatsRead p s
  | .memRead p => Sys2Proof.Machine.execMemRead p s
  | .arrayStatusRead p => Sys2Proof.Machine.execArrayStatusRead p s
  | .calTableRead p => Sys2Proof.Machine.execCalTableRead p s
  | .arrayCalRun p => Sys2Proof.Machine.execArrayCalRun p s
  | .siteSeqRead p => Sys2Proof.Machine.execSiteSeqRead p s
  | .siteSeqWrite p => Sys2Proof.Machine.execSiteSeqWrite p s
  | .siteDiagRun p => Sys2Proof.Machine.execSiteDiagRun p s
  | .quartzStatsRead p => Sys2Proof.Machine.execQuartzStatsRead p s
  | .checkFractionSet p => Sys2Proof.Machine.execCheckFractionSet p s
  | .probeInstall p => Sys2Proof.Machine.execProbeInstall p s
  | .probeRemove p => Sys2Proof.Machine.execProbeRemove p s
  | .thermalRead p => Sys2Proof.Machine.execThermalRead p s
  | .thermalSet p => Sys2Proof.Machine.execThermalSet p s
  | .powerStateSetDormant p => Sys2Proof.Machine.execPowerStateSetDormant p s
  | .powerStateSetActive p => Sys2Proof.Machine.execPowerStateSetActive p s
  | .chipReset p => Sys2Proof.Machine.execChipReset p s
  | .firmwareLoad p => Sys2Proof.Machine.execFirmwareLoad p s
  | .portModeSet p => Sys2Proof.Machine.execPortModeSet p s
  | .pairConfigurePair p partner => Sys2Proof.Machine.execPairConfigurePair p partner s
  | .pairConfigureUnpair p => Sys2Proof.Machine.execPairConfigureUnpair p s
  | .weightServerRegister p => Sys2Proof.Machine.execWeightServerRegister p s
  | .kvPeerRegister p => Sys2Proof.Machine.execKvPeerRegister p s
  | .fabricStatusRead p => Sys2Proof.Machine.execFabricStatusRead p s
  | .unknownOpcode p => Sys2Proof.Machine.execUnknownOpcode p s
  | .scrubPeriodSet m => Sys2Proof.Machine.execScrubPeriodSet m s
  | .scrubPeriodRead m => Sys2Proof.Machine.execScrubPeriodRead m s
  | .setpointSet m => Sys2Proof.Machine.execSetpointSet m s
  | .powerLimitSet m => Sys2Proof.Machine.execPowerLimitSet m s
  | .collectorRegister m => Sys2Proof.Machine.execCollectorRegister m s
  | .recordAck m => Sys2Proof.Machine.execRecordAck m s
  | .platformEventMessageResponse sequence => Sys2Proof.Machine.execPlatformEventMessageResponse sequence s
  | .setEventReceiver eid => Sys2Proof.Machine.execSetEventReceiver eid s
  | .ownerKeyFuse m => Sys2Proof.Machine.execOwnerKeyFuse m s
  | .arrayEraseAll m => Sys2Proof.Machine.execArrayEraseAll m s
  | .debugNonce m => Sys2Proof.Machine.execDebugNonce m s
  | .debugUnlock m => Sys2Proof.Machine.execDebugUnlock m s
  | .packet m => Sys2Proof.Machine.execPacket m s
  | .powerControlRailsOff m => Sys2Proof.Machine.execPowerControlRailsOff m s
  | .powerControlPowerUp m => Sys2Proof.Machine.execPowerControlPowerUp m s
  | .powerControlModuleReset m => Sys2Proof.Machine.execPowerControlModuleReset m s
  | .getMeasurements fn => Sys2Proof.Machine.execGetMeasurements fn s
  | .keyEx fn id masterSecret => Sys2Proof.Machine.execKeyEx fn id masterSecret s
  | .keyUpdate fn id => Sys2Proof.Machine.execKeyUpdate fn id s
  | .spdmSessionEnd fn id => Sys2Proof.Machine.execSpdmSessionEnd fn id s
  | .pldmFirmwareUpdate spdm bundle => Sys2Proof.Machine.execPldmFirmwareUpdate spdm bundle s
  | .lodgeImageUpdate spdm image interrupted => Sys2Proof.Machine.execLodgeImageUpdate spdm image interrupted s
  | .recoveryImage image => Sys2Proof.Machine.execRecoveryImage image s
  | .managementMessageDiscarded => Sys2Proof.Machine.execManagementMessageDiscarded s
  | .doorbell fn index value width => Sys2Proof.Machine.execDoorbell fn index value width s
  | .resetCtl fn value => Sys2Proof.Machine.execResetCtl fn value s
  | .bsqCtl fn value => Sys2Proof.Machine.execBsqCtl fn value s
  | .brplCtl fn value => Sys2Proof.Machine.execBrplCtl fn value s
  | .eqCtl fn value => Sys2Proof.Machine.execEqCtl fn value s
  | .mbxCtlLoad fn value => Sys2Proof.Machine.execMbxCtlLoad fn value s
  | .registerWrite fn offset width value => Sys2Proof.Machine.execRegisterWrite fn offset width value s
  | .bar4Access fn offset length data => Sys2Proof.Machine.execBar4Access fn offset length data s
  | .vfEnable numVfs => Sys2Proof.Machine.execVfEnable numVfs s
  | .vfEnableCleared => Sys2Proof.Machine.execVfEnableCleared s
  | .functionLevelReset fn => Sys2Proof.Machine.execFunctionLevelReset fn s
  | .pcieHotReset => Sys2Proof.Machine.execPcieHotReset s
  | .perst asserted => Sys2Proof.Machine.execPerst asserted s
  | .modResetL high lowNs => Sys2Proof.Machine.execModResetL high lowNs s
  | .dStateChange fn d3hot => Sys2Proof.Machine.execDStateChange fn d3hot s
  | .linkTrained rate width => Sys2Proof.Machine.execLinkTrained rate width s
  | .linkDown => Sys2Proof.Machine.execLinkDown s
  | .referenceClockLost => Sys2Proof.Machine.execReferenceClockLost s
  | .referenceClockReturned => Sys2Proof.Machine.execReferenceClockReturned s
  | .mainInputFault v => Sys2Proof.Machine.execMainInputFault v s
  | .mainInputMarginal v => Sys2Proof.Machine.execMainInputMarginal v s
  | .mainInputRestored v => Sys2Proof.Machine.execMainInputRestored v s
  | .standbyInputFault v => Sys2Proof.Machine.execStandbyInputFault v s
  | .standbyInputApplied => Sys2Proof.Machine.execStandbyInputApplied s
  | .standbyInputLost => Sys2Proof.Machine.execStandbyInputLost s
  | .lodgeImageVerified => Sys2Proof.Machine.execLodgeImageVerified s
  | .mainRailsPowerUp => Sys2Proof.Machine.execMainRailsPowerUp s
  | .gatehouseReleased => Sys2Proof.Machine.execGatehouseReleased s
  | .bundleFetchEnd bundle => Sys2Proof.Machine.execBundleFetchEnd bundle s
  | .bootRunning => Sys2Proof.Machine.execBootRunning s
  | .kioskWatchdog => Sys2Proof.Machine.execKioskWatchdog s
  | .watchdogChipReset => Sys2Proof.Machine.execWatchdogChipReset s
  | .gatehouseSilent => Sys2Proof.Machine.execGatehouseSilent s
  | .lodgeSilent => Sys2Proof.Machine.execLodgeSilent s
  | .chipResetComplete found => Sys2Proof.Machine.execChipResetComplete found s
  | .timeStale => Sys2Proof.Machine.execTimeStale s
  | .stepBoundary lane => Sys2Proof.Machine.execStepBoundary lane s
  | .variantRaise => Sys2Proof.Machine.execVariantRaise s
  | .stepEnd lane outs slow => Sys2Proof.Machine.execStepEnd lane outs slow s
  | .recordWrite ring => Sys2Proof.Machine.execRecordWrite ring s
  | .consumerCountReread ring count => Sys2Proof.Machine.execConsumerCountReread ring count s
  | .moderationDelay ring => Sys2Proof.Machine.execModerationDelay ring s
  | .chainHandoff seq => Sys2Proof.Machine.execChainHandoff seq s
  | .kvBlockCopyComplete seq => Sys2Proof.Machine.execKvBlockCopyComplete seq s
  | .kvBlockReturned seq => Sys2Proof.Machine.execKvBlockReturned seq s
  | .buildStart cause => Sys2Proof.Machine.execBuildStart cause s
  | .replanInterval lane => Sys2Proof.Machine.execReplanInterval lane s
  | .buildComplete r => Sys2Proof.Machine.execBuildComplete r s
  | .planReady => Sys2Proof.Machine.execPlanReady s
  | .shardArrival kind handle index bytes => Sys2Proof.Machine.execShardArrival kind handle index bytes s
  | .rehash kind handle index loc bytes again => Sys2Proof.Machine.execRehash kind handle index loc bytes again s
  | .drive site input => Sys2Proof.Machine.execDrive site input s
  | .driveEnd site => Sys2Proof.Machine.execDriveEnd site s
  | .trigger site => Sys2Proof.Machine.execTrigger site s
  | .guard site => Sys2Proof.Machine.execGuard site s
  | .sweepEnd site charges => Sys2Proof.Machine.execSweepEnd site charges s
  | .sweepLimit site => Sys2Proof.Machine.execSweepLimit site s
  | .handover site => Sys2Proof.Machine.execHandover site s
  | .wideRowFetch site row key => Sys2Proof.Machine.execWideRowFetch site row key s
  | .repairTailEnd key => Sys2Proof.Machine.execRepairTailEnd key s
  | .widePathComplete lane node expert => Sys2Proof.Machine.execWidePathComplete lane node expert s
  | .partialArrival key column index unit => Sys2Proof.Machine.execPartialArrival key column index unit s
  | .drainEnd unit => Sys2Proof.Machine.execDrainEnd unit s
  | .sentinelCheckComplete array key probe => Sys2Proof.Machine.execSentinelCheckComplete array key probe s
  | .probeSummary => Sys2Proof.Machine.execProbeSummary s
  | .calibrationDue array => Sys2Proof.Machine.execCalibrationDue array s
  | .calibrationGap site => Sys2Proof.Machine.execCalibrationGap site s
  | .calibrationRoundEnd site charges check timerNs delayNs => Sys2Proof.Machine.execCalibrationRoundEnd site charges check timerNs delayNs s
  | .calibrationTimeout site => Sys2Proof.Machine.execCalibrationTimeout site s
  | .spareRotation site => Sys2Proof.Machine.execSpareRotation site s
  | .sliceCalibration site slice trim => Sys2Proof.Machine.execSliceCalibration site slice trim s
  | .programmingComplete array cells elapsed => Sys2Proof.Machine.execProgrammingComplete array cells elapsed s
  | .programmingMaximumTime array cells adjusted elapsed => Sys2Proof.Machine.execProgrammingMaximumTime array cells adjusted elapsed s
  | .diagnosisComplete site d => Sys2Proof.Machine.execDiagnosisComplete site d s
  | .siteControlTimeout site => Sys2Proof.Machine.execSiteControlTimeout site s
  | .scrubPass target pass f => Sys2Proof.Machine.execScrubPass target pass f s
  | .arrayScrub array cells adjusted => Sys2Proof.Machine.execArrayScrub array cells adjusted s
  | .repairAdapterTrained lane result => Sys2Proof.Machine.execRepairAdapterTrained lane result s
  | .repairAdapterTimeout lane node => Sys2Proof.Machine.execRepairAdapterTimeout lane node s
  | .remoteWrite r => Sys2Proof.Machine.execRemoteWrite r s
  | .remoteRead r => Sys2Proof.Machine.execRemoteRead r s
  | .completionMark owner slot => Sys2Proof.Machine.execCompletionMark owner slot s
  | .windowClosePoint owner slot => Sys2Proof.Machine.execWindowClosePoint owner slot s
  | .windowGuard owner slot => Sys2Proof.Machine.execWindowGuard owner slot s
  | .flitCrcFail quarter router port resent => Sys2Proof.Machine.execFlitCrcFail quarter router port resent s
  | .hbmReadError loc symbol => Sys2Proof.Machine.execHbmReadError loc symbol s
  | .uncorrectableMemoryError loc transient lanes => Sys2Proof.Machine.execUncorrectableMemoryError loc transient lanes s
  | .burstCheckFail loc transient lanes => Sys2Proof.Machine.execBurstCheckFail loc transient lanes s
  | .sramParityError e => Sys2Proof.Machine.execSramParityError e s
  | .stackLost quarter stack => Sys2Proof.Machine.execStackLost quarter stack s
  | .quarterLost quarter requests shards => Sys2Proof.Machine.execQuarterLost quarter requests shards s
  | .recordHoldEnd kind uid => Sys2Proof.Machine.execRecordHoldEnd kind uid s
  | .recordResend => Sys2Proof.Machine.execRecordResend s
  | .diodeSample readings => Sys2Proof.Machine.execDiodeSample readings s
  | .throttle => Sys2Proof.Machine.execThrottle s
  | .powerLevel mean1s mean10ms => Sys2Proof.Machine.execPowerLevel mean1s mean10ms s
  | .outputLevelChange => Sys2Proof.Machine.execOutputLevelChange s
  | .thermalUpdate => Sys2Proof.Machine.execThermalUpdate s
  | .hardThermalTrip channel => Sys2Proof.Machine.execHardThermalTrip channel s
  | .shutdownRearm => Sys2Proof.Machine.execShutdownRearm s
  | .coolantSample inlet outlet external => Sys2Proof.Machine.execCoolantSample inlet outlet external s
  | .heartbeat port => Sys2Proof.Machine.execHeartbeat port s
  | .heartbeatSilent => Sys2Proof.Machine.execHeartbeatSilent s
  | .pairOkIn asserted => Sys2Proof.Machine.execPairOkIn asserted s
  | .mirror m => Sys2Proof.Machine.execMirror m s
  | .mirrorAcknowledgement lane => Sys2Proof.Machine.execMirrorAcknowledgement lane s
  | .pairConfigureTimeout => Sys2Proof.Machine.execPairConfigureTimeout s
  | .portTrainingTimeout port => Sys2Proof.Machine.execPortTrainingTimeout port s
  | .hachateFlit port flit corrected uncorrectable => Sys2Proof.Machine.execHachateFlit port flit corrected uncorrectable s
  | .negativeAcknowledgement port sequence => Sys2Proof.Machine.execNegativeAcknowledgement port sequence s
  | .retrainTimeout port => Sys2Proof.Machine.execRetrainTimeout port s
  | .laneFailure port => Sys2Proof.Machine.execLaneFailure port s
  | .datagram port source payload => Sys2Proof.Machine.execDatagram port source payload s
  | .refusal port source payload => Sys2Proof.Machine.execRefusal port source payload s
  | .datagramResend port => Sys2Proof.Machine.execDatagramResend port s
  | .fabricPortUp port backplane lanes => Sys2Proof.Machine.execFabricPortUp port backplane lanes s
  | .neighbourDiscoveryMessage port network neighbour => Sys2Proof.Machine.execNeighbourDiscoveryMessage port network neighbour s
  | .dynamicAddressAssignment address => Sys2Proof.Machine.execDynamicAddressAssignment address s

end Sys2Proof.Machine
end

