-- ==== Sys2Proof/Safety.lean ====
section
/-! DEFINITION. The terms statements are made in: a safe run, a packet that passes the checks of R452, what a command
leaves as it was. -/

namespace Sys2Proof.Safety
open Sys2Proof.Machine

/-- The outcome is a next state. -/
def Runs (o : Host.Outcome State Fault Refusal) : Prop := ∃ t, o = .next t

/-- The addressed memories are in canonical form. -/
def MemoryWf (s : State) : Prop := s.hostMem.wf = true ∧ s.debugMem.wf = true

/-! ### Packets -/

/-- The chain of a packet as its row reads it: as many bytes as its first unit declares (R446), with the row's opcode. -/
def chainRead (opcode : Nat) (p : Pkt) : Bytes := stampOpcode opcode (padTo (128 * hdrUnits p.chain) p.chain)

/-- A packet of a queue as its meaning gets it. -/
def ctxRead (opcode : Nat) (p : Pkt) (s : State) (q : SubQueue) : Ctx :=
  { origin := { fn := ownerOfQueue s p.queue.val, queue := p.queue.val, ring := q.ring, opcode := opcode,
                tag := hdrTag (chainRead opcode p) }
    session := hdrSession (chainRead opcode p), chain := chainRead opcode p, data := p.data }

/-- The state once a chain of some units has been consumed (R427). -/
def consumed (s : State) (p : Pkt) (q : SubQueue) (units : Nat) : State :=
  { s with queues := sput s.queues p.queue.val { q with consumed := (q.consumed + units) % 65536 } }

/-- The Kiosk firmware reads the packet's whole chain from its queue: it runs, may issue DMA for the queue's function, and
a doorbell covers the chain's last unit (R427, R430). -/
def Read (opcode : Nat) (p : Pkt) (s : State) (q : SubQueue) : Prop :=
  sget s.queues p.queue.val = some q ∧ isRunning s = true ∧ s.boot.kioskHung = false ∧
  dmaAllowed s (ownerOfQueue s p.queue.val) = true ∧
  hdrUnits (chainRead opcode p) ≤ q.depth ∧ hdrUnits (chainRead opcode p) ≤ covered q

/-- The packet is read and passes the checks of R452, below the limit of R456, and Dormant does not hold it back (R567): `c` is
the packet as its meaning gets it, `t` the state it gets, with the chain consumed and the counter of R451 advanced. -/
def Accepted (opcode : Nat) (p : Pkt) (s : State) (c : Ctx) (t : State) : Prop :=
  ∃ q row, Read opcode p s q ∧ opRow opcode = some row ∧ c = ctxRead opcode p s q ∧
    judgePacket (consumed s p q (hdrUnits c.chain)) row c = (t, none) ∧
    (row.long = true → longRunning t c.fn < 64) ∧
    (t.power.state = .dormant → waitsForDies row = false ∧ busyInDormant row.opcode = false)

/-- Every accepted packet of a row, on which `pre` holds of the packet and the state its meaning gets, is carried out: the
command answers the next state `post` gives. -/
def Carries (opcode : Nat) (row : Pkt → Instr) (pre : Ctx → State → Prop) (post : Ctx → State → State) : Prop :=
  ∀ p s c t, Accepted opcode p s c t → pre c t → exec (row p) s = .next (post c t)

/-! ### Management messages and resets -/

/-- A management message that reaches its command: the Lodge runs, the message travelled inside its SPDM session `id`, and it
is a request with no reserved flag (R523, R524). -/
def Inside (m : Mgmt) (s : State) (id : Nat) : Prop :=
  s.lodge.alive = true ∧ m.spdm = some id ∧ (lodgeSession s id).isSome = true ∧ m.flags = 0

/-- What every module reset leaves (R585, R587): power-up begins at event B under a reset code, what the host set up is gone,
fuses stay. -/
def ResetFrom (s u : State) (code : Nat) : Prop :=
  u.boot.sequence = .lodgeRom ∧ u.boot.lastReset = code ∧ u.boot.state = .waiting ∧ u.requests = [] ∧ u.graphs = [] ∧
  u.objects = [] ∧ u.lanes = [] ∧ u.sessions = [] ∧ u.spdm = [] ∧ u.queues = [] ∧ u.rings = [] ∧ u.jobs = [] ∧ u.accounts = [] ∧
  u.lodge.alive = false ∧ u.lodge.debugUnlocked = false ∧ u.fuses = s.fuses ∧ u.now = s.now

/-! ### What a command leaves as it was -/

/-- Everything but host memory, the reply rings, the functions (interrupts pending or sent) and the Lodge's responses: what
a status reply never touches. -/
def SameButReply (s t : State) : Prop :=
  t = { s with hostMem := t.hostMem, rings := t.rings, fns := t.fns, lodge := { s.lodge with responses := t.lodge.responses } }

end Sys2Proof.Safety
end

