-- ==== Sys2Proof/Certificates/Slice0/Obligations.lean ====
section
/-! DEFINITION. The statements for the provers. Each docstring names the rules it formalises; where a clause rests on a choice of
the model, it names the log entry. -/

open Sys2Proof Sys2Proof.Machine Sys2Proof.Safety

/-! ### Packets: sessions, time, queues and rings (R459) -/

/-- SESSION_OPEN (R459, R553): the lowest free handle is bound to no SPDM session, or to the one the packet names, with the key
of R553; an unknown SPDM session and a full table are refused. (The lowest handle is the model's choice, log entry 17.) -/
def Obligations.SessionOpenBindsAFreeHandle : Prop :=
  (∀ h, Carries 0x0001 .sessionOpen
    (fun c t => c.par 0 4 = 0 ∧ firstFree t.sessions 0 4096 = some h)
    (fun c t => replyOk c { t with sessions := sput t.sessions h { fn := c.fn, spdm := none, key := none } } (leBytes 2 h))) ∧
  (∀ h e, Carries 0x0001 .sessionOpen
    (fun c t => c.par 0 4 ≠ 0 ∧ fnSpdm t c.fn (c.par 0 4) = some e ∧ firstFree t.sessions 0 4096 = some h)
    (fun c t =>
      let x : Session := { fn := c.fn, spdm := some (BitVec.ofNat 32 (c.par 0 4)), key := some (sessionKey e.secret h) }
      replyOk c { t with sessions := sput t.sessions h x } (leBytes 2 h))) ∧
  Carries 0x0001 .sessionOpen (fun c t => c.par 0 4 ≠ 0 ∧ fnSpdm t c.fn (c.par 0 4) = none) (fun c t => reply c t .notFound 0 []) ∧
  Carries 0x0001 .sessionOpen (fun c t => c.par 0 4 = 0 ∧ firstFree t.sessions 0 4096 = none)
    (fun c t => reply c t .refusedCapacity 0 [])

/-- SESSION_CLOSE (R404) and SESSION_KEY_UPDATE (R553). A close leaves no session under the handle that a packet passes with,
frees the handle at once if no open request names it, and changes no array, no graph, and no object but adapters whose retirement waited
for requests it ends (R354); a key update binds the session to the SPDM session named, derives its key afresh and leaves its counter; one
that names none is refused. -/
def Obligations.SessionCloseAndKeyUpdate : Prop :=
  (∀ p s c t, Accepted 0x0002 p s c t →
    ∃ u, exec (.sessionClose p) s = .next u ∧
      (∀ x, sget u.sessions c.session = some x → x.closing = true) ∧
      ((∀ e ∈ t.requests, e.2.session ≠ c.session) → sget u.sessions c.session = none) ∧
      u.arrays = t.arrays ∧ u.graphs = t.graphs ∧ u.fuses = t.fuses ∧ (∀ o ∈ u.objects, o ∈ t.objects) ∧
      ∀ o ∈ t.objects, ¬(o.kind = .adapter ∧ o.retiring = true) → o ∈ u.objects) ∧
  (∀ e, Carries 0x0003 .sessionKeyUpdate (fun c t => fnSpdm t c.fn (c.par 0 4) = some e)
    (fun c t => replyOk c { t with sessions := smod t.sessions c.session (fun x =>
      { x with spdm := some e.id, key := some (sessionKey e.secret c.session) }) } [])) ∧
  Carries 0x0003 .sessionKeyUpdate (fun c t => fnSpdm t c.fn (c.par 0 4) = none) (fun c t => reply c t .notFound 0 [])

/-- TIME_MARK (R396–R398): a mark not more than 1 ms before host time is accepted, and host time never runs back; an earlier
one is refused, leaves host time as it was, and is reported by a kind 0x32 record. -/
def Obligations.TimeMarkHoldsOrRefuses : Prop :=
  (∀ p s c t, Accepted 0x0004 p s c t → (t.time.set = false ∨ hostTime t ≤ c.par 0 8 + 1000000) →
    ∃ u, exec (.timeMark p) s = .next (replyOk c u []) ∧ u = { t with time := u.time } ∧ u.time.set = true ∧
      u.time.mark = c.par 0 8 ∧ u.time.markAt = t.now ∧ u.time.stale = false ∧
      (t.time.set = true → hostTime u = max (hostTime t) (c.par 0 8)) ∧ (t.time.set = false → hostTime u = c.par 0 8) ∧
      (t.time.set = true → ∀ d, hostTime { u with now := t.now + d } = max (hostTime t) (c.par 0 8 + u.time.rate * d / 4294967296))) ∧
  Carries 0x0004 .timeMark (fun c t => t.time.set = true ∧ c.par 0 8 + 1000000 < hostTime t)
    (fun c t => reply c (report t 0x32 2 kioskUid (leBytes 8 (c.par 0 8))) .invalid 16 [])

/-- QUEUE_CREATE, QUEUE_DELETE and QUEUE_RESET (R426, R444, R459): a queue of the issuing function is made with its counts 0, one of another
function is refused as a violation; deleting or resetting a queue ends the requests opened through it, and a ring that no open request names
is reset to empty. -/
def Obligations.QueuePackets : Prop :=
  Carries 0x0010 .queueCreate
    (fun c t => ownerOfQueue t (c.par 0 2) = c.fn ∧ c.par 0 2 ≠ bootQueue c.fn ∧ 4 ≤ c.par 2 1 ∧ c.par 2 1 ≤ 12 ∧ c.par 3 1 ≤ 3 ∧
      c.par 4 2 < 4096 ∧ ownerOfRing t (c.par 4 2) = c.fn ∧ c.par 8 8 % 4096 = 0 ∧ shas t.queues (c.par 0 2) = false ∧
      shas t.rings (c.par 4 2) = true)
    (fun c t =>
      let x : SubQueue := { base := BitVec.ofNat 64 (c.par 8 8), depth := 2 ^ c.par 2 1, priority := c.par 3 1,
                            ring := c.par 4 2, producer := 0, consumed := 0 }
      replyOk c { t with queues := sput t.queues (c.par 0 2) x } []) ∧
  Carries 0x0010 .queueCreate
    (fun c t => ownerOfQueue t (c.par 0 2) ≠ c.fn) (fun c t => reply c (violation t c.fn) .invalid 16 []) ∧
  Carries 0x0011 .queueDelete
    (fun c t => ownerOfQueue t (c.par 0 2) = c.fn ∧ c.par 0 2 ≠ bootQueue c.fn ∧ c.par 0 2 ≠ c.origin.queue ∧
      shas t.queues (c.par 0 2) = true)
    (fun c t => replyOk c { t with
      queues := sdel (smod t.queues (c.par 0 2) (fun x => { x with producer := 0, consumed := 0 })) (c.par 0 2)
      requests := smapAll t.requests (fun _ r => if r.queue = c.par 0 2 then { r with cancelled := true } else r) } []) ∧
  Carries 0x0012 .queueReset
    (fun c t => c.par 0 1 = 0 ∧ ownerOfQueue t (c.par 2 2) = c.fn ∧ shas t.queues (c.par 2 2) = true)
    (fun c t => replyOk c { t with
      queues := smod t.queues (c.par 2 2) (fun x => { x with producer := 0, consumed := 0 })
      requests := smapAll t.requests (fun _ r => if r.queue = c.par 2 2 then { r with cancelled := true } else r) } []) ∧
  Carries 0x0012 .queueReset
    (fun c t => c.par 0 1 = 1 ∧ c.par 2 2 < 4096 ∧ ownerOfRing t (c.par 2 2) = c.fn ∧ shas t.rings (c.par 2 2) = true ∧
      ∀ e ∈ t.requests, e.2.ring ≠ c.par 2 2)
    (fun c t => replyOk c { t with rings := smod t.rings (c.par 2 2) (fun r =>
      { r with producer := 0, consumer := 0, held := [], unsignalled := 0, oldestAt := 0 }) } [])

/-- RING_CREATE and RING_DESTROY (R432, R405) on rings of the issuing function: a ring is made empty; destroying one is answered BUSY while an
open request names it or a submission queue of the function posts to it, and frees it otherwise. -/
def Obligations.RingPackets : Prop :=
  Carries 0x0013 .ringCreate
    (fun c t => c.par 0 2 < 4096 ∧ ownerOfRing t (c.par 0 2) = c.fn ∧ c.par 0 2 ≠ bootRing c.fn ∧ 4 ≤ c.par 2 1 ∧ c.par 2 1 ≤ 12 ∧
      1 ≤ c.par 3 1 ∧ c.par 3 1 ≤ 64 ∧ c.par 6 2 ≠ 0 ∧ c.par 6 2 < vectorsOf c.fn ∧ c.par 8 8 % 4096 = 0 ∧
      shas t.rings (c.par 0 2) = false)
    (fun c t =>
      let x : ReplyRing := { base := BitVec.ofNat 64 (c.par 8 8), depth := 2 ^ c.par 2 1, vector := c.par 6 2,
                             modCount := c.par 3 1, modDelay := c.par 4 1, producer := 0, consumer := 0, held := [],
                             unsignalled := 0, oldestAt := 0 }
      replyOk c { t with rings := sput t.rings (c.par 0 2) x } []) ∧
  Carries 0x0014 .ringDestroy
    (fun c t => c.par 0 2 < 4096 ∧ ownerOfRing t (c.par 0 2) = c.fn ∧ c.par 0 2 ≠ bootRing c.fn ∧ shas t.rings (c.par 0 2) = true ∧
      (∀ e ∈ t.requests, e.2.ring ≠ c.par 0 2) ∧ (∀ e ∈ t.queues, e.2.ring = c.par 0 2 → ownerOfQueue t e.1 ≠ c.fn))
    (fun c t => replyOk c { t with rings := sdel t.rings (c.par 0 2) } []) ∧
  Carries 0x0014 .ringDestroy
    (fun c t => c.par 0 2 < 4096 ∧ ownerOfRing t (c.par 0 2) = c.fn ∧ c.par 0 2 ≠ bootRing c.fn ∧ shas t.rings (c.par 0 2) = true ∧
      ∃ e ∈ t.requests, e.2.ring = c.par 0 2)
    (fun c t => reply c t .busy 0 []) ∧
  Carries 0x0014 .ringDestroy
    (fun c t => c.par 0 2 < 4096 ∧ ownerOfRing t (c.par 0 2) = c.fn ∧ c.par 0 2 ≠ bootRing c.fn ∧ shas t.rings (c.par 0 2) = true ∧
      ∃ e ∈ t.queues, e.2.ring = c.par 0 2 ∧ ownerOfQueue t e.1 = c.fn)
    (fun c t => reply c t .busy 0 [])

/-! ### Packets: objects (R460) -/

/-- MODEL_LOAD and ADAPTER_LOAD (R346, R352, R359): a manifest in order that names a new object starts generation 1 under the
lowest free handle and asks for its shards (the lowest handle is the model's choice, log entry 17); one that names a loaded
object, by the digest of its manifest, adds a reference and answers with the handle, or, while that object's first generation is still
loading, waits for it (the model's choice, log entry 114). One that cannot be read is NOT_FOUND. -/
def Obligations.LoadPackets : Prop :=
  (∀ k h, k ≠ .adapter → Carries 0x0101 .modelLoad
    (fun c t => c.data.readable = true ∧ manifestRefusal t c.data.first (c.par 8 4) [0, 1, 3] = none ∧
      (∀ o ∈ t.objects, o.kind ≠ .adapter → o.retiring = false →
        ((currentGen o).orElse (fun _ => o.gens.head?)).map (·.digest) ≠ some (sha256 c.data.first)) ∧
      objKindOf (leAt c.data.first 2 1) = some k ∧ h < handlesOf k ∧ objGet t k h = none ∧ ∀ i < h, objGet t k i ≠ none)
    (fun c t =>
      let g := newGeneration c.data.first 1 (c.par 0 8) false
      requestShards { t with objects := t.objects ++ [{ kind := k, handle := h, gens := [g] }]
                             jobs := t.jobs ++ [⟨c.origin, .load k h⟩] } k h g)) ∧
  (∀ h, Carries 0x0111 .adapterLoad
    (fun c t => c.data.readable = true ∧ manifestRefusal t c.data.first (c.par 8 4) [2] = none ∧
      (∀ o ∈ t.objects, o.kind = .adapter → o.retiring = false →
        ((currentGen o).orElse (fun _ => o.gens.head?)).map (·.digest) ≠ some (sha256 c.data.first)) ∧
      h < handlesOf .adapter ∧ objGet t .adapter h = none ∧ ∀ i < h, objGet t .adapter i ≠ none)
    (fun c t =>
      let g := newGeneration c.data.first 1 (c.par 0 8) false
      requestShards { t with objects := t.objects ++ [{ kind := .adapter, handle := h, gens := [g] }]
                             jobs := t.jobs ++ [⟨c.origin, .load .adapter h⟩] } .adapter h g)) ∧
  (∀ (o : LoadedObject) (g : Generation) (adapter : Bool), Carries (if adapter then 0x0111 else 0x0101) (if adapter then .adapterLoad else .modelLoad)
    (fun c t => c.data.readable = true ∧ c.par 8 4 = c.data.first.length ∧ o ∈ t.objects ∧ (o.kind = .adapter ↔ adapter = true) ∧
      o.retiring = false ∧ o.refs < 255 ∧ currentGen o = some g ∧ g.digest = sha256 c.data.first ∧
      ∀ x ∈ t.objects, (x.kind = .adapter ↔ adapter = true) → x.retiring = false →
        ((currentGen x).orElse (fun _ => x.gens.head?)).map (·.digest) = some (sha256 c.data.first) → x = o)
    (fun c t => replyOk c { t with objects := t.objects.map (fun x => if x.kind = o.kind ∧ x.handle = o.handle then
        { x with refs := x.refs + 1 } else x) }
      (leBytes 2 o.handle ++ leBytes 2 g.number ++ leBytes 1 (o.refs + 1)))) ∧
  (∀ (o : LoadedObject) (g : Generation) (adapter : Bool), Carries (if adapter then 0x0111 else 0x0101) (if adapter then .adapterLoad else .modelLoad)
    (fun c t => c.data.readable = true ∧ c.par 8 4 = c.data.first.length ∧ o ∈ t.objects ∧ (o.kind = .adapter ↔ adapter = true) ∧
      o.retiring = false ∧ o.refs < 255 ∧ currentGen o = none ∧ o.gens.head? = some g ∧ g.digest = sha256 c.data.first ∧
      ∀ x ∈ t.objects, (x.kind = .adapter ↔ adapter = true) → x.retiring = false →
        ((currentGen x).orElse (fun _ => x.gens.head?)).map (·.digest) = some (sha256 c.data.first) → x = o)
    (fun c t => { t with
      objects := t.objects.map (fun x => if x.kind = o.kind ∧ x.handle = o.handle then { x with refs := x.refs + 1 } else x)
      jobs := t.jobs ++ [⟨c.origin, .load o.kind o.handle⟩] })) ∧
  Carries 0x0101 .modelLoad (fun c _ => c.data.readable = false) (fun c t => reply c t .notFound 0 []) ∧
  Carries 0x0111 .adapterLoad (fun c _ => c.data.readable = false) (fun c t => reply c t .notFound 0 [])

/-- MODEL_REPLACE and ADAPTER_REPLACE (R342, R360, R361, R371): the next generation of a loaded object of one generation starts
to load beside it; a generation that asks to serve only when placed is refused with REFUSED_CAPACITY if the arrays do not fit; a handle
that holds two generations already is BUSY. -/
def Obligations.ReplacePackets : Prop :=
  (∀ p s c t fit o k, Accepted 0x0102 p s c t → c.par 12 1 ≠ 2 → objKindOf (c.par 12 1) = some k →
    objGet t k (c.par 14 2) = some o → o.gens.length = 1 → currentGen o ≠ none → c.data.readable = true →
    manifestRefusal t c.data.first (c.par 8 4) [c.par 12 1] = none → (c.par 16 1 % 2 = 1 → fit = true) →
    let g := newGeneration c.data.first (nextGen o.lastGen) (c.par 0 8) (decide (c.par 16 1 % 2 = 1))
    exec (.modelReplace p fit) s = .next (requestShards
      { t with objects := t.objects.map (fun x => if x.kind = k ∧ x.handle = c.par 14 2 then
                 { x with gens := x.gens ++ [g], lastGen := nextGen o.lastGen } else x)
               jobs := t.jobs ++ [⟨c.origin, .replace k (c.par 14 2) (nextGen o.lastGen) (decide (c.par 16 1 % 2 = 1))⟩] }
      k (c.par 14 2) g)) ∧
  (∀ p s c t o k, Accepted 0x0102 p s c t → c.par 12 1 ≠ 2 → objKindOf (c.par 12 1) = some k →
    objGet t k (c.par 14 2) = some o → o.gens.length = 1 → currentGen o ≠ none → c.data.readable = true →
    manifestRefusal t c.data.first (c.par 8 4) [c.par 12 1] = none → c.par 16 1 % 2 = 1 →
    exec (.modelReplace p false) s = .next (reply c t .refusedCapacity 0 [])) ∧
  (∀ o g0, Carries 0x0112 .adapterReplace
    (fun c t => c.par 12 1 = 2 ∧ objGet t .adapter (c.par 14 2) = some o ∧ o.gens = [g0] ∧ g0.state ≠ 1 ∧ o.retiring = false ∧
      c.data.readable = true ∧ manifestRefusal t c.data.first (c.par 8 4) [2] = none)
    (fun c t =>
      let g := newGeneration c.data.first (nextGen o.lastGen) (c.par 0 8) false
      requestShards
        { t with objects := t.objects.map (fun x => if x.kind = .adapter ∧ x.handle = c.par 14 2 then
                   { o with gens := [g0, g], lastGen := nextGen o.lastGen } else x)
                 jobs := t.jobs ++ [⟨c.origin, .replace .adapter (c.par 14 2) (nextGen o.lastGen) false⟩] }
        .adapter (c.par 14 2) g)) ∧
  (∀ o a b, Carries 0x0102 (fun p => .modelReplace p true)
    (fun c t => c.par 12 1 ≠ 2 ∧ (objKindOf (c.par 12 1)).bind (fun k => objGet t k (c.par 14 2)) = some o ∧ o.gens = [a, b] ∧
      currentGen o ≠ none)
    (fun c t => reply c t .busy 0 []))

/-- MODEL_RETIRE and ADAPTER_RETIRE (R352, R354): one reference fewer, or, with the last, the object is freed, an adapter once no request holds
it; a model is BUSY while a graph names it or a replacement is under way. -/
def Obligations.RetirePackets : Prop :=
  (∀ k o, Carries 0x0103 .modelRetire
    (fun c t => c.par 12 1 ≠ 2 ∧ objKindOf (c.par 12 1) = some k ∧ objGet t k (c.par 14 2) = some o ∧ currentGen o ≠ none ∧ 1 < o.refs)
    (fun c t => replyOk c { t with objects := t.objects.map (fun x => if x.kind = k ∧ x.handle = c.par 14 2 then
      { x with refs := x.refs - 1 } else x) } (leBytes 1 (o.refs - 1)))) ∧
  (∀ k o, Carries 0x0103 .modelRetire
    (fun c t => c.par 12 1 ≠ 2 ∧ objKindOf (c.par 12 1) = some k ∧ objGet t k (c.par 14 2) = some o ∧ currentGen o ≠ none ∧
      o.refs ≤ 1 ∧ (graphNames t k (c.par 14 2) = true ∨ 2 ≤ o.gens.length))
    (fun c t => reply c t .busy 0 [])) ∧
  (∀ p s c t k o, Accepted 0x0103 p s c t → c.par 12 1 ≠ 2 → objKindOf (c.par 12 1) = some k →
    objGet t k (c.par 14 2) = some o → currentGen o ≠ none → o.refs ≤ 1 → graphNames t k (c.par 14 2) = false →
    o.gens.length < 2 →
    ∃ u, exec (.modelRetire p) s = .next (replyOk c u (leBytes 1 0)) ∧ objGet u k (c.par 14 2) = none ∧
      u.graphs = t.graphs ∧ u.requests = t.requests ∧ BuildCause.objects ∈ u.planner.queued) ∧
  (∀ o, Carries 0x0113 .adapterRetire
    (fun c t => c.par 12 1 = 2 ∧ objGet t .adapter (c.par 14 2) = some o ∧ currentGen o ≠ none ∧ o.retiring = false ∧ 1 < o.refs)
    (fun c t => replyOk c { t with objects := t.objects.map (fun x => if x.kind = .adapter ∧ x.handle = c.par 14 2 then
      { x with refs := x.refs - 1 } else x) } (leBytes 1 (o.refs - 1)))) ∧
  (∀ p s c t o, Accepted 0x0113 p s c t → c.par 12 1 = 2 → objGet t .adapter (c.par 14 2) = some o → currentGen o ≠ none →
    o.retiring = false → o.refs ≤ 1 →
    ∃ u, exec (.adapterRetire p) s = .next (replyOk c u (leBytes 1 0)) ∧
      (adapterHeld t (c.par 14 2) = false → objGet u .adapter (c.par 14 2) = none) ∧
      (∀ x, objGet u .adapter (c.par 14 2) = some x → x.retiring = true))

/-- The reading packets whose record tables chapters 02 to 14 give (R69, R104, R117, R194, R217, R264, R290, R328, R372, R483):
each answers, through the result buffer of R458, the records of exactly the units it names.
The packets that answer with records in a result buffer (R458): with an aligned buffer that is long enough, the records of
the opcode's table go to host memory and the answer is OK with the bytes written; a buffer too short is refused with the
length it needs, and an unaligned one as INVALID at its field. -/
def Obligations.ReadingPackets : Prop :=
  ((∀ k, Carries 0x0104 .modelStatusRead
    (fun c _ => objKindOf (c.par 12 1) = some k ∧ c.par 14 2 + c.par 16 2 ≤ handlesOf k)
    (fun c t => replyBuffer c t 24 ((List.range (c.par 16 2)).flatMap (fun i => objectRecord t k (c.par 14 2 + i))))) ∧
  Carries 0x0203 .planRead (fun _ _ => True) (fun c t => replyBuffer c t 0 (t.lanes.flatMap (fun e => planRecord t e.1 e.2))) ∧
  (∀ r, Carries 0x0403 .kvMapRead (fun c t => sget t.requests (c.par 0 4) = some r ∧ r.mirrored = false ∧ (r.fn = c.fn ∨ c.fn = 0))
    (fun c t => replyBuffer c t 8 ((r.blocks.drop (c.par 4 4)).flatMap blockDescriptor))) ∧
  Carries 0x0404 .coreStatsRead
    (fun c _ => c.par 0 1 ≤ 3 ∧ 3 ≤ c.par 1 1 ∧ c.par 1 1 ≤ 5 ∧ c.par 2 2 < coresOf (c.par 1 1) ∧
      c.par 2 2 + c.par 4 2 ≤ coresOf (c.par 1 1))
    (fun c t =>
      let first := c.par 0 1 * 2048 + kindBase (c.par 1 1) + c.par 2 2
      let u := coresNow t first (c.par 4 2)
      replyBuffer c u 8 ((List.range (c.par 4 2)).flatMap (fun i => coreRecord u (coreGet u (first + i))))) ∧
  Carries 0x0805 .fabricStatusRead (fun _ _ => True) (fun c t => replyBuffer c t 0 ((List.range 16).flatMap (portRecord t))) ∧
  Carries 0x0501 .arrayStatusRead
    (fun c _ => c.par 0 4 < 2097152 ∧ 1 ≤ c.par 4 4 ∧ c.par 4 4 ≤ 65536 ∧ c.par 0 4 + c.par 4 4 ≤ 2097152)
    (fun c t => replyBuffer c t 8 ((List.range (c.par 4 4)).flatMap (fun i => arrayRecord t (c.par 0 4 + i)))) ∧
  Carries 0x0502 .calTableRead (fun c _ => c.par 0 4 < 2097152) (fun c t => replyBuffer c t 8 (calTableBytes t (c.par 0 4))) ∧
  Carries 0x0504 .siteSeqRead (fun c _ => c.par 0 1 ≤ 3)
    (fun c t =>
      let x := siteGet t (c.par 0 1 * 65536 + c.par 2 2)
      replyBuffer c t 8 (wordBytes ([x.control.toNat, sliceStatus x, x.dac.toNat] ++ x.entries.map (·.toNat)
        ++ [x.satData.toNat, x.satRef.toNat]))) ∧
  Carries 0x0507 .quartzStatsRead (fun c _ => c.par 0 1 ≤ 3 ∧ c.par 2 2 ≤ 4095)
    (fun c t => replyBuffer c t 8 ((unitLayers t (c.par 0 1 * 4096 + c.par 2 2)).flatMap (fun l =>
      leBytes 2 l.1 ++ leBytes 2 l.2 ++ (List.range 10).flatMap (fun i =>
        leBytes 4 (layerCount t (c.par 0 1 * 4096 + c.par 2 2) l i).toNat) ++ leBytes 4 0)))) ∧
  (∀ (c : Ctx) (s : State) (off : Nat) (b : Bytes),
    (c.par off 8 % 64 = 0 → b.length ≤ c.par (off + 8) 4 →
      replyBuffer c s off b = replyOk c { s with hostMem := memWriteBytes s.hostMem (c.par off 8) b } (leBytes 4 b.length)) ∧
    (c.par off 8 % 64 = 0 → c.par (off + 8) 4 < b.length →
      replyBuffer c s off b = reply c s .invalid (2 ^ 30 + (b.length + 63) / 64 % 2 ^ 30) []) ∧
    (c.par off 8 % 64 ≠ 0 → replyBuffer c s off b = reply c s .invalid (16 + off) []))

/-! ### Packets: keys, graphs and plans (R345, R350, R268–R271, R462) -/

/-- PUBLISHER_KEY_REGISTER (R345) fills one of the 16 slots with a public key of the curve, and takes no other slot or point.
REHASH_PERIOD_SET (R350) takes 1 to 168 hours and no other period. PROBE_INSTALL and PROBE_REMOVE (R528): a pack in order, signed by a fused key,
is installed under the lowest free number of eight (the number is the model's choice, log entry 17); a pack whose layout or signature fails,
and a ninth, are refused; an installed pack is removed. -/
def Obligations.KeyRehashAndProbePackets : Prop :=
  (Carries 0x0120 .publisherKeyRegister
    (fun c _ => c.par 0 1 ≤ 15 ∧ onCurve (beNat (c.parBytes 4 32)) (beNat (c.parBytes 36 32)) = true)
    (fun c t =>
      let k := (BitVec.ofNat 256 (beNat (c.parBytes 4 32)), BitVec.ofNat 256 (beNat (c.parBytes 36 32)))
      replyOk c { t with publisherKeys := sput t.publisherKeys (c.par 0 1) k } []) ∧
  Carries 0x0120 .publisherKeyRegister
    (fun c _ => c.par 0 1 ≤ 15 ∧ onCurve (beNat (c.parBytes 4 32)) (beNat (c.parBytes 36 32)) = false)
    (fun c t => reply c t .invalid 20 []) ∧
  Carries 0x0120 .publisherKeyRegister (fun c _ => 15 < c.par 0 1) (fun c t => reply c t .invalid 16 []) ∧
  Carries 0x0121 .rehashPeriodSet (fun c _ => 1 ≤ c.par 0 2 ∧ c.par 0 2 ≤ 168)
    (fun c t => replyOk c { t with reliability := { t.reliability with rehashHours := c.par 0 2 } } []) ∧
  Carries 0x0121 .rehashPeriodSet (fun c _ => c.par 0 2 = 0 ∨ 168 < c.par 0 2) (fun c t => reply c t .invalid 16 [])) ∧
  ((∀ i, Carries 0x0509 .probeInstall
    (fun c t => c.data.readable = true ∧ 768 ≤ c.par 8 4 ∧ c.par 8 4 ≤ 4194304 ∧ c.data.first.length = c.par 8 4 ∧
      firstBad (packChecks c.data.first (c.par 8 4)) = none ∧ packSigned t c.data.first = true ∧ t.probes.length < 8 ∧
      i < 8 ∧ (∀ x ∈ t.probes, x.number ≠ i) ∧ ∀ j < i, ∃ x ∈ t.probes, x.number = j)
    (fun c t => replyOk c { t with probes := t.probes ++
      [{ number := i, vendor := decide (leAt c.data.first 2 1 = 0), bytes := c.data.first }] } (leBytes 2 i))) ∧
  Carries 0x0509 .probeInstall
    (fun c t => c.data.readable = true ∧ 768 ≤ c.par 8 4 ∧ c.par 8 4 ≤ 4194304 ∧ c.data.first.length = c.par 8 4 ∧
      firstBad (packChecks c.data.first (c.par 8 4)) = none ∧ packSigned t c.data.first = false)
    (fun c t => reply c t .authFail 0 []) ∧
  Carries 0x0509 .probeInstall
    (fun c t => c.data.readable = true ∧ 768 ≤ c.par 8 4 ∧ c.par 8 4 ≤ 4194304 ∧ c.data.first.length = c.par 8 4 ∧
      firstBad (packChecks c.data.first (c.par 8 4)) = none ∧ packSigned t c.data.first = true ∧ 8 ≤ t.probes.length)
    (fun c t => reply c t .refusedCapacity 0 []) ∧
  (∀ o, Carries 0x0509 .probeInstall
    (fun c _ => c.data.readable = true ∧ 768 ≤ c.par 8 4 ∧ c.par 8 4 ≤ 4194304 ∧ c.data.first.length = c.par 8 4 ∧
      firstBad (packChecks c.data.first (c.par 8 4)) = some o)
    (fun c t => reply c t .invalid (imageDetail o) [])) ∧
  Carries 0x050A .probeRemove (fun c t => ∃ x ∈ t.probes, x.number = c.par 0 2)
    (fun c t => replyOk c { t with probes := t.probes.filter (fun x => x.number ≠ c.par 0 2) } []) ∧
  Carries 0x050A .probeRemove (fun c t => ∀ x ∈ t.probes, x.number ≠ c.par 0 2) (fun c t => reply c t .notFound 0 []))

/-- GRAPH_SUBMIT waits for a build, up to 16 at a time beside those the running build has taken (R268–R270); GRAPH_RETIRE marks a graph of its
own function and waits for the build that removes it (R271); CHECK_FRACTION_SET waits for the plan that carries its code (R183, R467). Each also causes
a build (R301). -/
def Obligations.GraphPacketsWaitForABuild : Prop :=
  Carries 0x0201 .graphSubmit
    (fun c t => (waitingSubmissions t).length < 16 ∧ c.data.readable = true ∧ c.par 8 4 ≤ 16777216 ∧ c.data.first.length = c.par 8 4)
    (fun c t => forceBuild { t with jobs := t.jobs ++ [⟨c.origin, .graphSubmit c.data.first (c.par 8 4)⟩] } .graphs) ∧
  Carries 0x0201 .graphSubmit (fun _ t => 16 ≤ (waitingSubmissions t).length) (fun c t => reply c t .busy 0 []) ∧
  (∀ g, Carries 0x0202 .graphRetire (fun c t => sget t.graphs (c.par 0 1) = some g ∧ g.fn = c.fn ∧ g.retiring = false)
    (fun c t => forceBuild { t with graphs := smod t.graphs (c.par 0 1) (fun x => { x with retiring := true })
                                    jobs := t.jobs ++ [⟨c.origin, .graphRetire (c.par 0 1)⟩] } .graphs)) ∧
  (∀ g, Carries 0x0202 .graphRetire (fun c t => sget t.graphs (c.par 0 1) = some g ∧ g.fn ≠ c.fn) (fun c t => reply c t .notFound 0 [])) ∧
  Carries 0x0508 .checkFractionSet (fun c _ => c.par 0 1 ≤ 4)
    (fun c t => forceBuild { t with
      planner := { t.planner with wantCheck := some (c.par 0 1) }
      jobs := t.jobs ++ [⟨c.origin, .checkFraction t.planner.checkCode (c.par 0 1)⟩] } .checkFraction) ∧
  Carries 0x0508 .checkFractionSet (fun c _ => 4 < c.par 0 1) (fun c t => reply c t .invalid 16 [])

/-! ### Packets: requests and accounts (R373–R387, R406, R407, R463–R465) -/

/-- REQUEST_OPEN (R384, R465): a packet whose parameters stand and whose names exist is decided under R384, and answered with
the decision; before the first time mark it is answered TIME_STALE (R399).
REQUEST_CANCEL (R406): an open request of the issuing function is marked to end at its lane's next boundary (one that has
ended and whose end record waits is still open, R374, and goes on ending); a handle of another
function, or of none, is NOT_FOUND. -/
def Obligations.RequestPackets : Prop :=
  ((∀ adapter, Carries 0x0301 .requestOpen
    (fun c t => t.time.set = true ∧ firstBad (openChecks t c) = none ∧ c.data.readable = true ∧
      (∀ a, sget t.accounts (c.par 2 2) = some a → a.owner = c.fn) ∧ ownerOfRing t (c.par 6 2) = c.fn ∧
      (∀ g ∈ (if fld (c.par 1 1) 3 3 = 1 then chainStages c else [c.par 0 1]), graphServes t g = true) ∧
      accountServes t (c.par 2 2) = true ∧ shas t.rings (c.par 6 2) = true ∧
      ((c.par 4 2 = 0xFFFF ∧ adapter = none) ∨
        (c.par 4 2 ≠ 0xFFFF ∧ adapter ≠ none ∧ adapterFor t (c.par 0 1) (c.par 4 2) = adapter)))
    (fun c t => answerDecision c (decideOpen t (requestOf t c adapter)))) ∧
  Carries 0x0301 .requestOpen (fun _ t => t.time.set = false) (fun c t => reply c t .timeStale 0 [])) ∧
  ((∀ r, Carries 0x0302 .requestCancel
    (fun c t => sget t.requests (c.par 0 4) = some r ∧ r.fn = c.fn ∧ r.mirrored = false ∧ r.ended = false)
    (fun c t => replyOk c { t with requests := smod t.requests (c.par 0 4) (fun q => { q with cancelled := true }) } [])) ∧
  (∀ r, Carries 0x0302 .requestCancel
    (fun c t => sget t.requests (c.par 0 4) = some r ∧ r.fn = c.fn ∧ r.mirrored = false ∧ r.ended = true)
    (fun c t => replyOk c t [])) ∧
  Carries 0x0302 .requestCancel
    (fun c t => ∀ r, sget t.requests (c.par 0 4) = some r → r.fn ≠ c.fn) (fun c t => reply c t .notFound 0 []))

/-- The decision of R384 and R385: the account's bucket is brought up to host time first; too low a level refuses with
REFUSED_BUDGET and an account at its open limit with REFUSED_CLASS_FULL, and neither opens anything; else, for a request
that needs no KV memory, a free slot in a lane whose deferral queue is empty admits it under a free handle and charges it,
and no free slot defers it at the end of the queue. (That its idle time counts from its admission until its first step ends is the model's choice,
log entry 116.) -/
def Obligations.AdmissionDecision : Prop :=
  ∀ (s : State) (r : Request),
    let u := updateAccount s r.account
    let b := bucketOf u r.account r.cls
    let charge := admissionCharge r.cls r.input
    (b.level < Int.ofNat (charge * 1024) →
      (decideOpen s r).1 = u ∧ ∃ x, (decideOpen s r).2 = .refused .refusedBudget x) ∧
    (Int.ofNat (charge * 1024) ≤ b.level → b.limit ≤ openInClass u r.account r.cls →
      (decideOpen s r).1 = u ∧ ∃ x, (decideOpen s r).2 = .refused .refusedClassFull x) ∧
    (Int.ofNat (charge * 1024) ≤ b.level → openInClass u r.account r.cls < b.limit → r.cls ≠ 2 → u.requests.length < 262144 →
      ∀ h l, freeHandle u = some h → sget u.lanes r.graph = some l →
        (l.deferral = [] → 0 < slotsFree u r.graph → cachedGraph u r.graph = false →
          (decideOpen s r).2 = .admitted h ∧
          sget (decideOpen s r).1.requests h = some { r with
            charge := charge, prompt := 0, order := u.nextOrder, lastStepEnd := hostTime s, state := .running, blocks := [] } ∧
          (decideOpen s r).1.accounts = (addLevel u r.account r.cls (-(Int.ofNat (charge * 1024))) false).accounts) ∧
        (l.deferral.length < 4096 → (l.deferral ≠ [] ∨ slotsFree u r.graph = 0) →
          (∃ e, (decideOpen s r).2 = .deferred h (l.deferral.length + 1) e) ∧
          sget (decideOpen s r).1.lanes r.graph = some { l with deferral := l.deferral ++ [h] } ∧
          sget (decideOpen s r).1.requests h = some { r with
            charge := charge, prompt := 0, order := u.nextOrder, lastStepEnd := hostTime s, state := .deferred }))

/-- ACCOUNT_SET, ACCOUNT_CLOSE and ACCOUNT_READ (R377, R378, R382, R407, R463): a new account starts with full buckets outside a
pair, and one that closes cannot be set; closing one that no open request names frees it; reading answers the three levels and the open requests,
and changes nothing; a function that does not own the account may not read it. -/
def Obligations.AccountPackets : Prop :=
  Carries 0x0303 .accountSet
    (fun c t => c.par 0 2 ≤ 4095 ∧ c.par 2 1 ≤ 63 ∧ sget t.accounts (c.par 0 2) = none ∧ pairHalves t = false ∧
      ∀ k < 3, c.par (4 + 12 * k) 4 ≤ 16777215 ∧ c.par (8 + 12 * k) 4 ≤ 16777215)
    (fun c t =>
      let b := fun (k : Nat) => ({ rate := c.par (4 + 12 * k) 4, burst := c.par (8 + 12 * k) 4, limit := c.par (12 + 12 * k) 2,
                                   level := Int.ofNat (c.par (8 + 12 * k) 4 * 1024), updatedAt := hostTime t } : Bucket)
      replyOk c { t with accounts := sput t.accounts (c.par 0 2) { owner := c.par 2 1, buckets := [b 0, b 1, b 2] } } []) ∧
  (∀ x, Carries 0x0303 .accountSet
    (fun c t => c.par 0 2 ≤ 4095 ∧ c.par 2 1 ≤ 63 ∧ sget t.accounts (c.par 0 2) = some x ∧ x.closing = true ∧
      ∀ k < 3, c.par (4 + 12 * k) 4 ≤ 16777215 ∧ c.par (8 + 12 * k) 4 ≤ 16777215)
    (fun c t => reply c t .busy 0 [])) ∧
  (∀ p s c t x, Accepted 0x0304 p s c t → sget t.accounts (c.par 0 2) = some x → x.closing = false →
    ∃ u, exec (.accountClose p) s = .next (replyOk c u []) ∧
      (∀ y, sget u.accounts (c.par 0 2) = some y → y.closing = true) ∧
      ((∀ e ∈ t.requests, e.2.account ≠ c.par 0 2) → sget u.accounts (c.par 0 2) = none) ∧
      u.requests = t.requests ∧ u.graphs = t.graphs ∧ u.arrays = t.arrays) ∧
  (∀ x, Carries 0x0305 .accountRead
    (fun c t => sget t.accounts (c.par 0 2) = some x ∧ (c.fn = 0 ∨ x.owner = c.fn))
    (fun c t => replyOk c t ([0, 1, 2].flatMap (fun k => leBytes 8 (twos 64 (lgetD x.buckets k {}).level))
      ++ [0, 1, 2].flatMap (fun k => leBytes 2 (openInClass t (c.par 0 2) k))))) ∧
  (∀ x, Carries 0x0305 .accountRead
    (fun c t => sget t.accounts (c.par 0 2) = some x ∧ c.fn ≠ 0 ∧ x.owner ≠ c.fn)
    (fun c t => reply c (violation t c.fn) .invalid 16 []))

/-! ### Packets: memory, units and probes (R466, R467) -/

/-- KV_POOL_SET, KV_SWAP_REGISTER and MEM_READ (R329, R250–R253, R466, R555). A pool size of 64 to 1,024 GiB holds at once if the blocks in use fit
it and none lies past its end, golden copies that no longer fit going to their sources (R23); while they do not fit, it waits. A swap area is
registered, or with length 0 given up, while no block lies there. A read delivers the elements of the access pattern packed at the destination
pitch; each element outside the image is delivered as zero and counts as a violation. (What a shard not yet verified holds is a free value, log
entry 101; blocks past a smaller pool's end are moved when they can be, log entry 118.) -/
def Obligations.MemoryPackets : Prop :=
  Carries 0x0401 .kvPoolSet
    (fun c t => 64 ≤ c.par 0 2 ∧ c.par 0 2 ≤ 1024 ∧ (∀ j ∈ t.jobs, ∀ n, j.work ≠ .kvPool n) ∧ pairHalves t = false ∧
      usedBytes t ≤ c.par 0 2 * 1073741824 ∧
      ∀ e ∈ t.requests, ∀ b ∈ e.2.blocks ++ e.2.reserved, pastEnd (min t.kv.poolGib (c.par 0 2) * 262144) b = false)
    (fun c t => replyOk c (settleTier false { t with kv := { t.kv with poolGib := c.par 0 2, newPool := none } } (planLanes t)) []) ∧
  Carries 0x0401 .kvPoolSet
    (fun c t => 64 ≤ c.par 0 2 ∧ c.par 0 2 ≤ 1024 ∧ (∀ j ∈ t.jobs, ∀ n, j.work ≠ .kvPool n) ∧ pairHalves t = false ∧
      c.par 0 2 * 1073741824 < usedBytes t)
    (fun c t => { t with kv := { t.kv with newPool := some (c.par 0 2) }
                         jobs := t.jobs ++ [⟨c.origin, .kvPool (c.par 0 2)⟩] }) ∧
  (∀ h r b, Carries 0x0401 .kvPoolSet
    (fun c t => 64 ≤ c.par 0 2 ∧ c.par 0 2 ≤ 1024 ∧ (∀ j ∈ t.jobs, ∀ n, j.work ≠ .kvPool n) ∧ sget t.requests h = some r ∧ b ∈ r.blocks ∧
      pastEnd (min t.kv.poolGib (c.par 0 2) * 262144) b = true ∧ b.location ≠ .memoryTier)
    (fun c t => { t with kv := { t.kv with newPool := some (c.par 0 2) }
                         jobs := t.jobs ++ [⟨c.origin, .kvPool (c.par 0 2)⟩] })) ∧
  (∀ j n, Carries 0x0401 .kvPoolSet (fun c t => 64 ≤ c.par 0 2 ∧ c.par 0 2 ≤ 1024 ∧ j ∈ t.jobs ∧ j.work = .kvPool n)
    (fun c t => reply c t .busy 0 [])) ∧
  Carries 0x0401 .kvPoolSet (fun c _ => c.par 0 2 < 64 ∨ 1024 < c.par 0 2) (fun c t => reply c t .invalid 16 []) ∧
  Carries 0x0402 .kvSwapRegister
    (fun c t => c.par 0 8 % 4096 = 0 ∧ c.par 8 8 % 4096 = 0 ∧ c.par 8 8 ≤ 1099511627776 ∧ c.par 8 8 ≠ 0 ∧
      ∀ b ∈ ownBlocks t, b.location ≠ .hostSwap ∧ b.dest ≠ .hostSwap)
    (fun c t => replyOk c { t with kv := { t.kv with swap := some (BitVec.ofNat 64 (c.par 0 8), c.par 8 8) } } []) ∧
  Carries 0x0402 .kvSwapRegister
    (fun c t => c.par 0 8 % 4096 = 0 ∧ c.par 8 8 = 0 ∧ ∀ b ∈ ownBlocks t, b.location ≠ .hostSwap ∧ b.dest ≠ .hostSwap)
    (fun c t => replyOk c { t with kv := { t.kv with swap := none } } []) ∧
  Carries 0x0402 .kvSwapRegister
    (fun c t => c.par 0 8 % 4096 = 0 ∧ c.par 8 8 % 4096 = 0 ∧ c.par 8 8 ≤ 1099511627776 ∧ ∃ b ∈ ownBlocks t, b.location = .hostSwap)
    (fun c t => reply c t .busy 0 []) ∧
  (∀ (k : ObjKind) (g : Generation) (a : Access) (start size : Nat) (out : Bytes), Carries 0x0405 .memRead
    (fun c t => objKindOf (c.par 0 1) = some k ∧ firstBad (accessChecks (c.parBytes 16 16) 16) = none ∧
      (objGet t k (c.par 2 2)).bind (fun o => o.gens.find? (fun x => x.number = c.par 4 2)) = some g ∧
      a = accessOf (c.parBytes 16 16) ∧ start = c.par 8 8 ∧ size = g.shards.foldl (fun n x => n + x.length) 0 ∧
      out = a.deliver (fun i => if start + i < size then goldenByte t g (start + i) else 0) ∧
      c.par 32 8 % 64 = 0 ∧ out.length ≤ c.par 40 4)
    (fun c t => replyOk c { violations (goldenRead t g) c.fn (a.outside (fun i => decide (start + i < size))) with
      hostMem := memWriteBytes t.hostMem (c.par 32 8) out } (leBytes 4 out.length))) ∧
  (∀ k, Carries 0x0405 .memRead
    (fun c t => objKindOf (c.par 0 1) = some k ∧ firstBad (accessChecks (c.parBytes 16 16) 16) = none ∧
      (objGet t k (c.par 2 2)).bind (fun o => o.gens.find? (fun x => x.number = c.par 4 2)) = none)
    (fun c t => reply c t .notFound 0 []))

/-- ARRAY_CAL_RUN, SITE_SEQ_WRITE and SITE_DIAG_RUN (R141, R110–R112, R108, R467). A calibration asked for waits for the array's
next gap; a sequencer is written, or returned to the engine, while no array of its site serves, programs or calibrates, and is answered BUSY
otherwise (a continuous run waits while it does not fit the firing budget, R20; words out of order are INVALID first, the model's choice, log
entry 97); a diagnosis occupies its site, at once or when the site is free for it and the budget allows. -/
def Obligations.UnitControlPackets : Prop :=
  Carries 0x0503 .arrayCalRun
    (fun c t => c.par 0 4 < 2097152 ∧ ((arrGet t (c.par 0 4)).state = .programmed ∨ (arrGet t (c.par 0 4)).state = .serving ∨
      (arrGet t (c.par 0 4)).state = .calibrating))
    (fun c t => { t with jobs := t.jobs ++ [⟨c.origin, .arrayCal (c.par 0 4) false⟩] }) ∧
  Carries 0x0503 .arrayCalRun
    (fun c t => c.par 0 4 < 2097152 ∧ (arrGet t (c.par 0 4)).state = .programming) (fun c t => reply c t .busy 0 []) ∧
  Carries 0x0503 .arrayCalRun
    (fun c t => 2097152 ≤ c.par 0 4 ∨ (arrGet t (c.par 0 4)).state = .erased ∨ (arrGet t (c.par 0 4)).state = .quarantined ∨
      (arrGet t (c.par 0 4)).state = .retired)
    (fun c t => reply c t .invalid 16 []) ∧
  (∀ n, Carries 0x0505 .siteSeqWrite
    (fun c t => c.par 0 1 ≤ 3 ∧ n = c.par 0 1 * 65536 + c.par 2 2 ∧ firstBad (seqChecks c) = none ∧ siteBusy t n = false ∧
      fld (c.par 4 4) 31 30 ≠ 0 ∧ (siteGet t n).activity = .none)
    (fun c t => replyOk c (siteSet t n { siteGet t n with
      control := BitVec.ofNat 32 (c.par 4 4), dac := BitVec.ofNat 32 (c.par 8 4), dacNow := BitVec.ofNat 32 (c.par 8 4)
      entries := (List.range 16).map (fun i => BitVec.ofNat 32 (c.par (12 + 4 * i) 4))
      activity := .host (hostTime t + 10000000000), step := none, nextStep := none, halting := false
      waits := decide (fld (c.par 4 4) 31 30 = 2) && !mayWork t n (.host 0), sweepsRun := 0 }) [])) ∧
  (∀ n, Carries 0x0505 .siteSeqWrite
    (fun c t => c.par 0 1 ≤ 3 ∧ n = c.par 0 1 * 65536 + c.par 2 2 ∧ firstBad (seqChecks c) = none ∧ siteBusy t n = false ∧
      fld (c.par 4 4) 31 30 = 0 ∧ (siteGet t n).activity = .none)
    (fun c t => replyOk c (reloadSite t n) [])) ∧
  (∀ p s c t n, Accepted 0x0505 p s c t → c.par 0 1 ≤ 3 → n = c.par 0 1 * 65536 + c.par 2 2 → firstBad (seqChecks c) = none →
    siteBusy t n = false → fld (c.par 4 4) 31 30 ≠ 0 →
    ∃ u, exec (.siteSeqWrite p) s = .next (replyOk c u []) ∧ u = { t with sites := u.sites } ∧
      (siteGet u n).control = BitVec.ofNat 32 (c.par 4 4) ∧ (siteGet u n).dac = BitVec.ofNat 32 (c.par 8 4) ∧
      (siteGet u n).entries = (List.range 16).map (fun i => BitVec.ofNat 32 (c.par (12 + 4 * i) 4)) ∧
      (siteGet u n).activity = .host (hostTime t + 10000000000)) ∧
  (∀ o, Carries 0x0505 .siteSeqWrite (fun c _ => c.par 0 1 ≤ 3 ∧ firstBad (seqChecks c) = some o) (fun c t => reply c t .invalid (16 + o) [])) ∧
  (∀ n, Carries 0x0505 .siteSeqWrite
    (fun c t => c.par 0 1 ≤ 3 ∧ n = c.par 0 1 * 65536 + c.par 2 2 ∧ firstBad (seqChecks c) = none ∧ siteBusy t n = true)
    (fun c t => reply c t .busy 0 [])) ∧
  (∀ n, Carries 0x0506 .siteDiagRun
    (fun c t => c.par 0 1 ≤ 3 ∧ n = c.par 0 1 * 65536 + c.par 2 2 ∧ siteBusy t n = false ∧ (siteGet t n).activity = .none ∧
      (siteGet t n).step = none ∧ (siteGet t n).nextStep = none ∧ mayWork t n (.diagnosing false) = true)
    (fun c t => { siteSet t n (diagnosisStarts true (siteGet t n)) with jobs := t.jobs ++ [⟨c.origin, .siteDiag n⟩] })) ∧
  (∀ p s c t n, Accepted 0x0506 p s c t → c.par 0 1 ≤ 3 → n = c.par 0 1 * 65536 + c.par 2 2 → siteBusy t n = false →
    ∃ u, exec (.siteDiagRun p) s = .next u ∧ u.jobs = t.jobs ++ [⟨c.origin, .siteDiag n⟩] ∧
      ((siteGet u n).diagnose = true ∨ ∃ r, (siteGet u n).activity = .diagnosing r)) ∧
  (∀ n, Carries 0x0506 .siteDiagRun
    (fun c t => c.par 0 1 ≤ 3 ∧ n = c.par 0 1 * 65536 + c.par 2 2 ∧ siteBusy t n = true) (fun c t => reply c t .busy 0 []))

/-! ### Packets: power, reset, firmware, fabric (R468–R470) -/

/-- THERMAL_READ (R468) answers the readings and changes nothing; THERMAL_SET takes all six thresholds at once, within the limits of
R575, or none and is INVALID; POWER_STATE_SET 2 makes an engine with no open request and no build Dormant (R565, R566), is BUSY beside either and
changes nothing in Dormant; POWER_STATE_SET 0 or 1 brings a Dormant engine to Idle (R568), answers OK, and then carries out what waited. -/
def Obligations.PowerPackets : Prop :=
  Carries 0x0601 .thermalRead (fun _ _ => True)
    (fun c t => replyOk c t (t.thermal.channels.flatMap (fun x => readingField x.failed x.last)
      ++ readingField false t.thermal.inlet ++ readingField false t.thermal.outlet)) ∧
  Carries 0x0602 .thermalSet
    (fun c _ => 480 ≤ c.parInt 0 ∧ c.parInt 0 ≤ 880 ∧ c.parInt 0 ≤ c.parInt 4 ∧ c.parInt 2 + 16 ≤ c.parInt 0 ∧ 560 ≤ c.parInt 4 ∧
      c.parInt 4 ≤ 880 ∧ c.parInt 4 + 40 ≤ c.parInt 8 ∧ c.parInt 6 + 16 ≤ c.parInt 4 ∧ 760 ≤ c.parInt 8 ∧ c.parInt 8 ≤ 920 ∧
      c.parInt 10 + 16 ≤ c.parInt 8)
    (fun c t => replyOk c { t with thermal := { t.thermal with
      warning := c.parInt 0, warningClear := c.parInt 2, throttle := c.parInt 4, throttleClear := c.parInt 6,
      shutdown := c.parInt 8, rearm := c.parInt 10 } } []) ∧
  Carries 0x0602 .thermalSet
    (fun c _ => ¬(480 ≤ c.parInt 0 ∧ c.parInt 0 ≤ 880 ∧ c.parInt 0 ≤ c.parInt 4 ∧ c.parInt 2 + 16 ≤ c.parInt 0 ∧ 560 ≤ c.parInt 4 ∧
      c.parInt 4 ≤ 880 ∧ c.parInt 4 + 40 ≤ c.parInt 8 ∧ c.parInt 6 + 16 ≤ c.parInt 4 ∧ 760 ≤ c.parInt 8 ∧ c.parInt 8 ≤ 920 ∧
      c.parInt 10 + 16 ≤ c.parInt 8))
    (fun c t => reply c t .invalid (16 + (firstBad (thermalChecks (c.parInt 0) (c.parInt 2) (c.parInt 4) (c.parInt 6) (c.parInt 8)
      (c.parInt 10))).getD 0) []) ∧
  (∀ p s c t, Accepted 0x0603 (stampPkt 0 2 p) s c t → t.power.state ≠ .dormant → (∀ e ∈ t.requests, e.2.mirrored = true) →
    t.planner.build = none →
    ∃ u, exec (.powerStateSetDormant p) s = .next (replyOk c u []) ∧ u.power.state = .dormant ∧ u.power.hbmSelfRefresh = true ∧
      u.power.quartersGated = true ∧ (∀ e ∈ u.arrays, e.2.active = none ∧ e.2.staged = none) ∧ u.objects = t.objects ∧
      u.requests = t.requests) ∧
  (∀ p s c t e, Accepted 0x0603 (stampPkt 0 2 p) s c t → t.power.state ≠ .dormant → e ∈ t.requests → e.2.mirrored = false →
    exec (.powerStateSetDormant p) s = .next (reply c t .busy 0 [])) ∧
  (∀ p s c t b, Accepted 0x0603 (stampPkt 0 2 p) s c t → t.power.state ≠ .dormant → t.planner.build = some b →
    exec (.powerStateSetDormant p) s = .next (reply c t .busy 0 [])) ∧
  (∀ p s c t, Accepted 0x0603 (stampPkt 0 2 p) s c t → t.power.state = .dormant →
    exec (.powerStateSetDormant p) s = .next (replyOk c t [])) ∧
  (∀ p s c t, Accepted 0x0603 (activePkt p) s c t → c.par 0 1 ≤ 2 → t.power.state ≠ .dormant →
    exec (.powerStateSetActive p) s = .next (replyOk c t [])) ∧
  (∀ p s c t, Accepted 0x0603 (activePkt p) s c t → c.par 0 1 ≤ 2 → t.power.state = .dormant →
    ∃ u, exec (.powerStateSetActive p) s = .next (releaseWaiting (replyOk c u [])) ∧ u.power.state = .idle ∧ u.power.hbmSelfRefresh = false ∧
      u.power.quartersGated = false ∧ (∀ e ∈ u.arrays, e.2.state = .programmed → e.2.due = true) ∧
      (∀ e ∈ u.lanes, e.2.sitsOut = true) ∧ u.requests = t.requests)

/-- CHIP_RESET (R469, R586, R587): the packet is answered and the chip reset begins: BOOT_STATE reads chip reset, RESET_CTL Last
reset 4, DMA stops, and every request, session, queue and ring is gone; graphs, publisher keys and fuses stay. FIRMWARE_LOAD
(R543): a bundle that passes R539 is staged, in two copies (R356), and with reset when staged the chip reset follows its reply; one whose layout
or digests fail is INVALID at its field, one whose signature or version fails is AUTH_FAIL. -/
def Obligations.ResetAndFirmwarePackets : Prop :=
  (∀ p s c t, Accepted 0x0701 p s c t →
    ∃ u, exec (.chipReset p) s = .next u ∧ u = chipReset (flushCounts (replyOk c t [])) 4 0 ∧ u.boot.state = .chipReset ∧ u.boot.lastReset = 4 ∧ u.boot.dmaStopped = true ∧
      u.requests = [] ∧ u.sessions = [] ∧ u.spdm = [] ∧ u.queues = [] ∧ u.rings = [] ∧ u.jobs = [] ∧ u.time = {} ∧
      u.graphs = t.graphs ∧ u.publisherKeys = t.publisherKeys ∧ u.fuses = t.fuses) ∧
  Carries 0x0702 .firmwareLoad
    (fun c t => bundleLengthOk (c.par 8 4) = true ∧ c.data.readable = true ∧ c.data.first.length = c.par 8 4 ∧
      judgeBundle t.fuses bundleKinds c.data.first = none ∧ c.par 12 1 % 2 = 0)
    (fun c t => replyOk c { t with boot := { t.boot with staged := [c.data.first, c.data.first] } } []) ∧
  Carries 0x0702 .firmwareLoad
    (fun c t => bundleLengthOk (c.par 8 4) = true ∧ c.data.readable = true ∧ c.data.first.length = c.par 8 4 ∧
      judgeBundle t.fuses bundleKinds c.data.first = none ∧ c.par 12 1 % 2 = 1)
    (fun c t => chipReset (flushCounts (replyOk c { t with boot := { t.boot with staged := [c.data.first, c.data.first] } } [])) 4 0) ∧
  (∀ n o, Carries 0x0702 .firmwareLoad
    (fun c t => bundleLengthOk (c.par 8 4) = true ∧ c.data.readable = true ∧ c.data.first.length = c.par 8 4 ∧
      judgeBundle t.fuses bundleKinds c.data.first = some (n, o))
    (fun c t => if n = 6 then reply c t .invalid (2 ^ 31 + o % 2 ^ 30) [] else reply c t .authFail (if n = 4 then 2 else 3) []))

/-- PORT_MODE_SET, WEIGHT_SERVER_REGISTER, KV_PEER_REGISTER and FABRIC_STATUS_READ (R473, R470, R483): a mode that changes takes
the port down and trains it; a pair port cannot be changed while a pair is configured or forms; a slot takes a weight server while no loaded
shard lies there, and a port its KV peer while no block does, else the packet is BUSY; the status records answer through the result buffer. -/
def Obligations.FabricPackets : Prop :=
  Carries 0x0801 .portModeSet
    (fun c t => c.par 0 1 ≤ 15 ∧ c.par 1 1 ≤ 2 ∧ (c.par 0 1 < 4 → t.pair.configured = false ∧ t.pair.phase = .unpaired))
    (fun c t => replyOk c { t with ports := lmod t.ports (c.par 0 1) (fun x => if x.mode = c.par 1 1 then x else
      { mode := c.par 1 1, state := if c.par 1 1 = 0 then 0 else 1 }) } []) ∧
  Carries 0x0801 .portModeSet
    (fun c t => c.par 0 1 < 4 ∧ c.par 1 1 ≤ 2 ∧ (t.pair.configured = true ∨ t.pair.phase ≠ .unpaired)) (fun c t => reply c t .busy 0 []) ∧
  Carries 0x0803 .weightServerRegister
    (fun c t => c.par 0 1 ≤ 63 ∧ c.par 1 1 ≤ 15 ∧ c.par 24 8 ≠ 0 ∧ slotUsed t (c.par 0 1) = false)
    (fun c t =>
      let w : WeightServer := ⟨c.par 1 1, BitVec.ofNat 16 (c.par 4 2), BitVec.ofNat 128 (c.par 8 16), BitVec.ofNat 64 (c.par 24 8)⟩
      replyOk c { t with servers := sput t.servers (c.par 0 1) w } []) ∧
  Carries 0x0803 .weightServerRegister
    (fun c t => c.par 0 1 ≤ 63 ∧ c.par 1 1 ≤ 15 ∧ c.par 24 8 ≠ 0 ∧ slotUsed t (c.par 0 1) = true) (fun c t => reply c t .busy 0 []) ∧
  Carries 0x0804 .kvPeerRegister
    (fun c t => c.par 0 1 ≤ 15 ∧ c.par 1 1 = 1 ∧ ((portGet t (c.par 0 1)).mode = 1 → c.par 8 16 = 0 ∧ c.par 24 2 = 0) ∧ peerUsed t (c.par 0 1) = false)
    (fun c t =>
      let k : KvPeer := ⟨c.par 4 4, BitVec.ofNat 128 (c.par 8 16), BitVec.ofNat 16 (c.par 24 2), false⟩
      replyOk c { t with kv := { t.kv with peers := sput t.kv.peers (c.par 0 1) k } } []) ∧
  Carries 0x0804 .kvPeerRegister
    (fun c t => c.par 0 1 ≤ 15 ∧ c.par 1 1 = 0 ∧ ((portGet t (c.par 0 1)).mode = 1 → c.par 8 16 = 0 ∧ c.par 24 2 = 0) ∧
      peerUsed t (c.par 0 1) = false)
    (fun c t => replyOk c { t with kv := { t.kv with peers := sdel t.kv.peers (c.par 0 1) } } []) ∧
  Carries 0x0804 .kvPeerRegister
    (fun c t => c.par 0 1 ≤ 15 ∧ c.par 1 1 ≤ 1 ∧ ((portGet t (c.par 0 1)).mode = 1 → c.par 8 16 = 0 ∧ c.par 24 2 = 0) ∧
      peerUsed t (c.par 0 1) = true)
    (fun c t => reply c t .busy 0 []) ∧
  Carries 0x0805 .fabricStatusRead (fun _ _ => True) (fun c t => replyBuffer c t 0 ((List.range 16).flatMap (portRecord t)))

/-- PAIR_CONFIGURE (R470, R485): pairing puts the four pair ports in Hachate link mode and waits for the partner, or, where a pair port is up
already, goes on at once; it is BUSY while a pair exists or forms. Unpairing leaves no pair and no mirrored request, and has the plans built for one module. -/
def Obligations.PairPackets : Prop :=
  (∀ p s c t partner, Accepted 0x0802 (stampPkt 0 1 p) s c t → t.pair.phase = .unpaired → pairJob t = false →
    (∀ i < 4, (portGet t i).mode ≠ 1) →
    exec (.pairConfigurePair p partner) s = .next
      { [0, 1, 2, 3].foldl (fun u n => setPortMode u n 1) t with
        jobs := t.jobs ++ [⟨c.origin, .pair (BitVec.ofNat 256 (beNat (c.parBytes 4 32)))⟩]
        pair := { t.pair with phase := .establishing, partnerHash := BitVec.ofNat 256 (beNat (c.parBytes 4 32)),
                              partner := some partner, startedAt := hostTime t, building := false } }) ∧
  (∀ p s c t partner, Accepted 0x0802 (stampPkt 0 1 p) s c t → t.pair.phase = .unpaired → pairJob t = false →
    exec (.pairConfigurePair p partner) s = .next (tryPair
      { [0, 1, 2, 3].foldl (fun u n => setPortMode u n 1) t with
        jobs := t.jobs ++ [⟨c.origin, .pair (BitVec.ofNat 256 (beNat (c.parBytes 4 32)))⟩]
        pair := { t.pair with phase := .establishing, partnerHash := BitVec.ofNat 256 (beNat (c.parBytes 4 32)),
                              partner := some partner, startedAt := hostTime t, building := false } })) ∧
  (∀ p s c t partner, Accepted 0x0802 (stampPkt 0 1 p) s c t → t.pair.phase ≠ .unpaired →
    exec (.pairConfigurePair p partner) s = .next (reply c t .busy 0 [])) ∧
  (∀ p s c t, Accepted 0x0802 (stampPkt 0 0 p) s c t → t.pair.phase ≠ .unpaired →
    ∃ u, exec (.pairConfigureUnpair p) s = .next (replyOk c u []) ∧ u.pair.phase = .unpaired ∧ u.pair.configured = false ∧
      (∀ e ∈ u.requests, e.2.mirrored = false) ∧ BuildCause.pair ∈ u.planner.queued) ∧
  (∀ p s c t, Accepted 0x0802 (stampPkt 0 0 p) s c t → t.pair.phase = .unpaired →
    exec (.pairConfigureUnpair p) s = .next (replyOk c t []))

/-! ### Management messages (R523–R525) -/

/-- A management message outside any SPDM session with the Lodge is discarded, counts as a violation of the internal sources
and changes nothing else (R523, R556), whichever command it carries. -/
def Obligations.ManagementOutsideASessionIsDiscarded : Prop :=
  ∀ (m : Mgmt) (s : State), s.lodge.alive = true → m.spdm = none →
    ∀ i ∈ [Instr.scrubPeriodSet m, .scrubPeriodRead m, .setpointSet m, .powerLimitSet m, .collectorRegister m, .recordAck m,
        .ownerKeyFuse m, .arrayEraseAll m, .debugNonce m, .debugUnlock m, .packet m, .powerControlRailsOff m,
        .powerControlPowerUp m, .powerControlModuleReset m, .managementMessageDiscarded],
      exec i s = .next { s with lodge := { s.lodge with violations := lmod s.lodge.violations 64 (fun w => satAdd32 w 1) } }

/-- The Lodge's settings (R508, R522, R525, R564, R580): the scrub periods, the setpoint and the power limit each take a value in its range and
answer OK, and refuse any other with INVALID and no change; the periods are read; a collector is registered, which sends it every held record, or
with an all-zero address withdrawn; an acknowledgement lets every record up to its sequence number go. -/
def Obligations.ManagementSettings : Prop :=
  ∀ (m : Mgmt) (s : State) (id : Nat), Inside m s id →
    (mgmtPar m 0 1 ≤ 3 → (periodRange (mgmtPar m 0 1)).1 ≤ mgmtPar m 4 4 → mgmtPar m 4 4 ≤ (periodRange (mgmtPar m 0 1)).2 →
      exec (.scrubPeriodSet m) s = .next (mgmtRespond { s with lodge := { s.lodge with
        scrubPeriods := s.lodge.scrubPeriods.set (mgmtPar m 0 1) (mgmtPar m 4 4) } } id m.sequence 0x01 .ok [])) ∧
    (3 < mgmtPar m 0 1 ∨ mgmtPar m 4 4 < (periodRange (mgmtPar m 0 1)).1 ∨ (periodRange (mgmtPar m 0 1)).2 < mgmtPar m 4 4 →
      exec (.scrubPeriodSet m) s = .next (mgmtRespond s id m.sequence 0x01 .invalid [])) ∧
    exec (.scrubPeriodRead m) s = .next (mgmtRespond s id m.sequence 0x02 .ok ((s.lodge.scrubPeriods.take 4).flatMap (leBytes 4))) ∧
    (680 ≤ mgmtPar m 0 2 → mgmtPar m 0 2 ≤ 780 → mgmtPar m 0 2 % 10 = 0 → exec (.setpointSet m) s =
      .next (mgmtRespond { s with lodge := { s.lodge with setpointMv := mgmtPar m 0 2 } } id m.sequence 0x03 .ok [])) ∧
    (mgmtPar m 0 2 < 680 ∨ 780 < mgmtPar m 0 2 ∨ mgmtPar m 0 2 % 10 ≠ 0 → exec (.setpointSet m) s = .next (mgmtRespond s id m.sequence 0x03 .invalid [])) ∧
    (1200 ≤ mgmtPar m 0 2 → mgmtPar m 0 2 ≤ 2400 → exec (.powerLimitSet m) s =
      .next (mgmtRespond { s with lodge := { s.lodge with powerLimit := mgmtPar m 0 2 } } id m.sequence 0x04 .ok [])) ∧
    (mgmtPar m 0 2 < 1200 ∨ 2400 < mgmtPar m 0 2 → exec (.powerLimitSet m) s = .next (mgmtRespond s id m.sequence 0x04 .invalid [])) ∧
    (BitVec.ofNat 128 (mgmtPar m 0 16) = 0 → exec (.collectorRegister m) s =
      .next (mgmtRespond { s with lodge := { s.lodge with collector := none } } id m.sequence 0x05 .ok [])) ∧
    (BitVec.ofNat 128 (mgmtPar m 0 16) ≠ 0 → exec (.collectorRegister m) s = .next (mgmtRespond { s with lodge := { s.lodge with
        collector := some (BitVec.ofNat 128 (mgmtPar m 0 16), BitVec.ofNat 16 (mgmtPar m 16 2))
        sent := (s.lodge.held.map (fun r => (1, r.sequence))).reverse ++ s.lodge.sent
        held := s.lodge.held.map (fun r => { r with sentAt := s.now }) } } id m.sequence 0x05 .ok [])) ∧
    exec (.recordAck m) s = .next (mgmtRespond { s with lodge := { s.lodge with
      held := s.lodge.held.filter (fun r => mgmtPar m 0 4 < r.sequence) } } id m.sequence 0x06 .ok [])

/-- OWNER_KEY_FUSE, ARRAY_ERASE_ALL, DEBUG_NONCE and DEBUG_UNLOCK (R537, R557, R600). The owner key, a point of the curve, is fused once, while
BOOT_STATE reads waiting; an erase, BUSY while the engine is in any other state than waiting or running without a graph, leaves every array
erased, quarantined or retired, one being programmed when its operation has ended (R611), and empties the flash log; a nonce serves one unlock, which only a -D module with a token of the vendor key is granted. (The nonce's bytes are free values, log
entry 4.) -/
def Obligations.ManagementSecurity : Prop :=
  ∀ (m : Mgmt) (s : State) (id : Nat), Inside m s id →
    (s.boot.sequence = .released ∨ s.boot.sequence = .up → s.boot.state = .waiting → s.fuses.ownerKeyHash = 0 → m.payload.length = 64 →
      onCurve (beAt m.payload 0 32) (beAt m.payload 32 32) = false →
      exec (.ownerKeyFuse m) s = .next (mgmtRespond s id m.sequence 0x07 .invalid [])) ∧
    (s.boot.sequence = .released ∨ s.boot.sequence = .up → s.boot.state = .waiting → s.fuses.ownerKeyHash = 0 → m.payload.length = 64 →
      onCurve (beAt m.payload 0 32) (beAt m.payload 32 32) = true → exec (.ownerKeyFuse m) s =
      .next (mgmtRespond { s with fuses := { s.fuses with ownerKeyHash := sha256 m.payload } } id m.sequence 0x07 .ok [])) ∧
    (s.boot.state ≠ .waiting ∨ s.fuses.ownerKeyHash ≠ 0 →
      exec (.ownerKeyFuse m) s = .next (mgmtRespond s id m.sequence 0x07 .busy [])) ∧
    (s.boot.state = .waiting ∨ (s.boot.state = .running ∧ s.graphs = []) →
      ∃ u, exec (.arrayEraseAll m) s = .next (mgmtRespond u id m.sequence 0x08 .ok []) ∧ u.erases = s.erases + 1 ∧
        u.lodge.flashLog = [] ∧ ((∀ n, wearOf s n + 1 < 90000) → u.arrays.map (·.1) = s.arrays.map (·.1)) ∧
        (∀ e ∈ u.arrays, (e.2.program ≠ none → e.2.eraseAfter = true) ∧
          (e.2.program = none → e.2.levels = [] ∧ e.2.active = none ∧ e.2.owner = 0 ∧
            (e.2.state = .erased ∨ e.2.state = .quarantined ∨ e.2.state = .retired))) ∧
        u.requests = s.requests ∧ u.objects = s.objects) ∧
    (s.boot.state ≠ .waiting → (s.boot.state = .running → s.graphs ≠ []) → exec (.arrayEraseAll m) s = .next (mgmtRespond s id m.sequence 0x08 .busy [])) ∧
    (s.fuses.variant = 2 → s.fuses.debugDisabled = false →
      ∃ n, n.length = 32 ∧ exec (.debugNonce m) s = .next (mgmtRespond
        { s with freeIdx := s.freeIdx + 32, lodge := { s.lodge with nonce := some n } } id m.sequence 0x09 .ok n)) ∧
    (s.fuses.variant ≠ 2 ∨ s.fuses.debugDisabled = true →
      exec (.debugNonce m) s = .next (mgmtRespond s id m.sequence 0x09 .invalid [])) ∧
    (∀ n, s.lodge.nonce = some n → m.payload.length = 64 → s.fuses.variant = 2 → s.fuses.debugDisabled = false →
      tokenOk s n m.payload = true → exec (.debugUnlock m) s = .next (mgmtRespond
        { s with lodge := { s.lodge with nonce := none, debugUnlocked := true } } id m.sequence 0x0A .ok [])) ∧
    (∀ n, s.lodge.nonce = some n → m.payload.length = 64 →
      (s.fuses.variant ≠ 2 ∨ s.fuses.debugDisabled = true ∨ tokenOk s n m.payload = false) → exec (.debugUnlock m) s =
      .next (mgmtRespond { s with lodge := { s.lodge with nonce := none } } id m.sequence 0x0A .authFail [])) ∧
    (s.lodge.nonce = none → exec (.debugUnlock m) s = .next (mgmtRespond s id m.sequence 0x0A .authFail []))

/-- POWER_CONTROL (R525, R583, R585): rails off, power up and module reset each take effect and are answered OK; all three are
BUSY while a reset is in progress. -/
def Obligations.PowerControl : Prop :=
  ∀ (m : Mgmt) (s : State) (id : Nat), Inside m s id →
    (resetInProgress s = true → ∀ i ∈ [Instr.powerControlRailsOff m, .powerControlPowerUp m, .powerControlModuleReset m],
      exec i s = .next (mgmtRespond s id m.sequence 0x0C .busy [])) ∧
    (resetInProgress s = false →
      (s.power.railsOn = true → ∃ u, exec (.powerControlRailsOff m) s = .next (mgmtRespond u id m.sequence 0x0C .ok []) ∧
        u.power.railsOn = false ∧ u.power.state = .standby ∧ u.power.offReason = 3 ∧ u.boot.sequence = .waitRails ∧
        u.requests = [] ∧ u.graphs = [] ∧ u.fuses = s.fuses) ∧
      (s.power.railsOn = false → exec (.powerControlRailsOff m) s =
        .next (mgmtRespond { s with power := { s.power with offReason := 3 } } id m.sequence 0x0C .ok [])) ∧
      (s.power.railsOn = true → ∃ u, exec (.powerControlPowerUp m) s = .next (mgmtRespond u id m.sequence 0x0C .ok []) ∧ ResetFrom s u 1) ∧
      (s.power.railsOn = false → ∃ u, exec (.powerControlPowerUp m) s = .next (mgmtRespond u id m.sequence 0x0C .ok []) ∧
        u.boot.sequence = .waitRails ∧ u.boot.lastReset = 1 ∧ u.power.offReason = 0 ∧ u.thermal.shutdowns = [] ∧
        u.thermal.holdOff = false ∧ u.fuses = s.fuses) ∧
      ∃ u, exec (.powerControlModuleReset m) s = .next (mgmtRespond u id m.sequence 0x0C .ok []) ∧ ResetFrom s u 1)

/-- PACKET (R525, R529): a packet the Lodge carries is BUSY while the firmware does not run; else it is checked as any other,
and its status reply is the response's payload: here PROBE_REMOVE of an installed pack. -/
def Obligations.PacketCarriedByTheLodge : Prop :=
  ∀ (m : Mgmt) (s : State) (id : Nat), Inside m s id →
    (s.boot.state ≠ .running → exec (.packet m) s = .next (mgmtRespond s id m.sequence 0x0B .busy [])) ∧
    (∀ (row : OpRow) (t : State) (c : Ctx),
      c = { origin := { fn := 0, queue := 0xFFFF, ring := noRing, via := some id, mgmtSeq := m.sequence,
                        opcode := 0x050A, tag := hdrTag m.payload }
            chain := m.payload, data := {} } →
      s.boot.state = .running → s.boot.kioskHung = false → m.payload.length = 128 * hdrUnits m.payload →
      hdrOpcode m.payload = 0x050A → opRow 0x050A = some row → judgePacket s row c = (t, none) →
      (∃ x ∈ t.probes, x.number = leAt m.payload 16 2) →
      exec (.packet m) s = .next (mgmtRespond { t with probes := t.probes.filter (fun x => x.number ≠ leAt m.payload 16 2) }
        id m.sequence 0x0B .ok (statusReplyBytes .ok 0x050A 0xFFFF 0 (hdrTag m.payload) 0 [])))

/-- Records on their routes (R522): an MCTP acknowledgement lets one record go, a new event receiver is sent every record held,
a record datagram unacknowledged for 10 ms goes again; and a dynamic address replaces the static one (R595). -/
def Obligations.RecordsOnTheirRoutes : Prop :=
  ∀ (s : State),
    (s.lodge.alive = true → s.lodge.eventReceiver ≠ none → ∀ q, exec (.platformEventMessageResponse q) s =
      .next { s with lodge := { s.lodge with held := s.lodge.held.filter (fun r => r.sequence ≠ q.toNat) } }) ∧
    (s.lodge.alive = true → ∀ e, exec (.setEventReceiver e) s = .next { s with lodge := { s.lodge with
      eventReceiver := some e, sent := (s.lodge.held.map (fun r => (0, r.sequence))).reverse ++ s.lodge.sent } }) ∧
    (s.lodge.alive = true → s.lodge.collector ≠ none → exec .recordResend s = .next { s with lodge := { s.lodge with
      sent := ((s.lodge.held.filter (fun r => r.sentAt + 10000000 ≤ s.now)).map (fun r => (1, r.sequence))).reverse ++ s.lodge.sent
      held := s.lodge.held.map (fun r => if r.sentAt + 10000000 ≤ s.now then { r with sentAt := s.now } else r) } }) ∧
    (s.power.state ≠ .off → ∀ a, exec (.dynamicAddressAssignment a) s =
      .next { s with power := { s.power with i3cAddress := a, i3cDynamic := true } })

/-- SPDM (R448, R450, R551–R553): measurements 1 to 7 are those of one state; a new session is held while its responder has
room; a key update changes no host session; the end of a session takes the key from every host session bound to it. -/
def Obligations.SpdmSessions : Prop :=
  ∀ (fn : Option FnId) (s : State),
    (responderThere s fn = true → exec (.getMeasurements fn) s = .next { s with measured := measurements s }) ∧
    (∀ id secret, responderThere s fn = true →
      (s.spdm.filter (fun e => e.fn = spdmFn fn)).length < (if fn.isSome then 8 else 4) →
      (∀ e ∈ s.spdm, e.fn = spdmFn fn → e.id ≠ id) → exec (.keyEx fn id secret) s =
      .next { s with spdm := s.spdm ++ [{ fn := spdmFn fn, id := id, secret := secret, dataKeys := 0, counter := 0 }] }) ∧
    (∀ id secret, (if fn.isSome then 8 else 4) ≤ (s.spdm.filter (fun e => e.fn = spdmFn fn)).length →
      exec (.keyEx fn id secret) s = .next s) ∧
    (∀ id, exec (.keyUpdate fn id) s = .next { s with spdm := s.spdm.map (fun e =>
      if e.fn = spdmFn fn ∧ e.id = id then { e with dataKeys := e.dataKeys + 1 } else e) }) ∧
    (∀ id, ∃ u, exec (.spdmSessionEnd fn id) s = .next u ∧ u = { s with spdm := u.spdm, sessions := u.sessions } ∧
      (∀ e ∈ u.spdm, ¬(e.fn = spdmFn fn ∧ e.id = id)) ∧
      (∀ e ∈ u.sessions, some e.2.fn = spdmFn fn → e.2.spdm ≠ some id) ∧
      u.sessions.map (fun e => (e.1, e.2.counter)) = s.sessions.map (fun e => (e.1, e.2.counter)))

/-- Images the Lodge receives (R539, R542, R546, R547): a bundle is judged as one from the mailbox while the boot ROM waits; a
Lodge image replaces the region, and an interrupted write leaves none; a recovery image that passes restarts a Lodge whose image failed or that is silent, and one that fails changes nothing. -/
def Obligations.ImagesTheLodgeReceives : Prop :=
  ∀ (s : State) (id : Nat) (b : Bytes),
    (s.lodge.alive = true → (lodgeSession s id).isSome = true → s.boot.sequence = .released ∨ s.boot.sequence = .up →
      s.boot.state = .waiting → ∀ n o, judgeBundle s.fuses bundleKinds b = some (n, o) →
      ∃ u, exec (.pldmFirmwareUpdate (some id) b) s = .next u ∧ u.boot.state = .waiting ∧ u.boot.source = 2 ∧ u.boot.mbxStatus = n ∧
        u.boot.fatal = true ∧ u.boot.fatalCause = 6) ∧
    (s.lodge.alive = true → (lodgeSession s id).isSome = true → s.boot.sequence = .released ∨ s.boot.sequence = .up →
      s.boot.state = .waiting → judgeBundle s.fuses bundleKinds b = none → exec (.pldmFirmwareUpdate (some id) b) s = .next { s with boot := { s.boot with
        source := 2, state := .starting, mbxStatus := 3, accepted := some b } }) ∧
    exec (.pldmFirmwareUpdate none b) s = .next s ∧
    (s.lodge.alive = true → (lodgeSession s id).isSome = true → ∀ cut, exec (.lodgeImageUpdate (some id) b cut) s =
      .next { s with lodge := { s.lodge with flashImage := if cut then [] else b } }) ∧
    (s.boot.sequence = .recovery ∨ (s.lodge.alive = false ∧ s.power.state ≠ .off ∧ s.boot.sequence ≠ .lodgeRom) →
      judgeBundle s.fuses lodgeKinds b = none → ∃ u, exec (.recoveryImage b) s = .next u ∧ u.lodge.flashImage = b ∧ u.boot.sequence = .lodgeRom ∧ u.lodge.alive = false ∧
        u.fuses = s.fuses) ∧
    (judgeBundle s.fuses lodgeKinds b ≠ none → exec (.recoveryImage b) s = .next s)

/-! ### Registers, doorbells and the debug aperture (R413–R439, R558, R606) -/

/-- A doorbell (R413, R415, R427, R429): a producer count that advances by at most the depth is taken; one that runs back or too
far changes no queue and is reported; a queue of another function is a violation. -/
def Obligations.DoorbellMovesTheProducer : Prop :=
  ∀ (fn : FnId) (i : Fin 65536) (v : BitVec 64) (s : State) (x : SubQueue) (q : Nat),
    reachable s fn.val = true → q = (if fn.val = 0 then i.val else 1024 * fn.val + i.val) → (fn.val ≠ 0 → i.val < 1024) →
    (ownerOfQueue s q = fn.val → sget s.queues q = some x →
      (v.toNat % 65536 + 65536 - x.consumed) % 65536 ≤ x.depth →
      covered x ≤ (v.toNat % 65536 + 65536 - x.consumed) % 65536 →
      exec (.doorbell fn i v 8) s = .next { s with queues := sput s.queues q { x with producer := v.toNat % 65536 } }) ∧
    (ownerOfQueue s q = fn.val → sget s.queues q = some x →
      x.depth < (v.toNat % 65536 + 65536 - x.consumed) % 65536 ∨
        (v.toNat % 65536 + 65536 - x.consumed) % 65536 < covered x →
      exec (.doorbell fn i v 8) s = .next (reportOf s 0x31 2 pciePortUid (leBytes 2 q ++ leBytes 2 (v.toNat % 65536)) fn.val none)) ∧
    (ownerOfQueue s q ≠ fn.val → ∀ w, exec (.doorbell fn i v w) s = .next (violation s fn.val)) ∧
    (ownerOfQueue s q = fn.val → ∀ w, w ≠ 8 → exec (.doorbell fn i v w) s = .next s)

/-- RESET_CTL (R420, R421) and the mailbox (R438, R439) of the physical function: the key and code begin a chip reset out of the fatal state alone; a
load command while the boot ROM waits starts the fetch of a bundle of an allowed length, refuses another length with FATAL cause 6, and is refused
at other times; virtual functions have neither. -/
def Obligations.ResetControlAndMailbox : Prop :=
  ∀ (v : Word) (s : State), reachable s 0 = true →
    (fld v.toNat 31 24 = 0xC9 → fld v.toNat 23 20 = 1 → s.boot.fatal = true → s.boot.state ≠ .chipReset → s.boot.state ≠ .halted →
      ∃ u, exec (.resetCtl 0 v) s = .next u ∧ u.boot.state = .chipReset ∧ u.boot.lastReset = 5 ∧ u.boot.dmaStopped = true ∧
        u.requests = [] ∧ u.queues = [] ∧ u.fuses = s.fuses) ∧
    (fld v.toNat 31 24 ≠ 0xC9 ∨ s.boot.fatal = false ∨ s.boot.state = .chipReset ∨ s.boot.state = .halted →
      exec (.resetCtl 0 v) s = .next s) ∧
    (fld v.toNat 31 28 = 1 → s.boot.state = .waiting → bundleLengthOk s.boot.mbxLen.toNat = true → exec (.mbxCtlLoad 0 v) s =
      .next { s with boot := { s.boot with source := 1, state := .fetching, mbxStatus := 1 } }) ∧
    (fld v.toNat 31 28 = 1 → s.boot.state = .waiting → bundleLengthOk s.boot.mbxLen.toNat = false → ∃ u, exec (.mbxCtlLoad 0 v) s = .next u ∧
      u.boot.state = .waiting ∧ u.boot.mbxStatus = 6 ∧ u.boot.fatal = true ∧ u.boot.fatalCause = 6) ∧
    (fld v.toNat 31 28 ≠ 1 → exec (.mbxCtlLoad 0 v) s = .next s) ∧
    (fld v.toNat 31 28 = 1 → s.boot.state ≠ .waiting → exec (.mbxCtlLoad 0 v) s =
      .next { s with boot := { s.boot with mbxStatus := 8 } }) ∧
    (∀ fn : FnId, fn ≠ 0 → reachable s fn.val = true →
      exec (.resetCtl fn v) s = .next (violation s fn.val) ∧ exec (.mbxCtlLoad fn v) s = .next (violation s fn.val))

/-- BSQ_CTL, BRPL_CTL and EQ_CTL (R425, R426, R436, R607): enabling with a valid depth while the firmware runs brings the bootstrap queue or the
bootstrap ring into being, its counts 0; enabling the event queue with a valid size starts its counts at 0, and records held for it follow
(R608); what is enabled is not enabled again; disabling takes a queue or ring away. -/
def Obligations.BootstrapRegisters : Prop :=
  ∀ (fn : FnId) (v : Word) (s : State), reachable s fn.val = true →
    let f := fnGet s fn.val
    let d := fld v.toNat 3 0
    (fld v.toNat 31 31 = 1 → f.bsqEnable = false → 4 ≤ d → d ≤ 12 → s.boot.state = .running →
      exec (.bsqCtl fn v) s = .next { s with
        fns := sput s.fns fn.val { f with bsqEnable := true, bsqDepth := d }
        queues := sput s.queues (1024 * fn.val) (SubQueue.mk f.bsqBase (2 ^ d) 0 (64 * fn.val) 0 0) }) ∧
    (fld v.toNat 31 31 = 1 → f.bsqEnable = true → exec (.bsqCtl fn v) s = .next s) ∧
    (fld v.toNat 31 31 = 0 → f.bsqEnable = true → ∃ u, exec (.bsqCtl fn v) s = .next u ∧ (fnGet u fn.val).bsqEnable = false ∧
      sget u.queues (1024 * fn.val) = none) ∧
    (fld v.toNat 31 31 = 0 → f.brplEnable = true → ∃ u, exec (.brplCtl fn v) s = .next u ∧ (fnGet u fn.val).brplEnable = false ∧
      sget u.rings (64 * fn.val) = none) ∧
    (fld v.toNat 31 31 = 1 → f.eqEnable = false → 6 ≤ fld v.toNat 20 16 → fld v.toNat 20 16 ≤ 16 →
      exec (.eqCtl fn v) s = .next (flushIfEnabled (fnSet s fn.val { f with
        eqOverflow := if fld v.toNat 30 30 = 1 then false else f.eqOverflow
        eqEnable := true, eqSize := fld v.toNat 20 16, eqDropped := 0, eqProducer := 0, eqConsumer := 0 }) fn.val)) ∧
    (f.eqEnable = true → fld v.toNat 31 31 = 0 → exec (.eqCtl fn v) s = .next (fnSet s fn.val { f with
        eqOverflow := if fld v.toNat 30 30 = 1 then false else f.eqOverflow, eqEnable := false })) ∧
    (fld v.toNat 31 31 = 1 → f.brplEnable = false → 4 ≤ d → d ≤ 12 → fld v.toNat 21 11 ≠ 0 →
      fld v.toNat 21 11 < vectorsOf fn.val → s.boot.state = .running →
      exec (.brplCtl fn v) s = .next { s with
        fns := sput s.fns fn.val { f with brplEnable := true, brplDepth := d, brplVector := fld v.toNat 21 11 }
        rings := sput s.rings (64 * fn.val) (ReplyRing.mk f.brplBase (2 ^ d) (fld v.toNat 21 11) 1 0 0 0 [] 0 0) }) ∧
    (fld v.toNat 31 31 = 1 → fld v.toNat 21 11 = 0 ∨ vectorsOf fn.val ≤ fld v.toNat 21 11 → exec (.brplCtl fn v) s = .next s) ∧
    (fld v.toNat 31 31 = 1 → f.eqEnable = false → 6 ≤ fld v.toNat 20 16 → fld v.toNat 20 16 ≤ 16 → s.boot.state ≠ .running →
      exec (.eqCtl fn v) s = .next (fnSet s fn.val { f with
        eqOverflow := if fld v.toNat 30 30 = 1 then false else f.eqOverflow
        eqEnable := true, eqSize := fld v.toNat 20 16, eqDropped := 0, eqProducer := 0, eqConsumer := 0 })) ∧
    (f.eqEnable = true → fld v.toNat 31 31 = 1 → exec (.eqCtl fn v) s = .next (fnSet s fn.val { f with
        eqOverflow := if fld v.toNat 30 30 = 1 then false else f.eqOverflow }))

/-- REGISTER_WRITE and BAR4_ACCESS (R416, R558, R606): an aligned write of 4 bytes reaches the register or the MSI-X table entry
at its offset, one of 8 bytes two of them; a misaligned one, one of another width and one to a reserved offset change nothing but the violation count.
The debug aperture reads and writes only while debug unlock holds. -/
def Obligations.RegisterAndApertureWrites : Prop :=
  ∀ (fn : FnId) (v : BitVec 64) (s : State), reachable s fn.val = true →
    let f := fnGet s fn.val
    let w := v.toNat % 2 ^ 32
    (f.eqEnable = false → exec (.registerWrite fn 0x20 4 v) s = .next (fnSet s fn.val { f with eqBase := setLow f.eqBase w })) ∧
    (f.eqEnable = false → exec (.registerWrite fn 0x24 4 v) s = .next (fnSet s fn.val { f with eqBase := setHigh f.eqBase w })) ∧
    (f.eqEnable = true → exec (.registerWrite fn 0x20 4 v) s = .next s) ∧
    (f.pba = [] → exec (.registerWrite fn 0x8008 4 v) s =
      .next (fnSet s fn.val { f with msix := sput f.msix 0 { sgetD f.msix 0 {} with data := BitVec.ofNat 32 w } })) ∧
    (∀ off : Fin 65536, off.val % 4 ≠ 0 → exec (.registerWrite fn off 4 v) s = .next (violation s fn.val)) ∧
    (∀ (off : Fin 65536) (n : Nat), n ≠ 4 → n ≠ 8 → exec (.registerWrite fn off n v) s = .next (violation s fn.val)) ∧
    (f.eqEnable = false → ∃ u, exec (.registerWrite fn 0x20 8 v) s = .next u ∧ u = { s with fns := u.fns } ∧
      (fnGet u fn.val).eqBase = setHigh (setLow f.eqBase w) (v.toNat / 2 ^ 32 % 2 ^ 32)) ∧
    exec (.registerWrite fn 0x14 4 v) s = .next (violation s fn.val) ∧
    (∀ (off : BitVec 30) (n : Nat) (b : Bytes), fn.val = 0 → bar4Live s = true →
      exec (.bar4Access fn off n (some b)) s = .next { s with debugMem := bar4Write s.debugMem off.toNat b }) ∧
    (∀ (off : BitVec 30) (n : Nat), fn.val = 0 → bar4Live s = true →
      exec (.bar4Access fn off n none) s = .next { s with link := { s.link with readData := (List.range n).map (fun i =>
        if off.toNat + i < 0x0C000000 then memRead s.debugMem (off.toNat + i) else 0) } }) ∧
    (∀ (off : BitVec 30) (n : Nat) (b : Bytes), fn.val = 0 → bar4Live s = false →
      exec (.bar4Access fn off n (some b)) s = .next (violation s 0) ∧
      exec (.bar4Access fn off n none) s = .next { s with link := { s.link with readData := List.replicate n 0 } })

/-! ### Functions, link, pins and supplies (R410, R414, R442, R443, R561–R565, R585, R597) -/

/-- VF_ENABLE, its clearing, function-level reset and D-state changes (R414, R442, R570): enabling hands the slices over, ending what ran through
them; clearing takes them back; a function-level reset ends all that is the function's, and the physical function's clears VF Enable too; a
function in D3hot has no DMA until it is back in D0. -/
def Obligations.VirtualFunctions : Prop :=
  (∀ (m : Fin 64) (s : State), reachable s 0 = true → 0 < m.val → s.link.vfEnable = false →
    ∃ u, exec (.vfEnable m) s = .next u ∧ u.link.vfEnable = true ∧ u.link.numVfs = m.val ∧
      (∀ n, 1 ≤ n → n ≤ m.val → (fnGet u n).enabled = true ∧ (fnGet u n).eqEnable = false) ∧
      (∀ e ∈ u.requests, (1 ≤ e.2.queue / 1024 ∧ e.2.queue / 1024 ≤ m.val) → e.2.closing = true) ∧
      u.graphs = s.graphs ∧ u.objects = s.objects ∧ u.arrays = s.arrays) ∧
  (∀ (m : Fin 64) (s : State), reachable s 0 = true → m.val = 0 ∨ s.link.vfEnable = true → exec (.vfEnable m) s = .next s) ∧
  (∀ s : State, reachable s 0 = true → s.link.vfEnable = false → exec .vfEnableCleared s = .next s) ∧
  (∀ s : State, reachable s 0 = true → ∃ u, exec (.functionLevelReset 0) s = .next u ∧ u.link.vfEnable = false ∧ u.link.numVfs = 0 ∧
    (∀ e ∈ u.sessions, e.2.fn ≠ 0) ∧ (∀ e ∈ u.requests, e.2.fn = 0 → e.2.closing = true) ∧ u.graphs = s.graphs ∧ u.arrays = s.arrays) ∧
  (∀ (fn : FnId) (s : State), reachable s fn.val = true → ∃ u, exec (.dStateChange fn false) s = .next u ∧ (fnGet u fn.val).d3hot = false) ∧
  (∀ s : State, reachable s 0 = true → s.link.vfEnable = true →
    ∃ u, exec .vfEnableCleared s = .next u ∧ u.link.vfEnable = false ∧ u.link.numVfs = 0 ∧ (∀ n, (fnGet u n).enabled = false)) ∧
  (∀ (fn : FnId) (s : State), reachable s fn.val = true → fn.val ≠ 0 →
    ∃ u, exec (.functionLevelReset fn) s = .next u ∧ fnGet u fn.val = { enabled := (fnGet s fn.val).enabled } ∧
      (∀ e ∈ u.sessions, e.2.fn ≠ fn.val) ∧ (∀ e ∈ u.spdm, e.fn ≠ some fn.val) ∧
      (∀ e ∈ u.requests, e.2.fn = fn.val → e.2.closing = true) ∧ u.graphs = s.graphs ∧ u.arrays = s.arrays) ∧
  (∀ (fn : FnId) (s : State), reachable s fn.val = true →
    exec (.dStateChange fn true) s = .next (fnSet s fn.val { fnGet s fn.val with d3hot := true }) ∧
    ((fnGet s fn.val).eqEnable = false →
      exec (.dStateChange fn false) s = .next (fnSet s fn.val { fnGet s fn.val with d3hot := false })))

/-- The link and the reference clock (R410, R597, R588 events F and G).
Resets from outside (R443, R585): a hot reset ends every session and clears VF Enable; PERST and MOD_RESET_L held low for
10 µs reset the module; a shorter low level on MOD_RESET_L does nothing else. -/
def Obligations.LinkClockAndResets : Prop :=
  ((∀ (s : State) (rate width : Nat), s.power.perstAsserted = false → s.power.refClock = true →
    (s.boot.sequence = .released ∨ s.boot.sequence = .up) → s.boot.gatehouseSilent = false →
    ∃ u, exec (.linkTrained rate width) s = .next u ∧ u.link.up = true ∧ u.link.rate = rate ∧ u.link.width = width ∧
      u.boot.sequence = .up ∧ (linkCarries rate width < reservedReads s → BuildCause.hostLink ∈ u.planner.queued) ∧
      u.requests = s.requests ∧ u.lanes = s.lanes) ∧
  (∀ s : State, s.link.up = true → exec .linkDown s =
    .next (report { s with link := { s.link with up := false, rate := 0, width := 0 } } 0x30 2 pciePortUid [0, 0])) ∧
  (∀ s : State, s.link.up = false → exec .linkDown s = .next s) ∧
  (∀ s : State, ∃ u, exec .referenceClockLost s = .next u ∧ u.power.refClock = false ∧ u.link.up = false ∧ u.boot = s.boot ∧
    u.requests = s.requests ∧ u.arrays = s.arrays) ∧
  (∀ s : State, exec .referenceClockReturned s = .next { s with power := { s.power with refClock := true } })) ∧
  ((∀ s : State, s.boot.sequence = .up → ∃ u, exec .pcieHotReset s = .next u ∧ u.sessions = [] ∧ u.spdm = [] ∧ u.link.up = false ∧
    u.link.vfEnable = false ∧ u.boot.lastReset = 6 ∧ u.boot.state = s.boot.state ∧ u.graphs = s.graphs ∧ u.arrays = s.arrays) ∧
  (∀ s : State, s.power.state ≠ .off → ∃ u, exec (.perst true) s = .next u ∧ ResetFrom s u 2 ∧ u.power.perstAsserted = true) ∧
  (∀ s : State, exec (.perst false) s = .next { s with power := { s.power with perstAsserted := false } }) ∧
  (∀ (s : State) (n : Nat), 10000 ≤ n → s.power.state ≠ .off → ∃ u, exec (.modResetL false n) s = .next u ∧ ResetFrom s u 1) ∧
  (∀ (s : State) (high : Bool) (n : Nat), n < 10000 →
    exec (.modResetL high n) s = .next { s with power := { s.power with modResetL := high } }))

/-- The supply inputs (R562, R565, R584): a main input outside 42–62 V for more than 1 ms turns the rails off with FATAL cause
7; one at the margin is reported and the engine keeps serving; one restored powers up; and the standby input's loss and
return. -/
def Obligations.SupplyInputs : Prop :=
  (∀ (s : State) (v : Supply), s.lodge.alive = true → s.power.railsOn = true → (v.millivolts < 42000 ∨ 62000 < v.millivolts) →
    1000 < v.micros → ∃ u, exec (.mainInputFault v) s = .next u ∧ u.power.railsOn = false ∧ u.power.state = .standby ∧
      u.power.offReason = 1 ∧ u.power.mainMillivolts = v.millivolts ∧ u.boot.fatal = true ∧ u.boot.fatalCause = 7 ∧ u.requests = []) ∧
  (∀ (s : State) (v : Supply), 42000 ≤ v.millivolts → v.millivolts ≤ 62000 →
    exec (.mainInputFault v) s = .next { s with power := { s.power with mainMillivolts := v.millivolts } }) ∧
  (∀ (s : State) (v : Supply), s.lodge.alive = true → s.power.railsOn = true →
    (42000 ≤ v.millivolts ∧ v.millivolts < 44000) ∨ (60000 < v.millivolts ∧ v.millivolts ≤ 62000) →
    exec (.mainInputMarginal v) s = .next (report { s with power := { s.power with mainMillivolts := v.millivolts } } 0x48 2
      (sensorUid 0) (inputDetail false v.millivolts))) ∧
  (∀ (s : State) (v : Supply), s.lodge.alive = true → s.power.state = .standby → s.power.offReason = 1 → 44000 ≤ v.millivolts →
    v.millivolts ≤ 60000 → 100000 ≤ v.micros → ∃ u, exec (.mainInputRestored v) s = .next u ∧ u.boot.sequence = .waitRails ∧
      u.boot.lastReset = 1 ∧ u.power.offReason = 0 ∧ u.fuses = s.fuses) ∧
  (∀ (s : State) (v : Supply), s.lodge.alive = true → (v.millivolts < 11400 ∨ 12600 < v.millivolts) → 1000 < v.micros →
    (∀ t, s.power.lastStandbyRecord = some t → t + 10000000000 ≤ s.now) → exec (.standbyInputFault v) s =
      .next (report { s with power := { s.power with standbyMillivolts := v.millivolts, lastStandbyRecord := some s.now } } 0x48 2
        (sensorUid 0) (inputDetail true v.millivolts))) ∧
  (∀ s : State, s.power.state = .off → exec .standbyInputApplied s = .next { s with
    power := { s.power with state := .standby, standbyMillivolts := 12000 }, boot := {} }) ∧
  (∀ s : State, s.power.state ≠ .off → ∃ u, exec .standbyInputLost s = .next u ∧ u.power.state = .off ∧ u.requests = [] ∧
    u.graphs = [] ∧ u.fuses = s.fuses ∧ u.lodge.flashLog = s.lodge.flashLog ∧ u.arrays.map (·.1) = s.arrays.map (·.1))

/-! ### Boot and containment (R424, R439–R440, R511–R515, R535, R540–R545, R588) -/

/-- The power-up sequence (R588): each event needs the one before it and leaves the module where the next can happen. -/
def Obligations.PowerUpSequence : Prop :=
  (∀ s : State, s.boot.sequence = .lodgeRom → judgeBundle s.fuses lodgeKinds s.lodge.flashImage = none →
    exec .lodgeImageVerified s = .next { s with
      lodge := { s.lodge with alive := true, runningImage := some s.lodge.flashImage }, boot := { s.boot with sequence := .waitRails } }) ∧
  (∀ s : State, s.boot.sequence = .lodgeRom → judgeBundle s.fuses lodgeKinds s.lodge.flashImage ≠ none →
    exec .lodgeImageVerified s = .next { s with
      boot := { s.boot with sequence := .recovery }, power := { s.power with railsOn := false, state := .standby } }) ∧
  (∀ s : State, s.boot.sequence ≠ .lodgeRom → exec .lodgeImageVerified s = .next s) ∧
  (∀ s : State, s.boot.sequence ≠ .railsUp ∨ s.power.refClock = false → exec .gatehouseReleased s = .next s) ∧
  (∀ s : State, railsMayRise s = true → ∃ u, exec .mainRailsPowerUp s = .next u ∧ u.power.railsOn = true ∧ u.power.state = .idle ∧
    u.boot.sequence = .railsUp ∧ u.thermal.tripLatch = none) ∧
  (∀ s : State, railsMayRise s = false → exec .mainRailsPowerUp s = .next s) ∧
  (∀ s : State, s.boot.sequence = .railsUp → s.power.refClock = true → ∃ u, exec .gatehouseReleased s = .next u ∧
    u.boot.sequence = .released ∧ u.boot.state = .waiting ∧ u.boot.fatal = true ∧ u.boot.fatalCause = 1 ∧ u.boot.dmaStopped = true)

/-- The boot ROM and the firmware (R439, R440, R540, R423): a fetched bundle that passes R539 starts, one that fails leaves the
boot ROM waiting with FATAL cause 6 and the status of R438; a started one runs, clears FATAL bit 31 and lets DMA go. -/
def Obligations.BootToRunning : Prop :=
  (∀ (s : State) (b : Bytes), s.boot.state = .fetching → s.link.up = true → b.length = s.boot.mbxLen.toNat →
    judgeBundle s.fuses bundleKinds b = none →
    exec (.bundleFetchEnd (some b)) s = .next { s with boot := { s.boot with state := .starting, mbxStatus := 3, accepted := some b } }) ∧
  (∀ (s : State) (b : Bytes) (n o : Nat), s.boot.state = .fetching → s.link.up = true → b.length = s.boot.mbxLen.toNat →
    judgeBundle s.fuses bundleKinds b = some (n, o) →
    ∃ u, exec (.bundleFetchEnd (some b)) s = .next u ∧ u.boot.state = .waiting ∧ u.boot.mbxStatus = n ∧ u.boot.fatal = true ∧
      u.boot.fatalCause = 6) ∧
  (∀ s : State, s.boot.state = .fetching → ∃ u, exec (.bundleFetchEnd none) s = .next u ∧ u.boot.state = .waiting ∧
    u.boot.mbxStatus = 7 ∧ u.boot.fatal = true) ∧
  (∀ (s : State) (b : Bytes), s.boot.state = .starting → s.boot.accepted = some b →
    ∃ u, exec .bootRunning s = .next u ∧ u.boot.state = .running ∧ u.boot.running = some b ∧ u.boot.copies = [b, b] ∧
      u.boot.fatal = false ∧ u.boot.dmaStopped = false ∧ u.power.state = .idle ∧
      u.fuses.securityVersion = (if leAt b 13 1 % 2 = 1 then s.fuses.securityVersion ||| versionBits (leAt b 12 1)
        else s.fuses.securityVersion))

/-- The watchdogs, silence and the end of a chip reset (R424, R511–R515, R535, R544): firmware that stops sets FATAL cause 3, and 1 s later the Lodge
resets the chip, or halts the engine if three such resets have begun within the hour; silence of the Gatehouse or the Lodge sets cause 7 and stops
every step; a chip reset ends running the staged bundle or a copy that still passes, waits for one if none does, and ends halted if it was to. -/
def Obligations.WatchdogsAndRecovery : Prop :=
  (∀ s : State, s.boot.state = .running → s.boot.fatal = false → ∃ u, exec .kioskWatchdog s = .next u ∧ u.boot.fatal = true ∧
    u.boot.fatalCause = 3 ∧ u.boot.kioskHung = true ∧ u.boot.dmaStopped = true ∧ u.boot.watchdogAt = some s.now) ∧
  (∀ (s : State) (t : Nat), s.boot.watchdogAt = some t → t + 1000000000 ≤ s.now → s.lodge.alive = true → s.boot.state = .running →
    (recentContainments s).length < 3 → ∃ u, exec .watchdogChipReset s = .next u ∧ u.boot.state = .chipReset ∧ u.boot.lastReset = 3 ∧
      u.boot.containments = s.now :: recentContainments s ∧ u.requests = []) ∧
  (∀ (s : State) (t : Nat), s.boot.watchdogAt = some t → t + 1000000000 ≤ s.now → s.lodge.alive = true → s.boot.state = .running →
    3 ≤ (recentContainments s).length → ∃ u, exec .watchdogChipReset s = .next u ∧ u.boot.state = .halted ∧ u.boot.fatalCause = 4) ∧
  (∀ s : State, s.lodge.alive = true → s.power.railsOn = true → s.boot.gatehouseSilent = false → ∃ u, exec .gatehouseSilent s = .next u ∧
    u.boot.fatal = true ∧ u.boot.fatalCause = 7 ∧ u.link.up = false ∧ u.pair.okOut = false ∧ (∀ e ∈ u.lanes, e.2.step = none)) ∧
  (∀ s : State, s.lodge.alive = true → s.boot.sequence = .up → s.boot.gatehouseSilent = false → ∃ u, exec .lodgeSilent s = .next u ∧
    u.lodge.alive = false ∧ u.boot.fatal = true ∧ u.boot.fatalCause = 7 ∧ (∀ e ∈ u.lanes, e.2.step = none)) ∧
  (∀ (found : ResetFindings) (s : State) (b : Bytes), s.boot.state = .chipReset → s.boot.endsHalted = false → bundleToRun found s = some b →
    ∃ u, exec (.chipResetComplete found) s = .next u ∧ u.boot.state = .running ∧ u.boot.running = some b ∧ u.boot.staged = [] ∧
      u.boot.copies = [b, b] ∧ u.boot.fatal = false) ∧
  (∀ (found : ResetFindings) (s : State), s.boot.state = .chipReset → s.boot.endsHalted = true →
    ∃ u, exec (.chipResetComplete found) s = .next u ∧ u.boot.state = .halted ∧ u.boot.fatal = true ∧ u.boot.fatalCause = 2) ∧
  (∀ (found : ResetFindings) (s : State), s.boot.state ≠ .chipReset → exec (.chipResetComplete found) s = .next s) ∧
  (∀ (found : ResetFindings) (s : State), s.boot.state = .chipReset → s.boot.endsHalted = false → bundleToRun found s = none →
    ∃ u, exec (.chipResetComplete found) s = .next u ∧ u.boot.state = .waiting ∧ u.boot.running = none ∧ u.boot.fatal = true ∧
      u.boot.fatalCause = 1)

/-! ### Lanes, steps and records (R285–R298, R387–R403, R434, R435, R519) -/

/-- Steps and host time (R293, R297, R388, R389, R393, R399). A step that a boundary of a running, not Dormant engine starts has a batch, starts at
the boundary's host time, takes the lane's next step number, and makes the engine Active; the one running request of a lane that nothing holds back
(no cache, no new plan, no budget, ring or DMA in its way) is that batch. A lane in a step has no boundary. A step whose work is complete, and for
whose sequences whole outputs came, ends: none of the lane's layer steps is left, and unless sequences have to be computed again the lane has no step
and keeps its step number; a lane without one has no end. A variant is raised under the next epoch of the same plan: a lane in a step keeps its
plan, epoch and variant, one without switches at once; nothing happens while no level may rise. Host time is stale 1 s after the last mark, not before. -/
def Obligations.LaneSteps : Prop :=
  (∀ (g : LaneId) (s : State) (l : Lane), sget s.lanes g.val = some l → l.step = none → s.boot.state = .running →
    s.boot.kioskHung = false → s.power.state ≠ .dormant → ∃ u, exec (.stepBoundary g) s = .next u ∧
      u.fuses = s.fuses ∧ u.now = s.now ∧ u.boot = s.boot ∧
      ∀ l' st, sget u.lanes g.val = some l' → l'.step = some st → st.batch ≠ [] ∧ st.startedAt = hostTime u ∧
        l'.stepNo = (l.stepNo + 1) % 16777216 ∧ u.power.state = .active) ∧
  (∀ (g : LaneId) (s : State) (l : Lane) (gr : Graph) (h : Nat) (r : Request), s.lanes = [(g.val, l)] → s.requests = [(h, r)] →
    sget s.graphs g.val = some gr → gr.settings.cached = false → gr.settings.rowLength = 0 → s.boot.state = .running → s.boot.kioskHung = false →
    s.power.state ≠ .dormant → s.planner.plan = none → s.objects = [] → s.repairAdapters = [] → s.kv.newPool = none → l.step = none →
    l.sitsOut = false → l.epoch = s.planner.epoch → l.changed = [] → l.deferral = [] → l.plan.layers = [] → r.graph = g.val → r.state = .running →
    r.mirrored = false → r.ended = false → r.closing = false → r.cancelled = false → r.handoff = false → r.deadline = 0 → r.blocks = [] → r.reserved = [] →
    overdrawn (updateAccount s r.account) r = false → recordWaits s h = false → dmaAllowed s r.fn = true →
    ∃ u l' st, exec (.stepBoundary g) s = .next u ∧ sget u.lanes g.val = some l' ∧ l'.step = some st ∧ st.batch = [h] ∧ st.prefill = false ∧
      st.startedAt = hostTime s ∧ st.epoch = l.epoch ∧ st.fill = 1 ∧ u.power.state = .active ∧
      (sget u.requests h).map (·.ran) = some true) ∧
  (∀ (g : LaneId) (s : State) (l : Lane), sget s.lanes g.val = some l → l.step ≠ none → exec (.stepBoundary g) s = .next s) ∧
  (∀ (g : LaneId) (s : State) (l : Lane) (st : LaneStep) (outs : List StepOut) (slow : Bool), sget s.lanes g.val = some l → l.step = some st →
    s.boot.state = .running → s.boot.kioskHung = false → stepWorkDone s g.val l = true →
    (∀ h ∈ st.batch, h ∉ st.recompute → ∃ o ∈ outs, o.seq = h) →
    (∀ o ∈ outs, outputWhole s g.val l { st with excursion := st.excursion || slow } o = true) →
    ∃ u, exec (.stepEnd g outs slow) s = .next u ∧ (∀ x ∈ u.layerSteps, x.key.lane ≠ g) ∧ u.fuses = s.fuses ∧ u.boot = s.boot ∧
      (st.recompute = [] → ∃ l', sget u.lanes g.val = some l' ∧ l'.step = none ∧ l'.stepNo = l.stepNo)) ∧
  (∀ (g : LaneId) (s : State) (l : Lane) (outs : List StepOut) (slow : Bool), sget s.lanes g.val = some l → l.step = none →
    exec (.stepEnd g outs slow) s = .next s) ∧
  (∀ (s : State) (c : Nat), s.planner.plan.isSome = true → raiseTo s = some c → ∃ u, exec .variantRaise s = .next u ∧
    u.planner.variant = c ∧ u.planner.epoch = nextEpoch s.planner.epoch ∧ u.planner.plan = s.planner.plan ∧
    u.fuses = s.fuses ∧ u.boot = s.boot ∧ u.now = s.now ∧
    (∀ g l, sget s.lanes g = some l → (∀ e ∈ s.lanes, e.1 = g → e.2.step ≠ none) → ∃ l', sget u.lanes g = some l' ∧
      l'.plan = l.plan ∧ l'.epoch = l.epoch ∧ l'.level = l.level ∧ l'.step = l.step ∧ l'.stepNo = l.stepNo)) ∧
  (∀ (s : State) (c g : Nat) (l : Lane) (b : Plan) (p : LanePlan), s.lanes = [(g, l)] → l.step = none → s.planner.plan = some b → raiseTo s = some c →
    shas s.graphs g = true → (variantOf b c).find? (fun x => x.graph.val = g) = some p →
    (∀ a ∈ lanesArrays [p], isProgramming (siteGet s (a / 8)).activity = false) →
    ∃ u l', exec .variantRaise s = .next u ∧ sget u.lanes g = some l' ∧ l'.plan = p ∧ l'.level = c ∧
      l'.epoch = nextEpoch s.planner.epoch ∧ l'.lastSwitch = hostTime s) ∧
  (∀ s : State, raiseTo s = none → exec .variantRaise s = .next s) ∧
  (∀ s : State, s.time.set = true → s.time.markAt + 1000000000 < s.now →
    exec .timeStale s = .next { s with time := { s.time with stale := true } }) ∧
  (∀ s : State, s.now ≤ s.time.markAt + 1000000000 → exec .timeStale s = .next s)

/-- An entry on its way to a reply ring (R400, R402, R433, R434, R435): the oldest held entry is written once the ring has a free
entry, at the place its producer count names, and no byte but the entry's, its result's and the count's changes; a full ring has
its consumer count read again; a signal delayed by moderation is sent when its delay has passed. -/
def Obligations.RingEntriesAreWrittenInOrder : Prop :=
  (∀ (n : Fin 4096) (s : State) (r : ReplyRing) (e : RingEntry) (es : List RingEntry), sget s.rings n.val = some r →
    r.held = e :: es → ringFull r = false → dmaAllowed s (ownerOfRing s n.val) = true → e.request = none → e.bytes.length = 64 →
    0 < r.depth → s.hostMem.wf = true →
    ∃ u r', exec (.recordWrite n) s = .next u ∧ sget u.rings n.val = some r' ∧ r'.held = es ∧ r'.producer = r.producer + 1 ∧
      r'.consumer = r.consumer ∧
      memReadBytes u.hostMem (r.base.toNat + 64 * (r.producer % r.depth)) 64 = e.bytes ∧
      memReadBytes u.hostMem (r.base.toNat + 64 * r.depth) 8 = leBytes 8 (r.producer + 1) ∧
      (∀ a, ¬(r.base.toNat + 64 * (r.producer % r.depth) ≤ a ∧ a < r.base.toNat + 64 * (r.producer % r.depth) + 64) →
        ¬(r.base.toNat + 64 * r.depth ≤ a ∧ a < r.base.toNat + 64 * r.depth + 8) →
        ¬(e.dataAt ≤ a ∧ a < e.dataAt + e.data.length) → memRead u.hostMem a = memRead s.hostMem a) ∧
      u = { s with hostMem := u.hostMem, rings := u.rings, fns := u.fns }) ∧
  (∀ (n : Fin 4096) (s : State) (r : ReplyRing), sget s.rings n.val = some r → ringFull r = true → exec (.recordWrite n) s = .next s) ∧
  (∀ (n : Fin 4096) (c : Nat) (s : State) (r : ReplyRing), sget s.rings n.val = some r → ringFull r = true →
    dmaAllowed s (ownerOfRing s n.val) = true →
    exec (.consumerCountReread (.reply n) c) s = .next { s with rings := sput s.rings n.val { r with consumer := c } }) ∧
  (∀ (f : FnId) (c : Nat) (s : State), (fnGet s f.val).eqEnable = true →
    eqEntries (fnGet s f.val) ≤ (fnGet s f.val).eqProducer - (fnGet s f.val).eqConsumer → dmaAllowed s f.val = true →
    exec (.consumerCountReread (.event f) c) s = .next { s with fns := sput s.fns f.val { fnGet s f.val with eqConsumer := c } }) ∧
  (∀ (n : Fin 4096) (s : State) (r : ReplyRing), sget s.rings n.val = some r → 0 < r.unsignalled →
    r.oldestAt + r.modDelay * 1000 ≤ s.now → dmaAllowed s (ownerOfRing s n.val) = true → exec (.moderationDelay n) s =
      .next (signal { s with rings := sput s.rings n.val { r with unsignalled := 0 } } (ownerOfRing s n.val) r.vector)) ∧
  (∀ (n : Fin 4096) (s : State) (r : ReplyRing), sget s.rings n.val = some r → s.now < r.oldestAt + r.modDelay * 1000 →
    exec (.moderationDelay n) s = .next s)

/-- Held records, hand-offs and KV blocks (R333, R336, R391, R392, R519): the last event held for a pair of kind and UID is sent
when its 100 ms end; a hand-off that fails ends its chain with the status, one that succeeds is decided as a request of its own, and none comes while a
record of the stage awaits the partner (log entry 124); a copied block lies at its destination, in the host swap area its bytes as well (log entry 51), and no
refusal can name it any longer; a returned one, whose bytes there are as they were, lies in the memory tier. -/
def Obligations.HeldRecordsHandOffsAndBlocks : Prop :=
  (∀ (k : BitVec 8) (uid : Word) (s : State) (c : RecordCount) (r : ErrorRecord), countOf s k.toNat uid = some c → c.held = some r →
    c.lastIssued + 100000000 ≤ hostTime s → exec (.recordHoldEnd k uid) s =
      .next (emitRecord (setCount s { c with lastIssued := hostTime s, held := none }) { r with count := c.count })) ∧
  (∀ (k : BitVec 8) (uid : Word) (s : State) (c : RecordCount), countOf s k.toNat uid = some c →
    c.held = none ∨ hostTime s < c.lastIssued + 100000000 → exec (.recordHoldEnd k uid) s = .next s) ∧
  (∀ (h : BitVec 32) (s : State) (r : Request) (ch : Chain) (st : Status), sget s.requests h.toNat = some r → r.chain = some ch →
    r.handoff = true → r.ended = false → r.awaiting = [] → formInput s r ch = .error st → exec (.chainHandoff h) s = .next (endRequest s h.toNat st)) ∧
  (∀ (h : BitVec 32) (s t : State) (r q : Request) (ch : Chain) (g n : Nat) (input : Bytes) (docs : List (List Nat)) (set : GraphSettings),
    sget s.requests h.toNat = some r → r.chain = some ch → r.handoff = true → r.ended = false → r.awaiting = [] →
    ch.stages[ch.stage + 1]? = some g → (sget s.graphs g).map (·.settings) = some set → set.cls = 1 → set.rowLength = 0 →
    formInput s r ch = .ok (input, docs) → handoffUsed s + input.length ≤ 4294967296 → rankInputOk input = true →
    graphServes s g = true → accountServes s r.account = true →
    q = { r with
      graph := g, cls := 1, adapter := none, input := input, handoff := false, result := [], ran := false,
      chain := some { ch with stage := ch.stage + 1, documents := docs }, outputs := 0, length := 0, prefilled := 0,
      outAddr := BitVec.ofNat 64 ((ch.outputs[ch.stage + 1]?).getD (0, 0)).1, outLen := ((ch.outputs[ch.stage + 1]?).getD (0, 0)).2,
      outLimit := 0, stop := none, blocks := [], summary := {}, attention := [], carried := [], awaiting := [], state := .deferred } →
    decideOpen { s with requests := sdel s.requests h.toNat } q = (t, .admitted n) →
    exec (.chainHandoff h) s = .next (settleClosing t)) ∧
  (∀ (h : BitVec 32) (s : State) (r : Request), sget s.requests h.toNat = some r → r.awaiting ≠ [] → exec (.chainHandoff h) s = .next s) ∧
  (∀ (h : BitVec 32) (s : State) (r : Request) (b : Block) (i : Nat), sget s.requests h.toNat = some r → s.kv.newPool = none →
    r.blocks[i]? = some b → b.location = .leaving → (∀ j < i, ∀ x, r.blocks[j]? = some x → x.location ≠ .leaving) →
    (b.dest = .hostSwap → dmaAllowed s 0 = true) →
    ∃ u, exec (.kvBlockCopyComplete h) s = .next u ∧ u = { s with requests := u.requests, ports := u.ports, hostMem := u.hostMem } ∧
      u.requests = smod s.requests h.toNat (fun q => { q with
        blocks := lmod q.blocks i (fun x => { x with location := x.dest, address := x.destAt }) }) ∧
      (∀ n, (portGet u n).asked = (portGet s n).asked.filter (fun a => a.purpose ≠ .block h.toNat i)) ∧
      (b.dest ≠ .hostSwap → u.hostMem = s.hostMem) ∧
      (b.dest = .hostSwap → ∀ area, s.kv.swap = some area →
        u.hostMem = memWriteBytes s.hostMem (area.1.toNat + b.destAt * 4096) (blockImage b))) ∧
  (∀ (h : BitVec 32) (s : State) (r : Request) (b : Block) (i : Nat), sget s.requests h.toNat = some r →
    r.blocks[i]? = some b → b.location = .returning → (∀ j < i, ∀ x, r.blocks[j]? = some x → x.location ≠ .returning) →
    (b.dest = .hostSwap → dmaAllowed s 0 = true ∧ ∀ area, s.kv.swap = some area →
      memReadBytes s.hostMem (area.1.toNat + b.destAt * 4096) (blockImage b).length = blockImage b) → (b.dest = .hostSwap → s.kv.swap ≠ none) →
    ∃ u, exec (.kvBlockReturned h) s = .next u ∧ u = { s with requests := u.requests, kv := { s.kv with peers := u.kv.peers } } ∧
      u.requests = smod s.requests h.toNat (fun q => { q with blocks := lmod q.blocks i (fun x => { x with location := .memoryTier }) }) ∧
      (b.dest ≠ .peer → u.kv.peers = s.kv.peers) ∧
      (b.dest = .peer → u.kv.peers = smod s.kv.peers b.port (fun p => { p with full := false })))

/-! ### Builds, plans and loads (R270, R291–R293, R300, R301, R348, R350, R351) -/

/-- Builds and plans (R269–R271, R291, R292, R300, R301). One build at a time starts, while the engine can build: on a cause that waits, or when a
lane's re-plan interval has passed since its last switch (never at 0xFFFF); it takes every cause and submission that waits, and the retired graphs
whose last request has ended. One that completes within what log entry 7 lists (one that breaks a rule never completes, the model's choice) and
changes nothing (it was forced by submissions alone, and accepts none and removes none) leaves plan, epoch and lanes as they are; any other leaves a
plan that waits, or one that is ready and takes the next epoch. A plan that waits becomes the plan under the next epoch once the conditions of R292 are met, not
before. -/
def Obligations.BuildsAndPlans : Prop :=
  (∀ (c : BuildCause) (s : State), canBuild s = true → c ∈ s.planner.queued → exec (.buildStart c) s = .next { s with planner := { s.planner with
    build := some { startedAt := hostTime s, begunAt := s.now, causes := s.planner.queued, submissions := (waitingSubmissions s).length,
                      removes := removableGraphs s }, queued := [] } }) ∧
  (∀ (c : BuildCause) (s : State), s.planner.build ≠ none → exec (.buildStart c) s = .next s) ∧
  (∀ (g : LaneId) (s : State) (l : Lane) (gr : Graph), sget s.lanes g.val = some l → sget s.graphs g.val = some gr → canBuild s = true →
    gr.settings.replan ≠ 0xFFFF → l.switchedAt + gr.settings.replan * 1000000000 ≤ hostTime s →
    exec (.replanInterval g) s = .next { s with planner := { s.planner with
      build := some { startedAt := hostTime s, begunAt := s.now, causes := s.planner.queued, submissions := (waitingSubmissions s).length,
                      removes := removableGraphs s }, queued := [] } }) ∧
  (∀ (g : LaneId) (s : State) (gr : Graph), sget s.graphs g.val = some gr → gr.settings.replan = 0xFFFF →
    exec (.replanInterval g) s = .next s) ∧
  (∀ (r : BuildResult) (s : State) (b : Build), s.planner.build = some b → buildStands r b s = true →
    ∃ u, exec (.buildComplete r) s = .next u ∧ u.planner.build = none ∧
    u.fuses = s.fuses ∧ u.boot = s.boot ∧
    (changesNothing b (buildDecides r b s).new = true → u.planner.plan = s.planner.plan ∧ u.planner.waiting = s.planner.waiting ∧
      u.planner.epoch = s.planner.epoch ∧ u.lanes = s.lanes) ∧
    (changesNothing b (buildDecides r b s).new = false → (u.planner.waiting = none ∧ u.planner.epoch = nextEpoch s.planner.epoch ∧ ∃ p, u.planner.plan = some p ∧ p.epoch = u.planner.epoch) ∨
      (u.planner.waiting ≠ none ∧ u.planner.epoch = s.planner.epoch ∧ u.planner.plan = s.planner.plan))) ∧
  (∀ (r : BuildResult) (s : State), s.planner.build = none → exec (.buildComplete r) s = .next s) ∧
  (∀ (r : BuildResult) (s : State) (b : Build), s.planner.build = some b → buildStands r b s = false →
    exec (.buildComplete r) s = .next s) ∧
  (∀ (s : State) (p : Plan), s.planner.waiting = some p → planIsReady s p = true → ∃ u, exec .planReady s = .next u ∧
    u.planner.waiting = none ∧ u.planner.epoch = nextEpoch s.planner.epoch ∧ u.planner.checkCode = p.checkCode ∧
    u.planner.plan = some { p with epoch := u.planner.epoch, ready := true } ∧ u.fuses = s.fuses ∧ u.boot = s.boot) ∧
  (∀ (s : State) (p : Plan), s.planner.waiting = some p → planIsReady s p = false → exec .planReady s = .next s)

/-- Shards and re-hash passes (R348, R350, R351), of any generation an object holds. A shard whose bytes have its length and hash, and in which no
graph finds a fault, is verified and held with those bytes; one that does not match is fetched again, and a second time abandons the load with
INTEGRITY_FAIL; a source that cannot be read abandons it with NOT_FOUND. A re-hash of a shard the pass has not read yet, outside MEMORY mode
(a generation in MEMORY mode is left alone): a match of the last one completes the pass, passed or, after a transient mismatch in it, transient; a
mismatch that the second hash does not repeat is reported as record 0x16; one that it repeats is contained as 0x17 when the shard lies in the memory
tier, and reported with its source, as INTEGRITY_FAIL, when it lies in the outer tier. -/
def Obligations.ShardsAreHashed : Prop :=
  ∀ (k : ObjKind) (h : Fin 16384) (r : ShardRef) (s : State) (o : LoadedObject) (g : Generation) (x : Shard),
    s.boot.state = .running → s.power.state ≠ .dormant → objGet s k h.val = some o → o.gens.find? (fun y => y.number = r.generation) = some g →
    g.shards[r.index]? = some x →
    (x.verified = false → k ≠ .store → ∀ b : Bytes, b.length = x.length → sha256 b = x.digest → shardFault s k h.val g r.index b = none →
      ∃ u o' g' y, exec (.shardArrival k h r (some b)) s = .next u ∧ u.fuses = s.fuses ∧ u.boot = s.boot ∧
        objGet u k h.val = some o' ∧ o'.gens.find? (fun z => z.number = r.generation) = some g' ∧ g'.shards[r.index]? = some y ∧
        y.verified = true ∧ y.bytes = b) ∧
    (x.verified = false → g.state = 1 → exec (.shardArrival k h r none) s = .next (abandonGen s k h.val r.generation .notFound 0)) ∧
    (x.verified = false → x.failedOnce = false → ∀ b : Bytes, b.length ≠ x.length ∨ sha256 b ≠ x.digest → exec (.shardArrival k h r (some b)) s =
      .next (requestShard k h.val r.generation (forgetFetch
        (genMod s k h.val r.generation (fun y => { y with shards := lmod y.shards r.index (fun z => { z with failedOnce := true }) }))
        (fun f => decide (f = (k, h.val, r.generation, r.index)))) (r.index, x))) ∧
    (x.verified = false → g.state = 1 → x.failedOnce = true → ∀ b : Bytes, b.length ≠ x.length ∨ sha256 b ≠ x.digest →
      exec (.shardArrival k h r (some b)) s = .next (abandonGen s k h.val r.generation .integrityFail 0)) ∧
    (g.mode ≠ 1 → g.state ≠ 1 → x.verified = true → x.rehashed = false → ∀ (loc : HbmLoc) (b again : Bytes), sha256 b = x.digest →
      (∀ j y, j ≠ r.index → g.shards[j]? = some y → y.rehashed = true) → exec (.rehash k h r loc b again) s = .next
        (genMod s k h.val r.generation (fun _ => { g with
          shards := lmod g.shards r.index (fun y => { y with rehashed := true }),
          rehash := if g.rehashTransient then 2 else 1, rehashTransient := false }))) ∧
    (g.mode ≠ 1 → g.state ≠ 1 → x.verified = true → x.rehashed = false → ∀ (loc : HbmLoc) (b again : Bytes),
      sha256 b ≠ x.digest → sha256 again = x.digest → exec (.rehash k h r loc b again) s =
        .next (report (shardRehashed s k h.val g r.index true) 0x16 1 (hbmUid loc.quarter.val loc.stack.val loc.pseudo.val)
          (padTo 8 (leBytes 2 h.val ++ leBytes 2 r.index) ++ leBytes 1 2))) ∧
    (g.mode ≠ 1 → g.state ≠ 1 → x.verified = true → x.rehashed = false → ∀ (loc : HbmLoc) (b again : Bytes),
      sha256 b ≠ x.digest → sha256 again ≠ x.digest → exec (.rehash k h r loc b again) s = .next
        (if x.inMemoryTier then contain s 0x17 (hbmUid loc.quarter.val loc.stack.val loc.pseudo.val)
            (padTo 8 (leBytes 2 h.val ++ leBytes 2 r.index) ++ leBytes 1 2) none
          else sourceReport (shardRehashed s k h.val g r.index false) h.val r.index x .integrityFail)) ∧
    (g.mode = 1 → ∀ (loc : HbmLoc) (b again : Bytes), exec (.rehash k h r loc b again) s = .next s)

/-! ### Conversion and correction (R88–R104, R157–R190, R221–R225, R531) -/

/-- An array step at a site (R88, R89, R95, R96, R98, R103, R104, R108). The first drive of a layer step, for a sequence in its lane's step, opens it
with the layer's input, on the array set the site belongs to, and, where the layer runs in arrays and the site has nothing else to do and may fire,
begins an array step there. A further phase is driven once the sweep before it has begun; a drive that ends arms the trigger; a trigger closes the
integrator, and its sweep begins or follows the one before; a sweep's codes join the step, its saturated conversions the site's counts, as those
of a diagnosis and its readings do. Of a continuous run under the host's control every sweep is kept, a halted run ends with its sweep and the site is reloaded, and a
run that has reached its limit is halted. The guard of a drive that has not ended closes the integrators, whose results are discarded at the handover and the
layer step replayed; the second in one plan step takes the array out, unless it is retired. The handover takes a completed step off the site, leaves
the counts, notes its tier, and gives its results to the layer step unless more pairs saturated than slots are free. -/
def Obligations.ArrayStepsAtASite : Prop :=
  ∀ (n : SiteNo) (s : State) (x : Site), siteGet s n.val = x →
    (∀ (i : LayerInput) (k : LayerKey) (base : LayerPlan), k = { lane := i.lane, node := i.node, seq := i.seq, token := i.token } →
      layerNow s i.lane.val i.node = some base → (∃ e ∈ (onReplica base (replicaAt base n.val)).arrays, e.1.val / 8 = n.val) →
      inStep s k = true → s.boot.state = .running → s.boot.kioskHung = false → stepGet s k = none →
      ∃ u l, exec (.drive n (some i)) s = .next u ∧ stepGet u k = some l ∧ l.inputs = layerInput s k i.values ∧ l.replica = replicaAt base n.val ∧ l.done = false) ∧
    (∀ (i : LayerInput) (k : LayerKey) (base p : LayerPlan) (t : State) (l : LayerStep) (a : ArrayNo) (row : Nat),
      k = { lane := i.lane, node := i.node, seq := i.seq, token := i.token } →
      layerNow s i.lane.val i.node = some base → p = onReplica base (replicaAt base n.val) → (∃ e ∈ p.arrays, e.1.val / 8 = n.val) →
      inStep s k = true → s.boot.state = .running → s.boot.kioskHung = false → stepGet s k = none →
      t = openLayerStep s k (replicaAt base n.val) p (layerInput s k i.values) → stepGet t k = some l → l.wide = false → l.done = false →
      nextArray (siteGet t n.val) n.val p l = some (a, row) → layerIsWide t i.lane.val i.node = false →
      x.activity = .none → x.diagnose = false → x.starting = [] → x.step = none →
      mayFire t n.val (stepPower p.mode l.phases) true = true →
      ∃ u, exec (.drive n (some i)) s = .next u ∧ (siteGet u n.val).step = some (newArrayStep t p l a row)) ∧
    (∀ a, x.step = some a →
      (a.driven < stepPhases a → a.driven ≤ sweepsBegun a → exec (.drive n none) s = .next (siteSet s n.val { x with step := some { a with driven := a.driven + 1, driving := true } })) ∧
      (a.driving = true → exec (.driveEnd n) s = .next (siteSet s n.val { x with step := some { a with driving := false, armed := true } })) ∧
      (a.armed = true → exec (.trigger n) s = .next (siteSet s n.val { x with step := some { a with armed := false, closed := a.sweeping, sweeping := true } })) ∧
      (∀ charges, isHost x.activity = false → isDiagnosing x.activity = false → a.sweeping = true → charges.length = 544 → exec (.sweepEnd n charges) s =
        .next (siteSet s n.val { x with
          satData := satAdd32 x.satData (sweepSaturations [serviceSweep a.gain a.spares charges]).1
          satRef := satAdd32 x.satRef (sweepSaturations [serviceSweep a.gain a.spares charges]).2
          step := some { a with sweeping := a.closed, closed := false, sweeps := a.sweeps ++ [serviceSweep a.gain a.spares charges] } })) ∧
      (a.driving = true → x.guards.find? (fun e => decide (e.1 = a.key.lane.val ∧ e.2.1 = laneStepNo s a.key.lane.val)) = none →
        exec (.guard n) s = .next (siteSet s n.val { x with
          guards := (a.key.lane.val, laneStepNo s a.key.lane.val, 1) :: x.guards.filter (fun e => e.1 ≠ a.key.lane.val)
          step := some { a with driving := false, expired := true, closed := a.sweeping, sweeping := true } })) ∧
      (∀ e, a.driving = true → x.guards.find? (fun e => decide (e.1 = a.key.lane.val ∧ e.2.1 = laneStepNo s a.key.lane.val)) = some e →
        1 ≤ e.2.2 → ∃ u, exec (.guard n) s = .next u ∧ u.fuses = s.fuses ∧
          ((arrGet u a.array.val).state = .quarantined ∨ (arrGet s a.array.val).state = .retired)) ∧
      (stepPhases a ≤ a.sweeps.length → ∃ u, exec (.handover n) s = .next u ∧
        (siteGet u n.val).lastTier = some (a.array.val % 8) ∧ (siteGet u n.val).nextStep = none ∧
        (siteGet u n.val).satData = x.satData ∧ (siteGet u n.val).satRef = x.satRef ∧
        ∀ p l, keyLayer s a.key = some p → stepGet s a.key = some l → l.wide = false → l.done = false →
          (a.expired = false → (sweepSaturations a.sweeps).1 ≤ p.slots - a.outliers → stepGet u a.key = some { l with
            results := l.results ++ [(a.array.val, stepValues (arrGet s a.array.val) a)] }) ∧
          (a.expired = true → u = settleDiagnosis (replayStep (siteSet s n.val (settleSwap { placeStep x x.nextStep with
            nextStep := none, lastTier := some (a.array.val % 8) })) a.key .guard) n.val))) ∧
    (∀ a b, x.step = some a → a.driving = false → x.nextStep = some b → b.driving = true →
      x.guards.find? (fun e => decide (e.1 = b.key.lane.val ∧ e.2.1 = laneStepNo s b.key.lane.val)) = none →
      exec (.guard n) s = .next (siteSet s n.val { x with
        guards := (b.key.lane.val, laneStepNo s b.key.lane.val, 1) :: x.guards.filter (fun e => e.1 ≠ b.key.lane.val)
        nextStep := some { b with driving := false, expired := true, armed := true } })) ∧
    (∀ charges, hostRuns x = true →
      (x.halting = false → exec (.sweepEnd n charges) s =
        .next (siteSet s n.val (hostSwept (arrGet s (8 * n.val + fld x.control.toNat 29 27)) charges x))) ∧
      (x.halting = true → exec (.sweepEnd n charges) s =
        .next (reloadSite (siteSet s n.val (hostSwept (arrGet s (8 * n.val + fld x.control.toNat 29 27)) charges x)) n.val))) ∧
    (∀ charges w, isDiagnosing x.activity = true → diagSweep x.readings x.tested = some w →
      ∃ y, exec (.sweepEnd n charges) s = .next (siteSet s n.val y) ∧ y.tested = x.tested + 1 ∧ y.readings = addSweep x.readings w (diagCodes w charges) ∧
        y.satData = satAdd32 x.satData ((diagCodes w charges).filter (fun e => e.2.2)).length) ∧
    (∀ t, x.activity = .host t → fld x.control.toNat 31 30 = 2 → fld x.control.toNat 15 0 ≠ 0 → fld x.control.toNat 15 0 ≤ x.sweepsRun →
      exec (.sweepLimit n) s = .next (siteSet s n.val (settleSwap { x with control := BitVec.ofNat 32 (x.control.toNat % 2 ^ 30) })))

/-- From array results to a layer's outputs (R163, R165, R171, R172, R177, R220, R221, R223, R224): a weight row goes to the layer step that
awaits it; a partial is added at its place in plan order; a complete output is accepted, with the running mean moved on, or replayed when its
norm jumps; a layer on the wide path is done for every sequence at once; a tile drains as codes of its format. -/
def Obligations.LayerStepsReachTheirOutputs : Prop :=
  (∀ (n : SiteNo) (row : Fin 512) (s : State) (k : LayerKey) (col rb : Nat) (p : LayerPlan) (ws : List F32),
    (stepGet s k).bind (awaitedRow s n.val row.val) = some (col, rb) → keyLayer s k = some p → outlierRow s k p col rb row.val = some ws →
    ∃ u, exec (.wideRowFetch n row k) s = .next u ∧ u = { s with layerSteps := u.layerSteps } ∧
      (∀ x, stepGet s k = some x → stepGet u k = some { x with rows := x.rows ++ [(col, rb, row.val, ws)] }) ∧
      ∀ k1, k1 ≠ k → stepGet u k1 = stepGet s k1) ∧
  (∀ (n : SiteNo) (row : Fin 512) (k : LayerKey) (s : State), (stepGet s k).bind (awaitedRow s n.val row.val) = none →
    exec (.wideRowFetch n row k) s = .next s) ∧
  (∀ (k : LayerKey) (col idx : Nat) (c : UnitNo) (v : List (F32 × F32)) (s : State) (p : LayerPlan) (x : LayerStep), keyLayer s k = some p →
    stepGet s k = some x → x.wide = false → x.done = false → idx < blockCount p x.inputs → combiningUnit p col = some c.val →
    (∀ e ∈ x.partials, ¬(e.1 = col ∧ e.2.1 = idx)) → blockPartial s k p x col idx = some v →
    ∃ u, exec (.partialArrival k col idx c) s = .next u ∧ u = { s with layerSteps := u.layerSteps, quartz := u.quartz } ∧
      stepGet u k = some { x with partials := x.partials ++ [(col, idx, v)] } ∧
      (∀ k1, k1 ≠ k → stepGet u k1 = stepGet s k1) ∧
      quartzGet u c.val = { quartzGet s c.val with
        sets := (quartzGet s c.val).sets.set (quartzGet s c.val).activeSet
          (tileSums (columnSums { x with partials := x.partials ++ [(col, idx, v)] } col) 0) }) ∧
  (∀ (k : LayerKey) (s : State) (p : LayerPlan) (x : LayerStep) (mu : F32), keyLayer s k = some p → stepGet s k = some x →
    x.wide = false → x.done = false → layerComplete p x = true →
    mu = ((sget s.requests k.seq).map (fun q => meanOf q p)).getD p.recordedMean →
    (x.stale = true ∨ jumps p mu (rms32 (layerOutputs s p x)) = false →
      ∃ u, exec (.repairTailEnd k) s = .next u ∧
        u = { s with layerSteps := u.layerSteps, quartz := u.quartz, requests := u.requests } ∧
        stepGet u k = some { x with outputs := layerOutputs s p x, done := true, splitDone := x.splitDone || x.split } ∧
        ∀ r, sget s.requests k.seq = some r → ∃ r1, sget u.requests k.seq = some r1 ∧
          (x.stale = true → r1.means = r.means) ∧
          (x.stale = false → inPrefill s k.lane.val = false → (k.node, meanAfter mu (rms32 (layerOutputs s p x))) ∈ r1.means)) ∧
    (x.stale = false → jumps p mu (rms32 (layerOutputs s p x)) = true →
      exec (.repairTailEnd k) s = .next (replayStep (splitTaken s k p x) k .jump))) ∧
  (∀ (g : LaneId) (nd ex node : Nat) (s : State) (p : LayerPlan) (w : Golden), node = layerNumber nd ex →
    layerNow s g.val node = some p → laneGolden s g.val node = some w →
    ∃ u, exec (.widePathComplete g nd ex) s = .next u ∧ u = { s with layerSteps := u.layerSteps, requests := u.requests } ∧
      (∀ x ∈ awaitingWide s g.val node, ∀ y ∈ u.layerSteps, y.key = x.key → y.done = true ∧
        ∃ z ∈ awaitingWide s g.val node, z.key = x.key ∧ y.outputs = w.wide (inputFormat s g.val node) z.inputs) ∧
      ∀ y, (∀ x ∈ awaitingWide s g.val node, x.key ≠ y.key) → (y ∈ u.layerSteps ↔ y ∈ s.layerSteps)) ∧
  (∀ (n : UnitNo) (s : State) (t : Tile), (quartzGet s n.val).draining = some t → ∃ u, exec (.drainEnd n) s = .next u ∧
    u = { s with quartz := u.quartz } ∧
    (t.key, t.first, (t.sums.map compValue).map (toFormat t.format.toNat)) ∈ (quartzGet u n.val).drained ∧
    ((quartzGet s n.val).held = [] → (quartzGet u n.val).draining = none ∧
      (quartzGet u n.val).sets = (quartzGet s n.val).sets.set (quartzGet s n.val).drainSet emptySet) ∧
    (∀ w ws, (quartzGet s n.val).held = w :: ws → (quartzGet u n.val).draining = some w ∧ (quartzGet u n.val).held = ws)) ∧
  (∀ (n : UnitNo) (s : State), (quartzGet s n.val).draining = none → exec (.drainEnd n) s = .next s)

/-- Sentinel checks and probe summaries (R186–R188, R190, R191, R530, R531). A check an array awaits of a layer step completes: it is judged against
the golden weights, is awaited no longer, and counts at its Quartz unit; a first failure is noted with the computation of the step it was met in,
the second takes the array out of service unless it is retired; any other end clears what was noted. In a probe slot the pattern in turn runs, and its pack counts a
run, once the array's site may drive it; until then the slot waits. Nothing happens for a layer step whose check is not awaited. PROBE_SUMMARY of a running engine reports
every installed pack with its runs, passes and failures in a record 0x51; one that does not run reports none. -/
def Obligations.ChecksTakeArraysOut : Prop :=
  (∀ (a : ArrayNo) (charges : List (List Int)) (s : State) (c : ArrayCheck) (p : LayerPlan) (golden : List (List F32)) (failed : Bool),
    (arrGet s a.val).checking = some c → keyLayer s c.key = some p → arrayGolden s p c.key.lane.val a.val = some golden →
    failed = (judgeCheck p (arrGet s a.val) a.val c golden).2.2 →
    (isProbeSlot s a.val = false → ∃ u, exec (.sentinelCheckComplete a c.key charges) s = .next u ∧ (arrGet u a.val).checking = none ∧
      (quartzGet u (a.val / 128)).checks = (quartzGet s (a.val / 128)).checks + 1 ∧ u.fuses = s.fuses ∧ u.boot = s.boot ∧
      (arrGet u a.val).checkFailed = (if failed && (arrGet s a.val).checkFailed.isNone then some (c.key, stepAttempt s c.key.lane.val) else none) ∧
      (failed = true → (arrGet s a.val).checkFailed ≠ none →
        (arrGet u a.val).state = .quarantined ∨ (arrGet s a.val).state = .retired)) ∧
    (∀ q packs, isProbeSlot s a.val = true → nextPattern s (arrGet s a.val) = some (q, packs) →
      (probeMayDrive s (a.val / 8) q = true → ∃ u, exec (.sentinelCheckComplete a c.key charges) s = .next u ∧
        (arrGet u a.val).checking = none ∧ (quartzGet u (a.val / 128)).checks = (quartzGet s (a.val / 128)).checks + 1 ∧
        ∀ y ∈ packs, y.number = q.pack → ∃ z ∈ u.probes, z.number = y.number ∧ z.run = y.run + 1) ∧
      (probeMayDrive s (a.val / 8) q = false → exec (.sentinelCheckComplete a c.key charges) s = .next s))) ∧
  (∀ (a : ArrayNo) (k : LayerKey) (charges : List (List Int)) (s : State), (∀ c, (arrGet s a.val).checking = some c → c.key ≠ k) →
    exec (.sentinelCheckComplete a k charges) s = .next s) ∧
  (∀ s : State, s.boot.state = .running → exec .probeSummary s = .next (s.probes.foldl (fun t p =>
    report t 0x51 0 (otherUid 0 p.number 0) (padTo 4 (leBytes 2 p.number) ++ leBytes 4 p.run ++ leBytes 4 p.passed ++ leBytes 4 p.failed)) s)) ∧
  (∀ s : State, s.boot.state ≠ .running → exec .probeSummary s = .next s)

/-! ### Calibration, repair and scrubs (R57–R62, R75–R82, R107–R111, R118–R141, R149–R156) -/

/-- Calibration (R93, R104, R118, R119, R121, R122, R126, R129, R133–R135, R138). An array without an active table, or whose interval of host time
has passed since its table took effect, falls due; no other does. At a gap of a free site of a running engine that may fire, whose unit calibrates nothing and for
which no programming waits, the array in turn starts round 1 with the service table at its gain; no gap comes while the engine does not run or is Dormant. A
round that converges gives a table of its fit, staged if the array is in service, else active, and raises the trigger delay asked for to at most
12 ns; one that does not goes on to the next round while the timer allows, keeping the fit and the codes of the zero sweeps, its saturated
conversions counted; else the calibration has timed out: with no retry pending a retry is, and the active table stays; with one the array is
retired for good. The timer of the site itself does the same at 250 µs less 5 %, and nothing before. -/
def Obligations.CalibrationConvergesOrFails : Prop :=
  (∀ (a : ArrayNo) (s : State), (arrGet s a.val).active = none ∨ (arrGet s a.val).activatedAt + intervalMs s a.val * 1000000 ≤ hostTime s →
    exec (.calibrationDue a) s = .next { s with arrays := sput s.arrays a.val { arrGet s a.val with due := true } }) ∧
  (∀ (a : ArrayNo) (s : State), (arrGet s a.val).active ≠ none → hostTime s < (arrGet s a.val).activatedAt + intervalMs s a.val * 1000000 →
    exec (.calibrationDue a) s = .next s) ∧
  (∀ (n : SiteNo) (s : State) (a : Nat), s.boot.state = .running → s.power.state ≠ .dormant → s.planner.waiting = none →
    (∀ i < 8, wantsProgram (arrGet s (8 * n.val + i)) = false) → siteFree s n.val = true → mayWork s n.val (.calibrating 0 0 0) = true →
    unitActive s (n.val / 16) isCalibrating = false → nextDue s (fun a => !holdArray s a) n.val = some a →
    ∃ u, exec (.calibrationGap n) s = .next u ∧ u = { s with arrays := u.arrays, sites := u.sites, jobs := u.jobs } ∧
      (arrGet u a).state = .calibrating ∧ (siteGet u n.val).activity = .calibrating a 1 s.now ∧
      (siteGet u n.val).entries = serviceTable (arrayGain s a) true) ∧
  (∀ (n : SiteNo) (s : State), s.boot.state ≠ .running ∨ s.power.state = .dormant → exec (.calibrationGap n) s = .next s) ∧
  (∀ (n : SiteNo) (charges check : List (List Int)) (timer delay : Nat) (s : State) (a r t : Nat) (g : Fin 4) (codes : List (List Int))
      (fit : List (Nat × Int)) (sigma : Nat) (ok : Bool),
    calibrationAt s n.val = some (a, r, t) → g = arrayGain s a →
    codes = (if r = 1 then [] else (arrGet s a).zeroCodes) ++ charges.map (fun c => (sweepCodes g c).map (·.1)) →
    fit = fitArray (arrGet s a) g codes → sigma = fitSigma (arrGet s a) g fit codes →
    ok = converged (arrGet s a) g fit sigma (check.map (fun c => (sweepCodes g c).map (·.1))) →
    (ok = true → ∃ u, exec (.calibrationRoundEnd n charges check timer delay) s = .next u ∧
      (arrGet u a).result = 1 ∧ (arrGet u a).sigma = sigma ∧ (arrGet u a).retry = none ∧ (arrGet u a).calibrated = true ∧
      (siteGet u n.val).nextDelay = max (siteGet s n.val).nextDelay (min 12 delay) ∧
      (∃ x, x = CalTable.mk fit r (rneInt (arrGet s a).calTemp 8) sigma ∧
        ((inService s a = true → (arrGet u a).staged = some x ∧ (arrGet u a).active = (arrGet s a).active) ∧
         (inService s a = false → (arrGet u a).active = some x ∧ (arrGet u a).staged = none))) ∧
      u.fuses = s.fuses ∧ u.boot = s.boot) ∧
    (ok = false → timer ≤ 175000 →
      ∃ u, exec (.calibrationRoundEnd n charges check timer delay) s = .next u ∧ u = { s with sites := u.sites, arrays := u.arrays } ∧
        siteGet u n.val = { countSat (siteGet s n.val) (sweepSaturations (charges.map (sweepCodes g) ++ check.map (sweepCodes g))) with
          activity := .calibrating a (r + 1) t } ∧
        arrGet u a = { arrGet s a with fit := fit, zeroCodes := codes.take 16 }) ∧
    (ok = false → 175000 < timer → (arrGet s a).retry = none →
      ∃ u, exec (.calibrationRoundEnd n charges check timer delay) s = .next u ∧ u = { s with arrays := u.arrays, sites := u.sites } ∧
        (arrGet u a).result = 2 ∧ (arrGet u a).retry = some r ∧ (arrGet u a).active = (arrGet s a).active) ∧
    (ok = false → 175000 < timer → (arrGet s a).retry ≠ none →
      ∃ u, exec (.calibrationRoundEnd n charges check timer delay) s = .next u ∧ (arrGet u a).result = 3 ∧ (arrGet u a).state = .retired ∧
        (arrGet u a).staged = none ∧ u.fuses = s.fuses ∧ u.boot = s.boot)) ∧
  (∀ (n : SiteNo) (s : State) (a r t : Nat), calibrationAt s n.val = some (a, r, t) →
    (t + 237500 ≤ s.now → (arrGet s a).retry = none → ∃ u, exec (.calibrationTimeout n) s = .next u ∧
      u = { s with arrays := u.arrays, sites := u.sites } ∧ (arrGet u a).result = 2 ∧ (arrGet u a).retry = some r) ∧
    (t + 237500 ≤ s.now → (arrGet s a).retry ≠ none → ∃ u, exec (.calibrationTimeout n) s = .next u ∧
      (arrGet u a).result = 3 ∧ (arrGet u a).state = .retired ∧ u.fuses = s.fuses ∧ u.boot = s.boot) ∧
    (s.now < t + 237500 → exec (.calibrationTimeout n) s = .next s))

/-- The spare slice and the slices' calibration (R75–R82, R126). While the engine runs and is not Dormant the spare goes round positions 0 to 15 and then calibrates
itself, which completes a rotation; at a site that fires the change waits for the handover; a permanent stand-in and a site whose start-up calibration
lasts are left alone. A slice that calibrates and reaches its trim limits is done, and with the last of the start-up a site without other
work returns to triggered mode; one that misses them is tried again once; the second time the spare takes its position for good, and every calibration
of the site is due by the halved interval; the spare's own second failure is noted; and the site's arrays are quarantined, unless retired, if the spare
is taken or has failed. A slice that does not calibrate has no result. -/
def Obligations.SlicesAndTheSpare : Prop :=
  ∀ (n : SiteNo) (s : State) (x : Site), siteGet s n.val = x →
    (s.boot.state = .running → s.power.state ≠ .dormant → x.fixed = false → x.starting = [] →
      (siteFires x = true → exec (.spareRotation n) s = .next (siteSet s n.val { x with swapDue := true })) ∧
      (siteFires x = false →
        (x.spare < 15 → exec (.spareRotation n) s = .next (siteSet s n.val { x with swapDue := false, spare := x.spare + 1 })) ∧
        (x.spare = 15 → exec (.spareRotation n) s = .next (siteSet s n.val { x with swapDue := false, spare := 17 })) ∧
        (x.spare = 16 → exec (.spareRotation n) s = .next (siteSet s n.val { x with swapDue := false, spare := 0 })) ∧
        (x.spare = 17 → exec (.spareRotation n) s =
          .next (siteSet s n.val { x with swapDue := false, spare := 0, rotations := (x.rotations + 1) % 65536 })))) ∧
    (s.boot.state = .running → s.power.state ≠ .dormant → x.fixed = true ∨ x.starting ≠ [] →
      exec (.spareRotation n) s = .next (siteSet s n.val x)) ∧
    (s.boot.state ≠ .running ∨ s.power.state = .dormant → exec (.spareRotation n) s = .next s) ∧
    (∀ (k : Fin 17) (trim : List (Int × Nat)), sliceCalibrates x k.val = true →
      (trimReached trim = true → x.starting = [] ∨ x.starting.filter (fun z => z ≠ k.val) ≠ [] ∨ x.activity ≠ .none →
        exec (.sliceCalibration n k trim) s = .next (siteSet s n.val { x with
          failedOnce := x.failedOnce.filter (fun z => z ≠ k.val), starting := x.starting.filter (fun z => z ≠ k.val) })) ∧
      (trimReached trim = true → x.starting ≠ [] → x.starting.filter (fun z => z ≠ k.val) = [] → x.activity = .none →
        exec (.sliceCalibration n k trim) s = .next (siteSet s n.val { x with
          failedOnce := x.failedOnce.filter (fun z => z ≠ k.val), starting := []
          control := siteControl x.delay 1 (fld x.control.toNat 29 27) })) ∧
      (trimReached trim = false → k.val ∉ x.failedOnce → exec (.sliceCalibration n k trim) s =
        .next (siteSet s n.val { x with failedOnce := k.val :: x.failedOnce })) ∧
      (trimReached trim = false → k.val ∈ x.failedOnce → k.val < 16 → x.fixed = false → x.spareFailed = false →
        ∃ u, exec (.sliceCalibration n k trim) s = .next u ∧ (siteGet u n.val).fixed = true ∧ (siteGet u n.val).spare = k.val ∧
          (siteGet u n.val).failedSlice = k.val ∧ (∀ b, ∃ d, arrGet u b = { arrGet s b with due := d }) ∧ u.fuses = s.fuses ∧
          ∀ i < 8, ∀ y, y = arrGet s (8 * n.val + i) → y.active ≠ none → (arrGet u (8 * n.val + i)).due =
            (decide (y.activatedAt + intervalMs s (8 * n.val + i) / 2 * 1000000 ≤ hostTime s) || tauOutside 15 y.tau)) ∧
      (trimReached trim = false → k.val ∈ x.failedOnce → k.val = 16 → ∃ u, exec (.sliceCalibration n k trim) s = .next u ∧
        u = { s with sites := u.sites } ∧ (siteGet u n.val).spareFailed = true) ∧
      (trimReached trim = false → k.val ∈ x.failedOnce → k.val < 16 → (x.fixed = true ∧ x.failedSlice ≠ k.val) ∨ (x.fixed = false ∧ x.spareFailed = true) →
        ∃ u, exec (.sliceCalibration n k trim) s = .next u ∧ (∀ i < 8, (arrGet u (8 * n.val + i)).state = .quarantined ∨
          (arrGet s (8 * n.val + i)).state = .retired) ∧ u.fuses = s.fuses)) ∧
    (∀ (k : Fin 17) (trim : List (Int × Nat)), sliceCalibrates x k.val = false → exec (.sliceCalibration n k trim) s = .next s)


/-- Programming, diagnosis and site control (R54, R57, R61, R62, R79, R107–R109, R111, R153, R600, R611). A programming operation whose cells have all passed
verify ends, and no other does before its maximum time (the times at which it may end are those of log entry 107): the array holds the levels, scales and level sums it was to write, no stuck cells, and the
owner it was for, if that still holds the generation, else none; one to be erased is erased instead. At the maximum time cells that miss verify are stuck, and
more than 64 of them retire the array. A diagnosis ends with the verdict on all its readings: its request is answered and its readings go, a site fault or
an array fault of every tier quarantines the site's arrays, one of some tiers those (a retired array stays retired), a slice fault puts the spare in the position for good, a
column fault remaps the pair to a spare pair, and after a transient fault a quarantined array recovers; where no diagnosis runs nothing happens. The engine takes a site back 10 s of
host time after the host's last write, not before, to the state of log entry 95, unless a diagnosis that waits begins there. -/
def Obligations.ProgrammingAndDiagnosis : Prop :=
  (∀ (a : ArrayNo) (s : State) (p : Programming), programAt s a.val = some p →
    (∀ cells el, cells.all (passes (programTarget (arrGet s a.val))) = true → el ≤ 3000000 → (arrGet s a.val).eraseAfter = false →
      ∃ u, exec (.programmingComplete a cells el) s = .next u ∧ u.fuses = s.fuses ∧ u.boot = s.boot ∧ (arrGet u a.val).stuck = [] ∧
      (arrGet u a.val).levels = (arrGet s a.val).content.levels ∧ (arrGet u a.val).scales = (arrGet s a.val).content.scales ∧
      (arrGet u a.val).levelSums = (arrGet s a.val).content.levelSums ∧
      (programHeld s (arrGet s a.val) p = true → (arrGet u a.val).ownerKind = ownerCode p.owner ∧ (arrGet u a.val).owner = p.handle ∧
        (arrGet u a.val).generation = p.generation.toNat) ∧
      (programHeld s (arrGet s a.val) p = false → (arrGet u a.val).ownerKind = 0) ∧
      (s.planner.waiting = none → (arrGet u a.val).state = endState s a.val ∧ (arrGet u a.val).program = none)) ∧
    (∀ cells el, cells.all (passes (programTarget (arrGet s a.val))) = true → el ≤ 3000000 → (arrGet s a.val).eraseAfter = true → s.planner.waiting = none →
      ∃ u, exec (.programmingComplete a cells el) s = .next u ∧ u.fuses = s.fuses ∧ (arrGet u a.val).levels = [] ∧ (arrGet u a.val).ownerKind = 0 ∧
        ((arrGet s a.val).state = .programming → (arrGet u a.val).state = .erased)) ∧
    (∀ cells adj el stuck, stuck = cells.filter (fun c => decide (200 < cellError (programTarget (arrGet s a.val)) c)) → 2500000 ≤ el →
      (arrGet s a.val).eraseAfter = false →
      ∃ u, exec (.programmingMaximumTime a cells adj el) s = .next u ∧ u.fuses = s.fuses ∧ u.boot = s.boot ∧
        (arrGet u a.val).stuck = stuck ∧ (arrGet u a.val).levels = (arrGet s a.val).content.levels ∧
        (64 < stuck.length → (arrGet u a.val).state = .retired))) ∧
  (∀ (a : ArrayNo) (cells : List CellReading) (el : Nat) (s : State),
    (programAt s a.val = none ∨ cells.all (passes (programTarget (arrGet s a.val))) = false ∨ 3000000 < el →
      exec (.programmingComplete a cells el) s = .next s) ∧
    (programAt s a.val = none ∨ el < 2500000 → ∀ adj, exec (.programmingMaximumTime a cells adj el) s = .next s)) ∧
  (∀ (n : SiteNo) (more d : DiagReadings) (s : State) (b : Bool) (v : Nat), (siteGet s n.val).activity = .diagnosing b →
    d = joinReadings (siteGet s n.val).readings more → verdictOf s n.val d = v → ∃ u, exec (.diagnosisComplete n more) s = .next u ∧ u.fuses = s.fuses ∧ u.boot = s.boot ∧
      (∀ j ∈ u.jobs, j.work ≠ .siteDiag n.val) ∧
      ((siteGet u n.val).activity = .none ∨ (siteGet u n.val).activity = .diagnosing false ∨ ∃ a, (siteGet u n.val).activity = .programming a) ∧
      (siteGet u n.val).tested = 0 ∧ (siteGet u n.val).readings = {} ∧
      (v = 0 → ∀ q, (failedPositions d).head? = some q → (siteGet s n.val).fixed = false → (siteGet s n.val).spareFailed = false →
        (siteGet u n.val).fixed = true ∧ (siteGet u n.val).spare = q ∧ (siteGet u n.val).failedSlice = q) ∧
      (v = 2 → ∀ p, failedPairs d = [p] → p < 512 → ∀ i < 8, ∀ x, x = arrGet s (8 * n.val + i) → x.wearLimited = false →
        (∀ e ∈ x.spares ++ x.sparesPending, e.1 ≠ p) → (freeSpare x).isSome = true →
        ∃ e ∈ (arrGet u (8 * n.val + i)).sparesPending, e.1 = p) ∧
      (v = 1 ∨ v = 4 → ∀ i < 8, (arrGet u (8 * n.val + i)).state = .quarantined ∨ (arrGet s (8 * n.val + i)).state = .retired) ∧
      (v = 3 → ∀ i ∈ tierFails s n.val d, (arrGet u (8 * n.val + i)).state = .quarantined ∨ (arrGet s (8 * n.val + i)).state = .retired) ∧
      (v = 5 → ∀ i < 8, (arrGet s (8 * n.val + i)).state = .quarantined → (arrGet u (8 * n.val + i)).state = .programmed ∧
        (arrGet u (8 * n.val + i)).recovering = true ∧ (arrGet u (8 * n.val + i)).due = true)) ∧
  (∀ (n : SiteNo) (d : DiagReadings) (s : State), (∀ b, (siteGet s n.val).activity ≠ .diagnosing b) →
    exec (.diagnosisComplete n d) s = .next s) ∧
  (∀ (n : SiteNo) (s : State) (t : Nat), (siteGet s n.val).activity = .host t →
    (t ≤ hostTime s → ∃ u, exec (.siteControlTimeout n) s = .next u ∧ u = { s with sites := u.sites } ∧
      ((siteGet u n.val).activity = .none ∨ ∃ b, (siteGet u n.val).activity = .diagnosing b) ∧
      ((siteGet s n.val).diagnose = false → (siteGet s n.val).starting = [] → (siteGet u n.val).activity = .none ∧ (siteGet u n.val).control = siteControl (siteGet s n.val).delay 1 0 ∧
        (siteGet u n.val).entries = List.replicate 16 0 ∧ (siteGet u n.val).dac = 0)) ∧
    (hostTime s < t → exec (.siteControlTimeout n) s = .next s))

/-- Scrubs and repair adapters (R62, R68, R149, R150, R154, R156, R174, R366, R508–R510). A clean scrub pass only counts; a transient error it finds is
reported besides. A scrub of an array that may be scrubbed, against the levels its golden copy calls for, keeps the cells it found more than 0.6 level off, and
those that two scrubs running found are stuck, more than 64 of them retiring the array; an array whose cells are far off as a whole is programmed again, if it may be. An array
not yet verified since power-up that is far off the golden copy is programmed from it, retired if it is wear-limited, or free where no plan says what it is
to hold (how it is known is log entry 26). An array that may not be scrubbed is left alone. A training result belongs to one layer and replica; each of its iterations is
kept or dropped; a result good enough waits for its lane's boundary. An adapter not trained in 2 s of host time is discarded, and its arrays are retired; nothing happens before. -/
def Obligations.ScrubsAndRepairAdapters : Prop :=
  (∀ (target : ScrubTarget) (pass : Nat) (s : State), exec (.scrubPass target pass .clean) s = .next { s with reliability := { s.reliability with
    scrubPasses := lmod s.reliability.scrubPasses (scrubIndex target) (fun n => max n pass) } }) ∧
  (∀ (target : ScrubTarget) (pass : Nat) (l : HbmLoc) (s : State), exec (.scrubPass target pass (.hbmUncorrected l true)) s =
    .next (report { s with reliability := { s.reliability with
      scrubPasses := lmod s.reliability.scrubPasses (scrubIndex target) (fun n => max n pass) } } 0x16 1 (locUid l) (memDetail l.address.toNat 1))) ∧
  (∀ (a : ArrayNo) (cells off new : List CellReading) (adj : List (Nat × Nat × Nat × Nat)) (s : State) (x y : OrArray) (p : Programming)
      (lv : List (List Int)) (rms : Bool), arrGet s a.val = x → mayScrub s a.val = true → sameContents s a.val = some p →
    goldenLevels s a.val p = some lv → y = ({ x with levels := lv } : OrArray) → rms = rmsHigh y (if lv = x.levels then cells else allCells x cells) →
    ¬(rms = true ∧ (x.unproven = true ∨ (x.verified = false ∧ x.wearLimited = true))) →
    off = cells.filter (fun c => decide (600 < cellError y c)) →
    new = off.filter (fun c => x.suspects.any (fun e => decide (e = (c.pair, c.row, c.positive))) && !x.stuck.any (sameCell c)) →
    ∃ u, exec (.arrayScrub a cells adj) s = .next u ∧ u.fuses = s.fuses ∧ u.boot = s.boot ∧
      (arrGet u a.val).suspects = off.map (fun c => (c.pair, c.row, c.positive)) ∧ (arrGet u a.val).stuck = x.stuck ++ new ∧
      (64 < (x.stuck ++ new).length → (arrGet u a.val).state = .retired) ∧
      (new = [] → x.stuck.length ≤ 64 → rms = true → x.wearLimited = false → mayProgram s a.val = true → (contentFor s p).isSome = true →
        (arrGet u a.val).state = .programming ∧ (arrGet u a.val).program = some p)) ∧
  (∀ (a : ArrayNo) (cells : List CellReading) (adj : List (Nat × Nat × Nat × Nat)) (s : State) (x : OrArray) (p : Programming), arrGet s a.val = x →
    mayScrub s a.val = true → sameContents s a.val = some p → x.unproven = true →
    (goldenLevels s a.val p = none → x.wearLimited = false → exec (.arrayScrub a cells adj) s = .next (arrSet s a.val
      { x with ownerKind := 0, owner := 0, generation := 0, due := false })) ∧
    (∀ lv, goldenLevels s a.val p = some lv → rmsHigh { x with levels := lv } (if lv = x.levels then cells else allCells x cells) = true →
      (x.wearLimited = true → ∃ u, exec (.arrayScrub a cells adj) s = .next u ∧ (arrGet u a.val).state = .retired ∧ u.fuses = s.fuses ∧ u.boot = s.boot) ∧
      (x.wearLimited = false → mayProgram s a.val = true → (contentFor s p).isSome = true →
        ∃ u, exec (.arrayScrub a cells adj) s = .next u ∧ (arrGet u a.val).state = .programming ∧ (arrGet u a.val).program = some p))) ∧
  (∀ (a : ArrayNo) (cells : List CellReading) (adj : List (Nat × Nat × Nat × Nat)) (s : State), mayScrub s a.val = false →
    exec (.arrayScrub a cells adj) s = .next s) ∧
  (∀ (g : LaneId) (t : TrainedAdapter) (s : State), ∃ u, exec (.repairAdapterTrained g t) s = .next u ∧
    u = { s with repairAdapters := u.repairAdapters } ∧ ∀ e ∈ s.repairAdapters,
      (e.lane = g.val ∧ e.node = t.node ∧ e.replica = t.replica ∧ e.trained = none → ∃ y ∈ u.repairAdapters,
        y = { e with trained := y.trained, mean := y.mean, kept := y.kept, dropped := y.dropped } ∧
        y.trained = (if adapterGood s e t then some t else none) ∧ y.kept + y.dropped = e.kept + e.dropped + t.norms.length) ∧
      (¬(e.lane = g.val ∧ e.node = t.node ∧ e.replica = t.replica ∧ e.trained = none) → e ∈ u.repairAdapters)) ∧
  (∀ (g : LaneId) (node : Nat) (s : State) (late : List RepairAdapter), late = s.repairAdapters.filter (fun e => decide (e.lane = g.val) &&
      decide (e.node = node) && e.trained.isNone && decide (e.startedAt + 2000000000 ≤ hostTime s)) →
    ∃ u, exec (.repairAdapterTimeout g node) s = .next u ∧ (∀ e ∈ late, ∀ a ∈ e.arrays, (arrGet u a.val).state = .retired) ∧
      u.repairAdapters = s.repairAdapters.filter (fun y => !late.contains y) ∧ u.fuses = s.fuses ∧ u.boot = s.boot) ∧
  (∀ (g : LaneId) (node : Nat) (s : State), (∀ e ∈ s.repairAdapters, hostTime s < e.startedAt + 2000000000) →
    exec (.repairAdapterTimeout g node) s = .next s)

/-! ### Pergola and memory (R240, R257–R262, R500–R508, R533, R534) -/

/-- Windows (R244, R246, R256–R262) and links (R240). Each command at a core first opens again the windows whose next opening has come, with the next tag. A
remote access whose line lies in the open window of the current plan epoch that carries its tag goes through, unless that window's direction is the
other one: a write stores its whole line and is noted as written, a read is answered with the line. An access whose line lies in such a window, open under
no tag of its own, is late: it changes no line, counts, and a read is answered with zeros. Any other is a violation, and a read is answered with
zeros. A VC2 access needs a credit; without one nothing is sent. A completion mark counts for its reader, and closes the window when every declared reader is done (and, of
one that is written too, every line written); a close point closes a VC2 window; one that has openings left opens again once its core has computed from it. A window
that is written, open when its guard has ended by its own timer to within 5 %, is contained as record 0x19; before that, or closed, nothing happens. A flit whose
check fails is sent again; the third failure of one flit is contained. -/
def Obligations.WindowsAndLinks : Prop :=
  (∀ (r : Remote) (s t : State) (key i : Nat) (w : Window), key = coreKey r.owner → t = reopenWindows s key →
    (slotsOf t r).find? (fun e => e.2.open_ && decide (e.2.tag = r.tag)) = some (i, w) →
    (r.vc2 = true → creditsOf (coreGet s key) r.source ≠ 0) →
    (w.direction ≠ 1 → ∃ u, exec (.remoteWrite r) s = .next u ∧ u = { s with cores := u.cores, lanes := u.lanes } ∧
      sget (coreGet u key).tile r.line = some (remoteBytes s r) ∧ r.line ∈ (slotGet u key i).written ∧
      ∀ n, n ≠ r.line → sget (coreGet u key).tile n = sget (coreGet s key).tile n) ∧
    (w.direction ≠ 0 → ∀ b, sget (coreGet s key).tile r.line = some b → ∃ u, exec (.remoteRead r) s = .next u ∧
      u = { s with cores := u.cores, freeIdx := u.freeIdx } ∧ (coreGet u key).lastRead = b) ∧
    (w.direction = 1 → r.vc2 = false → exec (.remoteWrite r) s = .next (violation t 64)) ∧
    (w.direction = 0 → r.vc2 = false → ∃ u, exec (.remoteRead r) s = .next u ∧ (coreGet u key).lastRead = List.replicate 64 0 ∧
      u = { violation s 64 with cores := u.cores })) ∧
  (∀ (r : Remote) (s t : State) (key i : Nat) (w : Window) (rest : List (Nat × Window)), key = coreKey r.owner → t = reopenWindows s key → r.vc2 = false →
    (slotsOf t r).find? (fun e => e.2.open_ && decide (e.2.tag = r.tag)) = none → slotsOf t r = (i, w) :: rest →
    (∃ u, exec (.remoteWrite r) s = .next u ∧ (coreGet u key).tile = (coreGet s key).tile ∧
      (coreGet u key).lateWrites = satAdd32 (coreGet s key).lateWrites 1 ∧ (slotGet u key i).lateWrites = w.lateWrites + 1) ∧
    ∃ u, exec (.remoteRead r) s = .next u ∧ (coreGet u key).tile = (coreGet s key).tile ∧ (coreGet u key).lastRead = List.replicate 64 0 ∧
      (coreGet u key).lateReads = satAdd32 (coreGet s key).lateReads 1 ∧ (slotGet u key i).lateReads = w.lateReads + 1) ∧
  (∀ (r : Remote) (s t : State) (key : Nat), key = coreKey r.owner → t = reopenWindows s key → r.vc2 = false → slotsOf t r = [] →
    exec (.remoteWrite r) s = .next (violation t 64) ∧
    ∃ u, exec (.remoteRead r) s = .next u ∧ (coreGet u key).lastRead = List.replicate 64 0 ∧
      u = { violation s 64 with cores := u.cores }) ∧
  (∀ (r : Remote) (s : State), r.vc2 = true → creditsOf (coreGet s (coreKey r.owner)) r.source = 0 →
    exec (.remoteWrite r) s = .next s ∧ exec (.remoteRead r) s = .next s) ∧
  (∀ (c : CoreId) (i : Fin 8) (s t : State) (key : Nat) (w : Window), key = coreKey c → t = reopenWindows s key → w = slotGet t key i.val → w.open_ = true →
    (∀ rd w1, w.direction ≠ 0 → w1 = { w with
        completions := min 255 (w.completions + 1), marks := if w.marks.contains rd then w.marks else rd :: w.marks } →
      ∃ u, exec (.completionMark c ⟨i, rd⟩) s = .next u ∧ u = { s with cores := u.cores, lanes := u.lanes } ∧
        (windowDone w1 = false → slotGet u key i.val = w1) ∧
        (windowDone w1 = true → (slotGet u key i.val).open_ = false ∧ (slotGet u key i.val).marks = w1.marks)) ∧
    (w.vc2 = true → ∃ u done, exec (.windowClosePoint c i) s = .next u ∧ u = { s with cores := u.cores, lanes := u.lanes } ∧
      done = max s.now (((w.other.map (slotGet t key)).map (·.computed)).getD 0) + w.compute ∧
      slotGet u key i.val = { w with open_ := false, computed := done, reopens := if w.spans.isEmpty then none else some done }) ∧
    (w.direction ≠ 1 → 95 * w.guard ≤ 100 * (s.now - w.openedAt) → exec (.windowGuard c i) s = .next (contain t 0x19 (coreUid c 0)
      (leBytes 2 w.tag.toNat ++ leBytes 2 w.written.length) (opOf s w.lane w.node))) ∧
    (100 * (s.now - w.openedAt) < 95 * w.guard → exec (.windowGuard c i) s = .next t)) ∧
  (∀ (c : CoreId) (i : Fin 8) (s : State) (w : Window) (at_ span : Nat) (spans : List Nat), w = slotGet s (coreKey c) i.val → w.reopens = some at_ → at_ ≤ s.now →
    w.spans = span :: spans → w.vc2 = false → 0 < w.openings → ∃ u, exec (.windowClosePoint c i) s = .next u ∧
      slotGet u (coreKey c) i.val = { w with
        open_ := true, spans := spans, reopens := none, tag := w.tag + w.stride, openings := w.openings + 1, written := [], marks := []
        completions := 0, openedAt := at_, span := span, guard := max 2000 (8 * span) }) ∧
  (∀ (c : CoreId) (i : Fin 8) (s t : State), t = reopenWindows s (coreKey c) → (slotGet t (coreKey c) i.val).open_ = false →
    exec (.windowGuard c i) s = .next t) ∧
  (∀ (q : Fin 4) (r : Fin 128) (p : Fin 8) (s : State), exec (.flitCrcFail q r p false) s = .next { s with reliability := { s.reliability with
    linkFails := ((q.val * 128 + r.val) * 8 + p.val, 1) :: s.reliability.linkFails.filter (fun e => e.1 ≠ (q.val * 128 + r.val) * 8 + p.val) } }) ∧
  (∀ (q : Fin 4) (r : Fin 128) (p : Fin 8) (s : State) (n : Nat),
    s.reliability.linkFails.find? (fun e => e.1 = (q.val * 128 + r.val) * 8 + p.val) = some ((q.val * 128 + r.val) * 8 + p.val, n) → 2 ≤ n →
    s.boot.state = .running → ∃ u, exec (.flitCrcFail q r p true) s = .next u ∧ (u.boot.state = .chipReset ∨ u.boot.state = .halted) ∧
      u.boot.dmaStopped = true ∧ (∀ e ∈ u.lanes, e.2.step = none))

/-- Memory errors (R207, R500–R506). A corrected read counts at its pseudo-channel, and the sixteenth within 24 h of a row with a spare row left repairs
the row. A read that fails once, uncorrectable or of a burst that fails its check, is reported as record 0x16 when a second read is good, and contained while
the engine runs when it is not. A parity error of an SRAM line is reported when it is transient; a lasting one is remapped into a spare line of its bank while there is
one, and reported with those left; the fifth in a Pavilion bank retires the bank and forces a build; a retired bank is read no longer. A lost
stack or quarter (R533, R534): a stack of a running engine is mapped out, the loss contained and a build forced; the lanes of a quarter that is lost lose their steps and sit out, and a
build without it is forced; either is lost once. -/
def Obligations.MemoryErrorsAndLostUnits : Prop :=
  ((∀ (l : HbmLoc) (k : Fin 68) (s : State),
    (loggedBy (pseudoKey l * 68 + k.val) s.reliability.symbolCorrections).length < 1000 → ∃ u, exec (.hbmReadError l k) s = .next u ∧
      u.reliability.pseudoCorrections.find? (fun e => e.1 = pseudoKey l) = some (pseudoKey l,
        (((s.reliability.pseudoCorrections.find? (fun e => e.1 = pseudoKey l)).map (·.2)).getD 0) + 1) ∧
      u = { s with reliability := u.reliability, planner := u.planner, counts := u.counts, fns := u.fns, hostMem := u.hostMem, lodge := u.lodge } ∧
      (15 ≤ ((loggedBy (rowKey l) s.reliability.rowCorrections).filter (fun t => decide (hostTime s ≤ t + 86400000000000))).length →
        l.spareRows ≠ 0 → rowKey l ∈ u.reliability.rowRepairs)) ∧
  (∀ (l : HbmLoc) (lanes : List LaneId) (s : State),
    exec (.uncorrectableMemoryError l true lanes) s = .next (report (stretchLanes s lanes) 0x16 1 (locUid l) (memDetail l.address.toNat 0)) ∧
    exec (.burstCheckFail l true lanes) s = .next (report (stretchLanes s lanes) 0x16 1 (locUid l) (memDetail l.address.toNat 0)) ∧
    (s.boot.state = .running → ∀ i ∈ [Instr.uncorrectableMemoryError l false lanes, .burstCheckFail l false lanes],
      ∃ u, exec i s = .next u ∧ (u.boot.state = .chipReset ∨ u.boot.state = .halted) ∧ u.boot.dmaStopped = true ∧
        (∀ e ∈ u.lanes, e.2.step = none) ∧ u.fuses = s.fuses ∧ (u.boot.state = .chipReset → u.requests = []))) ∧
  (∀ (e : SramErr) (s : State), e.bank ∉ s.reliability.retiredBanks →
    (e.transient = true → exec (.sramParityError e) s = .next (report (stretchLanes s e.lanes) 0x10 1 (bankUid e.bank) (leBytes 4 e.line.toNat))) ∧
    (e.transient = false → (s.reliability.remaps.filter (fun m => m.1 = e.bank)).length < 4 → e.held = .unused ∨ e.held = .masterPlan →
      exec (.sramParityError e) s = .next (report { s with reliability := { s.reliability with remaps := s.reliability.remaps ++ [(e.bank, e.line)] } }
        0x11 2 (bankUid e.bank) (leBytes 4 e.line.toNat ++ leBytes 1 (3 - (s.reliability.remaps.filter (fun m => m.1 = e.bank)).length)))) ∧
    (e.transient = false → 4 ≤ (s.reliability.remaps.filter (fun m => m.1 = e.bank)).length → e.held = .unused →
      ∀ q b, e.bank = .pavilion q b → ∃ u, exec (.sramParityError e) s = .next u ∧
        u.reliability.retiredBanks = s.reliability.retiredBanks ++ [e.bank] ∧ BuildCause.bank ∈ u.planner.queued)) ∧
  (∀ (e : SramErr) (s : State), e.bank ∈ s.reliability.retiredBanks → exec (.sramParityError e) s = .next s)) ∧
  ((∀ (q k : Fin 4) (s : State), s.boot.state = .running → (q.val, k.val) ∉ s.planner.lostStacks → ∃ u, exec (.stackLost q k) s = .next u ∧
    u.planner.lostStacks = s.planner.lostStacks ++ [(q.val, k.val)] ∧ BuildCause.stack ∈ u.planner.queued ∧
    (u.boot.state = .chipReset ∨ u.boot.state = .halted) ∧ (∀ e ∈ u.lanes, e.2.step = none) ∧ u.fuses = s.fuses) ∧
  (∀ (q k : Fin 4) (s : State), (q.val, k.val) ∈ s.planner.lostStacks → exec (.stackLost q k) s = .next s) ∧
  (∀ (q : Fin 4) (rs : List (BitVec 32)) (xs : List (ObjKind × Fin 16384 × Nat)) (s : State), s.boot.state = .running →
    q.val ∉ s.planner.lostQuarters → ∃ u, exec (.quarterLost q rs xs) s = .next u ∧
      u.planner.lostQuarters = s.planner.lostQuarters ++ [q.val] ∧ BuildCause.quarter ∈ u.planner.queued ∧
      (∀ e ∈ u.lanes, e.2.plan.quarters.toNat.testBit q.val = true → e.2.step = none ∧ e.2.sitsOut = true) ∧
      u.boot = s.boot ∧ u.fuses = s.fuses) ∧
  (∀ (q : Fin 4) (rs : List (BitVec 32)) (xs : List (ObjKind × Fin 16384 × Nat)) (s : State), q.val ∈ s.planner.lostQuarters →
    exec (.quarterLost q rs xs) s = .next s))

/-! ### Temperature, power level (R422, R571–R583) -/

/-- Temperature and the output level (R422, R571–R573, R576–R583), while the Lodge runs. A sample that reaches the warning threshold with the rails on is
reported as record 0x40, one that reaches the throttle threshold begins the throttle state, reported as 0x41, and one that reaches the shutdown threshold, once
armed, turns the rails off with FATAL cause 5, as the comparator of a channel does. In the throttle state the thermal level falls at once, rises by a point per
10 ms, and the state ends below throttle clear with the level at 100. The power level falls by 5 points while a limit is exceeded, the first time reported as 0x45, and
rises by one below the limit by more than 100 W. A change of the output level is applied and reaches the steps under way, a step below its variant's level being
flagged; with no change nothing happens. The Lodge writes THERMAL. The rails return, as a module reset, below re-arm, unless the Lodge waits for a command. A coolant
reading within limits is kept, and one that leaves them is reported as 0x47. -/
def Obligations.TemperatureAndOutputLevel : Prop :=
  (∀ (rs : List Reading) (s t : State), s.lodge.alive = true → t = recomputeDue s ((numbered (rs.take 18)).foldl sampleChannel s) →
    t.thermal.shutdown > moduleTemp t.thermal → t.thermal.rearm ≤ moduleTemp t.thermal →
    (s.power.railsOn = false → exec (.diodeSample rs) s = .next t) ∧
    (s.power.railsOn = true → t.thermal.inWarning = false → t.thermal.warning ≤ moduleTemp t.thermal → moduleTemp t.thermal < t.thermal.throttle →
      exec (.diodeSample rs) s = .next (report { t with thermal := { t.thermal with inWarning := true } } 0x40 2
        (sensorUid (hotChannel t.thermal)) (leBytes 1 (hotChannel t.thermal) ++ [0] ++ leBytes 2 (twos 16 (moduleTemp t.thermal))))) ∧
    (s.power.railsOn = true → t.thermal.inWarning = true → t.thermal.warningClear ≤ moduleTemp t.thermal → t.thermal.inThrottle = false →
      t.thermal.throttle ≤ moduleTemp t.thermal → ∀ v, v = min t.thermal.thermalLevel (throttleValue t.thermal) →
      exec (.diodeSample rs) s = .next (report { t with thermal := { t.thermal with
          inThrottle := true, thermalLevel := v, lowestLevel := v, throttleAt := hostTime t, lastRiseAt := t.now } } 0x41 2 (sensorUid 0)
        (leBytes 2 (twos 16 (moduleTemp t.thermal)) ++ leBytes 1 v)))) ∧
  (∀ (rs : List Reading) (s t : State), s.lodge.alive = true → t = recomputeDue s ((numbered (rs.take 18)).foldl sampleChannel s) → s.power.railsOn = true →
    t.thermal.rearm ≤ moduleTemp t.thermal → t.thermal.armed = true → t.thermal.shutdown ≤ moduleTemp t.thermal →
    ∃ u, exec (.diodeSample rs) s = .next u ∧ u.power.railsOn = false ∧ u.power.state = .standby ∧ u.power.offReason = 2 ∧
      u.boot.fatal = true ∧ u.boot.fatalCause = 5 ∧ u.requests = [] ∧ u.fuses = s.fuses) ∧
  (∀ s : State, s.thermal.inThrottle = true → s.lodge.alive = true → s.power.railsOn = true →
    (throttleValue s.thermal < s.thermal.thermalLevel → throttleValue s.thermal < 100 → exec .throttle s = .next { s with thermal := { s.thermal with
      thermalLevel := throttleValue s.thermal, lowestLevel := min s.thermal.lowestLevel (throttleValue s.thermal), lastRiseAt := s.now } }) ∧
    (s.thermal.thermalLevel < throttleValue s.thermal → s.thermal.lastRiseAt + 10000000 ≤ s.now → s.thermal.thermalLevel < 99 →
      exec .throttle s = .next { s with thermal := { s.thermal with
        thermalLevel := s.thermal.thermalLevel + 1, lowestLevel := min s.thermal.lowestLevel (s.thermal.thermalLevel + 1), lastRiseAt := s.now } }) ∧
    (s.thermal.thermalLevel = 100 → moduleTemp s.thermal < s.thermal.throttleClear → throttleValue s.thermal = 100 →
      ∃ u, exec .throttle s = .next u ∧ u.thermal.inThrottle = false ∧ u.thermal.thermalLevel = 100)) ∧
  (∀ (m k : Nat) (s : State), s.lodge.alive = true → s.power.railsOn = true →
    (s.lodge.powerLimit < m ∨ 2600 < k → s.thermal.powerLevel ≠ 100 → exec (.powerLevel m k) s = .next { s with thermal := { s.thermal with
      powerLevel := max 25 (s.thermal.powerLevel - 5), mean1s := m } }) ∧
    (s.lodge.powerLimit < m ∨ 2600 < k → s.thermal.powerLevel = 100 → exec (.powerLevel m k) s = .next (report { s with thermal := { s.thermal with
      powerLevel := 95, mean1s := m } } 0x45 2 (sensorUid 0) (leBytes 2 m ++ leBytes 1 95))) ∧
    (m + 100 < s.lodge.powerLimit → k ≤ 2600 → exec (.powerLevel m k) s = .next { s with thermal := { s.thermal with
      mean1s := m, powerLevel := min 100 (s.thermal.powerLevel + 1) } })) ∧
  (∀ s : State, outputLevel s.thermal ≠ s.thermal.appliedLevel → ∃ u, exec .outputLevelChange s = .next u ∧
    u = { s with thermal := u.thermal, lanes := u.lanes } ∧ u.thermal.appliedLevel = outputLevel s.thermal ∧
    ∀ e ∈ u.lanes, ∀ st, e.2.step = some st → st.lowest ≤ outputLevel s.thermal ∧
      (outputLevel s.thermal < levelOf e.2.level → st.excursion = true)) ∧
  (∀ s : State, outputLevel s.thermal = s.thermal.appliedLevel → exec .outputLevelChange s = .next s) ∧
  (∀ s : State, s.lodge.alive = true → exec .thermalUpdate s = .next { s with thermal := { s.thermal with
    register := BitVec.ofNat 32 (thermalWord s.thermal) } }) ∧
  (∀ (c : Fin 18) (s : State), s.power.railsOn = true → ∃ u, exec (.hardThermalTrip c) s = .next u ∧ u.power.railsOn = false ∧
    u.power.state = .standby ∧ u.thermal.tripLatch = some c.val ∧ u.boot.fatal = true ∧ u.boot.fatalCause = 5 ∧ u.fuses = s.fuses) ∧
  (∀ s : State, s.lodge.alive = true → s.power.state = .standby → s.power.offReason = 2 → s.thermal.holdOff = false →
    moduleTemp s.thermal < s.thermal.rearm → ∃ u, exec .shutdownRearm s = .next u ∧ u.boot.sequence = .waitRails ∧ u.boot.lastReset = 1 ∧
      u.thermal.shutdowns = s.thermal.shutdowns ∧ u.thermal.armed = true ∧ u.fuses = s.fuses) ∧
  (∀ s : State, s.thermal.holdOff = true → exec .shutdownRearm s = .next s) ∧
  (∀ (i o : Reading) (x : List Reading) (s : State), s.lodge.alive = true →
    (coolantBad i o = false → exec (.coolantSample i o x) s = .next { s with thermal := { s.thermal with
      inlet := i, outlet := o, external := x.take 2, coolantRecordAt := none } }) ∧
    (coolantBad i o = true → s.thermal.coolantRecordAt = none → exec (.coolantSample i o x) s = .next (report { s with thermal := { s.thermal with
      inlet := i, outlet := o, external := x.take 2, coolantRecordAt := some s.now } } 0x47 2 (sensorUid 0)
      (readingField false i ++ readingField false o))))


/-! ### The pair and the fabric (R472–R482, R485, R490–R496) -/

/-- The pair (R485, R490, R491, R493–R496, R569). Once pairing is configured, a heartbeat goes out as the next flit of a pair port in link mode that is up, and is
counted; no other port changes. While the modules are paired, silence on every pair port partitions the pair if PAIR_OK_IN is asserted, and is the loss of the partner
without it, when no lane stays protected; either way no record waits for an acknowledgement. PAIR_OK_IN falling in a partition is a loss too. Mirror messages are taken
only while the modules are paired: of a request the partner mirrors here, its end, its pre-emption, and its steps, whose charge comes off the bucket kept for the
partner, and none of those of a request that is this module's own; a request opened there is kept as mirrored, deferred if it is so there; a bucket level, the partner's lanes, and whether it is Dormant, in which no
lane is protected and no record waits. An acknowledgement ends the lane's wait; one that is not awaited changes nothing. A pairing without the partner
ends after 60 s of host time, not before. -/
def Obligations.PairEvents : Prop :=
  (∀ (n : Fin 4) (s : State), s.pair.configured = true → (portGet s n.val).mode = 1 → portUp (portGet s n.val) = true → s.ports.length = 16 →
    0 < lgetD (portGet s n.val).credits 1 0 → (portGet s n.val).retry.length < 1024 → ∃ u, exec (.heartbeat n) s = .next u ∧
      u = { s with ports := u.ports } ∧ (portGet u n.val).heartbeatsOut = (portGet s n.val).heartbeatsOut + 1 ∧
      (portGet u n.val).txNext = ((portGet s n.val).txNext + 1) % 16777216 ∧
      (portGet u n.val).retry.length = (portGet s n.val).retry.length + 1 ∧ ∀ m, m ≠ n.val → portGet u m = portGet s m) ∧
  (∀ (n : Fin 4) (s : State), s.pair.configured = false → exec (.heartbeat n) s = .next s) ∧
  (∀ s : State, s.pair.phase = .paired → heartbeatsSilent s = true →
    (s.pair.okIn = true → ∃ u, exec .heartbeatSilent s = .next u ∧ u.pair.phase = .partitioned ∧ u.pair.unacked = [] ∧
      (∀ e ∈ u.lanes, e.2.protected_ = true → s.pair.partnerDormant = false) ∧ u.fuses = s.fuses ∧ u.boot = s.boot) ∧
    (s.pair.okIn = false → ∃ u, exec .heartbeatSilent s = .next u ∧ u.pair.phase = .partnerLost ∧ u.pair.unacked = [] ∧
      (∀ e ∈ u.lanes, e.2.protected_ = false) ∧ u.fuses = s.fuses ∧ u.boot = s.boot)) ∧
  (∀ s : State, s.pair.phase ≠ .paired ∨ heartbeatsSilent s = false → exec .heartbeatSilent s = .next s) ∧
  (∀ s : State, exec (.pairOkIn true) s = .next { s with pair := { s.pair with okIn := true } }) ∧
  (∀ s : State, s.pair.okIn = true → s.pair.phase = .partitioned → ∃ u, exec (.pairOkIn false) s = .next u ∧
    u.pair.okIn = false ∧ u.pair.phase = .partnerLost ∧ (∀ e ∈ u.lanes, e.2.protected_ = false)) ∧
  (∀ (s : State) (m : MirrorMsg), s.pair.phase ≠ .paired → exec (.mirror m) s = .next s) ∧
  (∀ s : State, s.pair.phase = .paired →
    (∀ (h : BitVec 32) r, sget s.requests h.toNat = some r → r.mirrored = true →
      exec (.mirror (.ended h)) s = .next { s with requests := sdel s.requests h.toNat } ∧
      exec (.mirror (.preempted h)) s = .next { s with requests := smod s.requests h.toNat (fun q =>
        { q with state := .preempted, preemptedAt := hostTime s }) } ∧
      ∀ n token res kv carried charge, ∃ u, exec (.mirror (.step h n token res kv carried charge)) s = .next u ∧
        u = { s with requests := u.requests, accounts := u.accounts } ∧
        u.accounts = smod s.accounts r.account (fun a => { a with buckets := lmod a.buckets r.cls (fun b =>
          { b with mirrored := b.mirrored - Int.ofNat (charge * 1024) }) })) ∧
    (∀ (h : BitVec 32) r, sget s.requests h.toNat = some r → r.mirrored = false →
      exec (.mirror (.ended h)) s = .next s ∧ exec (.mirror (.preempted h)) s = .next s) ∧
    (∀ (h : BitVec 32) p d, sget s.requests h.toNat = none → ∃ u q, exec (.mirror (.opened h p d)) s = .next u ∧
      u = { s with requests := u.requests, nextOrder := s.nextOrder + 1 } ∧ sget u.requests h.toNat = some q ∧ q.mirrored = true ∧
      (d = true → q.state = .deferred)) ∧
    (∀ a cls l, exec (.mirror (.level a cls l)) s = .next { s with accounts := smod s.accounts a.val (fun x => { x with
      buckets := lmod x.buckets cls.val (fun b => { b with mirrored := l }) }) }) ∧
    (∀ ds, ∃ u, exec (.mirror (.lanes ds)) s = .next u ∧ u.pair = { s.pair with partner := s.pair.partner.map (fun p => { p with lanes := ds }) } ∧
      u.requests = s.requests) ∧
    exec (.mirror (.dormant false)) s = .next (protectLanes { s with pair := { s.pair with partnerDormant := false } }) ∧
    (∃ u, exec (.mirror (.dormant true)) s = .next u ∧ u.pair = { s.pair with partnerDormant := true, unacked := [] } ∧
      ∀ e ∈ u.lanes, e.2.protected_ = false)) ∧
  (∀ (g : LaneId) (s : State), g.val ∈ s.pair.unacked → ∃ u, exec (.mirrorAcknowledgement g) s = .next u ∧
    u.pair = { s.pair with unacked := s.pair.unacked.filter (fun x => x ≠ g.val) } ∧ u.fuses = s.fuses ∧ u.boot = s.boot) ∧
  (∀ (g : LaneId) (s : State), g.val ∉ s.pair.unacked → exec (.mirrorAcknowledgement g) s = .next s) ∧
  (∀ s : State, s.pair.phase = .establishing → pairJob s = true → s.pair.startedAt + 60000000000 ≤ hostTime s →
    s.pair.partner = none → ∃ u, exec .pairConfigureTimeout s = .next u ∧ u.pair.phase = .unpaired ∧ u.pair.configured = false ∧
      pairJob u = false ∧ u.fuses = s.fuses ∧ u.boot = s.boot) ∧
  (∀ s : State, hostTime s < s.pair.startedAt + 60000000000 → exec .pairConfigureTimeout s = .next s)

/-- Fabric ports (R472–R475, R478–R482). A training that times out tries the direct profile next. A port in training comes up with the lanes that trained, a network port only
with four, degraded with fewer. A port in Hachate mode that loses a lane goes on with two or one, and fails with its last; a network port goes down; a port that is down loses none. A retraining that times
out fails the port. On a port in Hachate mode that is up, a flit in its turn is taken, and what it acknowledges leaves the retry buffer; one whose check fails is asked for
again; a negative acknowledgement resends from the flit it names and, the eighth time for one flit, retrains the port. On a network port that is up, a datagram in its turn is
taken and acknowledged, and what it acknowledges waits no longer; one that is malformed is dropped; a refusal is taken in its turn like any other, and one of a KV
write sends the block to the next destination, here the start of the swap area, the peer being full; a datagram
without an answer for 200 µs is sent again, up to eight times, and then given up and reported as 0x39; a network prefix and a neighbour heard are kept. (Flit and datagram numbers
start where log entry 18 says.) -/
def Obligations.FabricEvents : Prop :=
  ∀ (n : PortId) (s : State) (p : Port), s.ports[n.val]? = some p →
    (p.state = 1 → exec (.portTrainingTimeout n) s = .next { s with ports := s.ports.set n.val { p with offeredBackplane := false } }) ∧
    (∀ k : Fin 5, p.state = 1 → k ≠ 0 → (p.mode = 2 → k = 4) → p.queued = [] → s.pair.partner = none → exec (.fabricPortUp n p.offeredBackplane k) s =
      .next { s with ports := s.ports.set n.val { p with
        state := if k.val = 4 then 2 else 3, lanes := k.val, profile := if p.offeredBackplane then 1 else 2,
        retraining := false, failCount := 0, lastHeartbeatIn := s.now } }) ∧
    (∀ k : Fin 5, k ≠ 4 → p.mode = 2 → s.pair.partner = none → exec (.fabricPortUp n p.offeredBackplane k) s = .next s) ∧
    (portUp p = true → p.mode = 1 → 2 ≤ p.lanes → ∃ u, exec (.laneFailure n) s = .next u ∧
      u.ports = s.ports.set n.val { p with state := 3, lanes := if 2 < p.lanes then 2 else 1 } ∧ u.fuses = s.fuses) ∧
    (portUp p = true → p.mode = 1 → p.lanes < 2 → ∃ u, exec (.laneFailure n) s = .next u ∧ u.ports = s.ports.set n.val { p with state := 4, lanes := 0 } ∧
      u.fuses = s.fuses) ∧
    (portUp p = true → p.mode = 2 → ∃ u, exec (.laneFailure n) s = .next u ∧ u.ports = s.ports.set n.val { p with state := 0, lanes := 0 } ∧
      u.fuses = s.fuses) ∧
    (portUp p = false → exec (.laneFailure n) s = .next s) ∧
    (p.state = 1 → p.retraining = true → ∃ u, exec (.retrainTimeout n) s = .next u ∧
      u.ports = s.ports.set n.val { p with state := 4, lanes := 0, retraining := false } ∧ u.fuses = s.fuses) ∧
    (p.retraining = false → exec (.retrainTimeout n) s = .next s) ∧
    (∀ f : Bytes, portUp p = true → p.mode = 1 → flitOk f = true → leAt f 0 1 / 4 = 1 → leAt f 1 3 = p.rxNext →
      ∃ u, exec (.hachateFlit n f 0 false) s = .next u ∧ u = { s with ports := u.ports } ∧
        (portGet u n.val).rxNext = (p.rxNext + 1) % 16777216 ∧ (portGet u n.val).acked = leAt f 4 3 ∧ (portGet u n.val).naks = p.naks ∧
        (p.queued = [] → (portGet u n.val).retry = p.retry.filter (fun e => !flitUpTo e.1 (leAt f 4 3))) ∧
        ∀ m, m ≠ n.val → portGet u m = portGet s m) ∧
    (∀ f : Bytes, portUp p = true → p.mode = 1 → flitOk f = false → exec (.hachateFlit n f 0 false) s =
      .next { s with ports := s.ports.set n.val { p with naks := p.rxNext :: p.naks } }) ∧
    (∀ (q : BitVec 24), portUp p = true → p.mode = 1 → p.failCount = 0 → exec (.negativeAcknowledgement n q) s =
      .next { s with ports := s.ports.set n.val { p with
        resends := min 65535 (p.resends + (p.retry.filter (fun e => flitUpTo q.toNat e.1)).length), failSeq := q.toNat, failCount := 1,
        sent := ((p.retry.filter (fun e => flitUpTo q.toNat e.1)).map (·.2)).reverse ++ p.sent } }) ∧
    (∀ (q : BitVec 24), portUp p = true → p.mode = 1 → p.failSeq = q.toNat → p.failCount = 7 → exec (.negativeAcknowledgement n q) s =
      .next { s with ports := s.ports.set n.val { p with
        state := 1, retraining := true, offeredBackplane := decide (p.profile = 1), failCount := 0 } }) ∧
    (∀ (src : BitVec 128) (b : Bytes), portUp p = true → p.mode = 2 → datagramOk b = true → leAt b 1 1 = 2 →
      leAt b 4 4 = sgetD p.dgRx src.toNat 0 + 1 → ∃ u, exec (.datagram n src b) s = .next u ∧ u = { s with ports := u.ports } ∧
        sget (portGet u n.val).dgRx src.toNat = some (leAt b 4 4) ∧
        (portGet u n.val).unacked = p.unacked.filter (fun x => ¬(x.destination = src ∧ x.sequence ≤ leAt b 8 4)) ∧
        (portGet u n.val).sent = datagramBytes 4 0 (leAt b 4 4) [] :: p.sent) ∧
    (∀ (src : BitVec 128) (b : Bytes), datagramOk b = false → exec (.datagram n src b) s = .next s) ∧
    (∀ (src : BitVec 128) (b : Bytes), portUp p = true → p.mode = 2 → refusalOk b = true → leAt b 4 4 = sgetD p.dgRx src.toNat 0 + 1 →
      p.asked.find? (fun a => a.sequence = leAt b 28 4 ∧ a.destination = src) = none →
      ∃ u, exec (.refusal n src b) s = .next u ∧ u = { s with ports := u.ports } ∧ sget (portGet u n.val).dgRx src.toNat = some (leAt b 4 4) ∧
        (portGet u n.val).unacked = p.unacked.filter (fun x => ¬(x.destination = src ∧ x.sequence ≤ leAt b 8 4)) ∧
        (portGet u n.val).sent = datagramBytes 4 0 (leAt b 4 4) [] :: p.sent) ∧
    (∀ (src : BitVec 128) (b : Bytes), p.mode = 2 → refusalOk b = false → exec (.refusal n src b) s = .next s) ∧
    (∀ (src : BitVec 128) (b : Bytes) h i r y, portUp p = true → p.mode = 2 → refusalOk b = true → leAt b 4 4 = sgetD p.dgRx src.toNat 0 + 1 →
      (p.asked.find? (fun a => a.sequence = leAt b 28 4 ∧ a.destination = src)).map (·.purpose) = some (.block h i) →
      sget s.requests h = some r → r.blocks[i]? = some y → y.location = .leaving → y.dest = .peer → y.port = n.val →
      (∀ t : State, t.kv = { s.kv with peers := smod s.kv.peers n.val (fun k => { k with full := true }) } → t.requests = s.requests →
        copyDestination t [y.bytes] = some (.hostSwap, 0, [0])) →
      ∃ u, exec (.refusal n src b) s = .next u ∧ u.kv.peers = smod s.kv.peers n.val (fun k => { k with full := true }) ∧
        u.requests = smod s.requests h (fun q => { q with blocks := lmod q.blocks i (fun x => { x with dest := .hostSwap, port := 0, destAt := 0 }) })) ∧
    (∀ x, p.unacked.find? (fun y => y.sentAt + 200000 ≤ s.now) = some x →
      (x.attempts < 8 → exec (.datagramResend n) s = .next { s with ports := s.ports.set n.val { p with
        sent := x.payload :: p.sent,
        unacked := p.unacked.map (fun y => if y = x then { y with attempts := y.attempts + 1, sentAt := s.now } else y) } }) ∧
      (8 ≤ x.attempts → x.fetch = none → (∀ a ∈ p.asked, a.sequence ≠ x.sequence) → exec (.datagramResend n) s = .next (report { s with ports := s.ports.set n.val { p with
        unacked := p.unacked.filter (fun y => y ≠ x) } } 0x39 2 (fabricUid n.val) (leBytes 16 x.destination.toNat)))) ∧
    (∀ a m, portUp p = true → p.mode = 2 → a ∉ p.networks → exec (.neighbourDiscoveryMessage n (some a) (some m)) s =
      .next { s with ports := s.ports.set n.val { p with
        networks := p.networks ++ [a], neighbours := p.neighbours.filter (fun x => x.1 ≠ m.1) ++ [m] } })

/-! ### The block as a whole -/

/-- For every command and state, a step with the command at the front of the queue is that command on the state with the queue's rest; every command answers a
next state, no fault and no refusal; on an empty queue only elapsed time and powered time advance, by a cycle of the reference clock (the model's choice, log
entry 1). -/
def Obligations.StepRunsTheFrontCommand : Prop :=
  (∀ (c : Instr) (rest : List Instr) (s : State), step { s with pending := c :: rest } = exec c { s with pending := rest }) ∧
  (∀ (c : Instr) (s : State), Runs (exec c s)) ∧
  (∀ s : State, s.pending = [] → ∃ u, step s = .next u ∧ u.now = s.now + 10 ∧ u = { s with now := u.now, powered := u.powered })

/-- Reset (R419, R421, R424, R575, R587, R588): at event A the Lodge ROM verifies, the main rails are off, nothing is loaded,
fused or queued; the memories are in their canonical form. (That State.reset stands at event A of a module as it is made is the
model's choice, log entry 9.) -/
def Obligations.ResetValues : Prop :=
  State.reset.boot.sequence = .lodgeRom ∧ State.reset.boot.lastReset = 0 ∧ State.reset.boot.fatal = false ∧
  State.reset.boot.dmaStopped = true ∧ State.reset.power.state = .standby ∧ State.reset.power.railsOn = false ∧
  State.reset.lodge.alive = false ∧ State.reset.lodge.scrubPeriods = [10, 10, 28800, 86400] ∧ State.reset.lodge.setpointMv = 720 ∧
  State.reset.lodge.powerLimit = 2400 ∧ State.reset.thermal.throttle = 800 ∧ State.reset.thermal.shutdown = 896 ∧
  State.reset.fuses.ownerKeyHash = 0 ∧ State.reset.fuses.securityVersion = 0 ∧ State.reset.kv.poolGib = 512 ∧
  State.reset.reliability.rehashHours = 24 ∧ State.reset.planner.checkCode = 1 ∧ State.reset.requests = [] ∧ State.reset.graphs = [] ∧
  State.reset.objects = [] ∧ State.reset.queues = [] ∧ State.reset.rings = [] ∧ State.reset.pending = [] ∧ MemoryWf State.reset

/-- Whatever a step does, the addressed memories keep their canonical form: addresses strictly rising, no cell that reads as an
unlisted address does (log entry 5). -/
def Obligations.EveryStepKeepsMemoryForm : Prop :=
  ∀ s t : State, MemoryWf s → step s = .next t → MemoryWf t

/-- Fuses (R536): a fuse bit can be set and never cleared, whatever the step; the vendor's fuses never change, and the owner key is
fused once. -/
def Obligations.FuseBitsAreNeverCleared : Prop :=
  ∀ s t : State, step s = .next t →
    (∀ i, s.fuses.ownerKeyHash.getLsbD i = true → t.fuses.ownerKeyHash.getLsbD i = true) ∧
    (∀ i, s.fuses.securityVersion.getLsbD i = true → t.fuses.securityVersion.getLsbD i = true) ∧
    (s.fuses.ownerKeyHash ≠ 0 → t.fuses.ownerKeyHash = s.fuses.ownerKeyHash) ∧
    t.fuses = { s.fuses with ownerKeyHash := t.fuses.ownerKeyHash, securityVersion := t.fuses.securityVersion }

/-- The checks of R452 in their order, for a packet whose chain has been read: a reserved field that is not zero, the critical flag,
the session field, the authentication code, the counter, an opcode of the physical function only. The first failure is the reply, and
no failing packet but one whose code and counter passed changes anything beside its reply.
UNKNOWN_OPCODE (R452): an opcode the tables do not assign is answered INVALID with Detail 2, its chain is consumed, and
nothing else changes. -/
def Obligations.PacketChecksInOrder : Prop :=
  (∀ (c : Ctx) (s : State) (row : OpRow) (body : Ctx → State → State), opRow c.origin.opcode = some row →
    (∀ off, firstReserved row c.chain = some off → carryPacket c s body = reply c s .invalid off []) ∧
    (firstReserved row c.chain = none →
      (hdrCritical c.chain ≠ row.critical → carryPacket c s body = reply c s .invalid 1 []) ∧
      (hdrCritical c.chain = row.critical →
        (sessionBad s c = true → carryPacket c s body = reply c s .invalid 6 []) ∧
        (sessionBad s c = false → row.critical = true →
          (packetKey s c = none → carryPacket c s body = reply c s .authFail 1 []) ∧
          (∀ k, packetKey s c = some k → trailerOk k c.chain = false → carryPacket c s body = reply c s .authFail 1 []) ∧
          (∀ k, packetKey s c = some k → trailerOk k c.chain = true → trailerCounter c.chain ≤ packetCounter s c →
            carryPacket c s body = reply c s .counterRejected 0 []) ∧
          (∀ k, packetKey s c = some k → trailerOk k c.chain = true → packetCounter s c < trailerCounter c.chain →
            row.pfOnly = true → c.fn ≠ 0 → row.opcode ≠ 0x0505 → row.opcode ≠ 0x0506 →
            carryPacket c s body = reply c (setPacketCounter s c (trailerCounter c.chain)) .invalid 2 [])) ∧
        (sessionBad s c = false → row.critical = false → row.pfOnly = true → c.fn ≠ 0 → row.opcode ≠ 0x0505 → row.opcode ≠ 0x0506 →
          carryPacket c s body = reply c s .invalid 2 [])))) ∧
  (∀ p s q, opRow (hdrOpcode p.chain) = none → Read (hdrOpcode p.chain) p s q →
    exec (.unknownOpcode p) s = .next (reply (ctxRead (hdrOpcode p.chain) p s q)
      (consumed s p q (hdrUnits (chainRead (hdrOpcode p.chain) p))) .invalid 2 []))
end

