-- ==== Sys2Proof/Laws/Memory.lean ====
section
/-! SUPPORT. The addressed memories: a byte reads as it was last written, and every write keeps the canonical form. -/

namespace Sys2Proof.Laws
open Sys2Proof Sys2Proof.Machine

/-- A cell after a write is the one written or one that was there. -/
theorem mem_cellsWrite {l : List Host.Cell} {a : Nat} {v : Byte} {c : Host.Cell} (h : c ∈ cellsWrite l a v) :
    c = (a, v) ∧ v ≠ 0 ∨ c ∈ l := by
  induction l with
  | nil =>
    unfold cellsWrite at h
    split at h
    · simp at h
    · rename_i hv; simp at h; exact .inl ⟨h, hv⟩
  | cons e r ih =>
    obtain ⟨k, w⟩ := e
    unfold cellsWrite at h
    split at h
    · split at h
      · exact .inr h
      · rename_i hv; rcases List.mem_cons.mp h with h | h
        · exact .inl ⟨h, hv⟩
        · exact .inr h
    · split at h
      · split at h
        · exact .inr (List.mem_cons_of_mem _ h)
        · rename_i hv; rcases List.mem_cons.mp h with h | h
          · exact .inl ⟨h, hv⟩
          · exact .inr (List.mem_cons_of_mem _ h)
      · rcases List.mem_cons.mp h with h | h
        · exact .inr (h ▸ List.mem_cons_self)
        · rcases ih h with h | h
          · exact .inl h
          · exact .inr (List.mem_cons_of_mem _ h)

/-- Rising addresses stay rising. -/
theorem cellsWrite_rising {l : List Host.Cell} (a : Nat) (v : Byte) (h : (l.map (·.1)).Pairwise (· < ·)) :
    ((cellsWrite l a v).map (·.1)).Pairwise (· < ·) := by
  induction l with
  | nil => unfold cellsWrite; split <;> simp
  | cons e r ih =>
    obtain ⟨k, w⟩ := e
    have hc : (∀ c ∈ r, k < c.1) ∧ (r.map (·.1)).Pairwise (· < ·) := by simpa using h
    unfold cellsWrite
    split
    · rename_i hk
      split
      · exact h
      · have : ∀ c ∈ r, a < c.1 := fun c hm => Nat.lt_trans hk (hc.1 c hm)
        simp only [List.map_cons, List.pairwise_cons, List.mem_cons, List.mem_map] at *
        refine ⟨?_, h⟩
        rintro x (rfl | ⟨c, hm, rfl⟩)
        · exact hk
        · exact this c hm
    · split
      · rename_i h1 hk
        subst hk
        split
        · exact hc.2
        · simpa using hc
      · rename_i h1 h2
        simp only [List.map_cons, List.pairwise_cons, List.mem_map]
        refine ⟨?_, ih hc.2⟩
        rintro x ⟨c, hm, rfl⟩
        rcases mem_cellsWrite hm with ⟨rfl, -⟩ | hm
        · show k < a; omega
        · exact hc.1 c hm

/-- The canonical form, as its two parts. -/
theorem Memory.wf_iff (m : Memory) :
    m.wf = true ↔ (m.cells.map (·.1)).Pairwise (· < ·) ∧ ∀ c ∈ m.cells, c.2 ≠ 0 := by
  simp [Memory.wf]

/-- A write keeps the canonical form. -/
theorem memWrite_wf {m : Memory} (h : m.wf = true) (a : Nat) (v : Byte) : (memWrite m a v).wf = true := by
  rw [Memory.wf_iff] at *
  refine ⟨cellsWrite_rising a v h.1, fun c hc => ?_⟩
  rcases mem_cellsWrite hc with ⟨rfl, hv⟩ | hm
  · exact hv
  · exact h.2 c hm

/-- A run of writes keeps it too. -/
theorem memWriteBytes_wf {m : Memory} (h : m.wf = true) (a : Nat) (b : Bytes) : (memWriteBytes m a b).wf = true := by
  induction b generalizing m a with
  | nil => exact h
  | cons x r ih => exact ih (memWrite_wf h a x) (a + 1)

theorem empty_wf : ({} : Memory).wf = true := by decide

/-- An address below every listed one reads 0. -/
theorem cellsRead_below {l : List Host.Cell} {a : Nat} (h : ∀ c ∈ l, a < c.1) : cellsRead l a = 0 := by
  induction l with
  | nil => rfl
  | cons e r ih =>
    obtain ⟨k, w⟩ := e
    have hk : a < k := h (k, w) List.mem_cons_self
    have : k ≠ a := by omega
    simp only [cellsRead, if_neg this]
    exact ih (fun c hc => h c (List.mem_cons_of_mem _ hc))

/-- A byte reads as it was last written. -/
theorem memRead_memWrite_same {m : Memory} (h : m.wf = true) (a : Nat) (v : Byte) : memRead (memWrite m a v) a = v := by
  obtain ⟨l⟩ := m
  have hp := ((Memory.wf_iff _).mp h).1
  clear h
  simp only [memRead, memWrite]
  induction l with
  | nil => unfold cellsWrite; split <;> simp_all [cellsRead]
  | cons e r ih =>
    obtain ⟨k, w⟩ := e
    have hc : (∀ c ∈ r, k < c.1) ∧ (r.map (·.1)).Pairwise (· < ·) := by simpa using hp
    unfold cellsWrite
    split
    · rename_i hk
      split
      · rename_i hv
        have hne : k ≠ a := by omega
        simp only [cellsRead, if_neg hne, hv]
        exact cellsRead_below (fun c hm => Nat.lt_trans hk (hc.1 c hm))
      · simp [cellsRead]
    · split
      · rename_i h1 hk
        subst hk
        split
        · rename_i hv; rw [hv]; exact cellsRead_below hc.1
        · simp [cellsRead]
      · rename_i h1 h2
        simp only [cellsRead, if_neg (Ne.symm h2)]
        exact ih hc.2

/-- A write leaves every other byte alone. -/
theorem memRead_memWrite_other (m : Memory) {a b : Nat} (v : Byte) (h : b ≠ a) : memRead (memWrite m a v) b = memRead m b := by
  obtain ⟨l⟩ := m
  simp only [memRead, memWrite]
  induction l with
  | nil => unfold cellsWrite; split <;> simp [cellsRead, Ne.symm h]
  | cons e r ih =>
    obtain ⟨k, w⟩ := e
    unfold cellsWrite
    split
    · split <;> simp [cellsRead, Ne.symm h]
    · split
      · rename_i hk; subst hk; split <;> simp [cellsRead, Ne.symm h]
      · simp only [cellsRead, ih]

/-- A run of writes leaves every byte outside it alone. -/
theorem memRead_memWriteBytes_outside (m : Memory) (a : Nat) (b : Bytes) {x : Nat} (h : x < a ∨ a + b.length ≤ x) :
    memRead (memWriteBytes m a b) x = memRead m x := by
  induction b generalizing m a with
  | nil => rfl
  | cons v r ih =>
    simp only [List.length_cons] at h
    rw [memWriteBytes, ih _ _ (by omega), memRead_memWrite_other _ _ (by omega)]

/-- A run of bytes reads as it was last written. -/
theorem memReadBytes_memWriteBytes {m : Memory} (h : m.wf = true) (a : Nat) (b : Bytes) :
    memReadBytes (memWriteBytes m a b) a b.length = b := by
  induction b generalizing m a with
  | nil => rfl
  | cons v r ih =>
    simp only [List.length_cons, memReadBytes, memWriteBytes]
    rw [ih (memWrite_wf h a v), memRead_memWriteBytes_outside _ _ _ (by omega), memRead_memWrite_same h]

end Sys2Proof.Laws
end

