-- ==== Sys2Proof/Laws/State.lean ====
section
/-! SUPPORT. What the named updates of State leave as it was: for each, its own field and every other, true by unfolding. -/

namespace Sys2Proof.Laws
open Sys2Proof Sys2Proof.Machine

@[simp] theorem tick_fields (s : State) :
    (tick s).pending = s.pending ∧ (tick s).now = s.now + tickNs ∧ (tick s).freeIdx = s.freeIdx ∧
    (tick s).fuses = s.fuses ∧ (tick s).boot = s.boot ∧ (tick s).power = s.power ∧ (tick s).thermal = s.thermal ∧
    (tick s).lodge = s.lodge ∧ (tick s).counts = s.counts ∧ (tick s).link = s.link ∧ (tick s).fns = s.fns ∧
    (tick s).queues = s.queues ∧ (tick s).rings = s.rings ∧ (tick s).spdm = s.spdm ∧ (tick s).sessions = s.sessions ∧
    (tick s).jobs = s.jobs ∧ (tick s).dormantWait = s.dormantWait ∧ (tick s).time = s.time ∧
    (tick s).accounts = s.accounts ∧ (tick s).objects = s.objects ∧ (tick s).publisherKeys = s.publisherKeys ∧
    (tick s).servers = s.servers ∧ (tick s).graphs = s.graphs ∧ (tick s).lanes = s.lanes ∧
    (tick s).planner = s.planner ∧ (tick s).requests = s.requests ∧ (tick s).nextOrder = s.nextOrder ∧
    (tick s).kv = s.kv ∧ (tick s).arrays = s.arrays ∧ (tick s).sites = s.sites ∧ (tick s).quartz = s.quartz ∧
    (tick s).layerSteps = s.layerSteps ∧ (tick s).histories = s.histories ∧
    (tick s).repairAdapters = s.repairAdapters ∧ (tick s).cores = s.cores ∧ (tick s).reliability = s.reliability ∧
    (tick s).probes = s.probes ∧ (tick s).ports = s.ports ∧ (tick s).pair = s.pair ∧ (tick s).erases = s.erases ∧
    (tick s).measured = s.measured ∧ (tick s).hostMem = s.hostMem ∧ (tick s).debugMem = s.debugMem := by
  and_intros <;> rfl

@[simp] theorem fnSet_fields (s : State) (n : Nat) (f : FnState) :
    (fnSet s n f).pending = s.pending ∧ (fnSet s n f).now = s.now ∧ (fnSet s n f).freeIdx = s.freeIdx ∧
    (fnSet s n f).powered = s.powered ∧ (fnSet s n f).fuses = s.fuses ∧ (fnSet s n f).boot = s.boot ∧
    (fnSet s n f).power = s.power ∧ (fnSet s n f).thermal = s.thermal ∧ (fnSet s n f).lodge = s.lodge ∧
    (fnSet s n f).counts = s.counts ∧ (fnSet s n f).link = s.link ∧ (fnSet s n f).fns = sput s.fns n f ∧
    (fnSet s n f).queues = s.queues ∧ (fnSet s n f).rings = s.rings ∧ (fnSet s n f).spdm = s.spdm ∧
    (fnSet s n f).sessions = s.sessions ∧ (fnSet s n f).jobs = s.jobs ∧ (fnSet s n f).dormantWait = s.dormantWait ∧
    (fnSet s n f).time = s.time ∧ (fnSet s n f).accounts = s.accounts ∧ (fnSet s n f).objects = s.objects ∧
    (fnSet s n f).publisherKeys = s.publisherKeys ∧ (fnSet s n f).servers = s.servers ∧
    (fnSet s n f).graphs = s.graphs ∧ (fnSet s n f).lanes = s.lanes ∧ (fnSet s n f).planner = s.planner ∧
    (fnSet s n f).requests = s.requests ∧ (fnSet s n f).nextOrder = s.nextOrder ∧ (fnSet s n f).kv = s.kv ∧
    (fnSet s n f).arrays = s.arrays ∧ (fnSet s n f).sites = s.sites ∧ (fnSet s n f).quartz = s.quartz ∧
    (fnSet s n f).layerSteps = s.layerSteps ∧ (fnSet s n f).histories = s.histories ∧
    (fnSet s n f).repairAdapters = s.repairAdapters ∧ (fnSet s n f).cores = s.cores ∧
    (fnSet s n f).reliability = s.reliability ∧ (fnSet s n f).probes = s.probes ∧ (fnSet s n f).ports = s.ports ∧
    (fnSet s n f).pair = s.pair ∧ (fnSet s n f).erases = s.erases ∧ (fnSet s n f).measured = s.measured ∧
    (fnSet s n f).hostMem = s.hostMem ∧ (fnSet s n f).debugMem = s.debugMem := by
  and_intros <;> rfl

@[simp] theorem hostWrite_fields (s : State) (a : Nat) (b : Bytes) :
    (hostWrite s a b).pending = s.pending ∧ (hostWrite s a b).now = s.now ∧ (hostWrite s a b).freeIdx = s.freeIdx ∧
    (hostWrite s a b).powered = s.powered ∧ (hostWrite s a b).fuses = s.fuses ∧ (hostWrite s a b).boot = s.boot ∧
    (hostWrite s a b).power = s.power ∧ (hostWrite s a b).thermal = s.thermal ∧ (hostWrite s a b).lodge = s.lodge ∧
    (hostWrite s a b).counts = s.counts ∧ (hostWrite s a b).link = s.link ∧ (hostWrite s a b).fns = s.fns ∧
    (hostWrite s a b).queues = s.queues ∧ (hostWrite s a b).rings = s.rings ∧ (hostWrite s a b).spdm = s.spdm ∧
    (hostWrite s a b).sessions = s.sessions ∧ (hostWrite s a b).jobs = s.jobs ∧
    (hostWrite s a b).dormantWait = s.dormantWait ∧ (hostWrite s a b).time = s.time ∧
    (hostWrite s a b).accounts = s.accounts ∧ (hostWrite s a b).objects = s.objects ∧
    (hostWrite s a b).publisherKeys = s.publisherKeys ∧ (hostWrite s a b).servers = s.servers ∧
    (hostWrite s a b).graphs = s.graphs ∧ (hostWrite s a b).lanes = s.lanes ∧ (hostWrite s a b).planner = s.planner ∧
    (hostWrite s a b).requests = s.requests ∧ (hostWrite s a b).nextOrder = s.nextOrder ∧
    (hostWrite s a b).kv = s.kv ∧ (hostWrite s a b).arrays = s.arrays ∧ (hostWrite s a b).sites = s.sites ∧
    (hostWrite s a b).quartz = s.quartz ∧ (hostWrite s a b).layerSteps = s.layerSteps ∧
    (hostWrite s a b).histories = s.histories ∧ (hostWrite s a b).repairAdapters = s.repairAdapters ∧
    (hostWrite s a b).cores = s.cores ∧ (hostWrite s a b).reliability = s.reliability ∧
    (hostWrite s a b).probes = s.probes ∧ (hostWrite s a b).ports = s.ports ∧ (hostWrite s a b).pair = s.pair ∧
    (hostWrite s a b).erases = s.erases ∧ (hostWrite s a b).measured = s.measured ∧
    (hostWrite s a b).hostMem = memWriteBytes s.hostMem a b ∧ (hostWrite s a b).debugMem = s.debugMem := by
  and_intros <;> rfl

@[simp] theorem setCount_fields (s : State) (c : RecordCount) :
    (setCount s c).pending = s.pending ∧ (setCount s c).now = s.now ∧ (setCount s c).freeIdx = s.freeIdx ∧
    (setCount s c).powered = s.powered ∧ (setCount s c).fuses = s.fuses ∧ (setCount s c).boot = s.boot ∧
    (setCount s c).power = s.power ∧ (setCount s c).thermal = s.thermal ∧ (setCount s c).lodge = s.lodge ∧
    (setCount s c).link = s.link ∧ (setCount s c).fns = s.fns ∧ (setCount s c).queues = s.queues ∧
    (setCount s c).rings = s.rings ∧ (setCount s c).spdm = s.spdm ∧ (setCount s c).sessions = s.sessions ∧
    (setCount s c).jobs = s.jobs ∧ (setCount s c).dormantWait = s.dormantWait ∧ (setCount s c).time = s.time ∧
    (setCount s c).accounts = s.accounts ∧ (setCount s c).objects = s.objects ∧
    (setCount s c).publisherKeys = s.publisherKeys ∧ (setCount s c).servers = s.servers ∧
    (setCount s c).graphs = s.graphs ∧ (setCount s c).lanes = s.lanes ∧ (setCount s c).planner = s.planner ∧
    (setCount s c).requests = s.requests ∧ (setCount s c).nextOrder = s.nextOrder ∧ (setCount s c).kv = s.kv ∧
    (setCount s c).arrays = s.arrays ∧ (setCount s c).sites = s.sites ∧ (setCount s c).quartz = s.quartz ∧
    (setCount s c).layerSteps = s.layerSteps ∧ (setCount s c).histories = s.histories ∧
    (setCount s c).repairAdapters = s.repairAdapters ∧ (setCount s c).cores = s.cores ∧
    (setCount s c).reliability = s.reliability ∧ (setCount s c).probes = s.probes ∧ (setCount s c).ports = s.ports ∧
    (setCount s c).pair = s.pair ∧ (setCount s c).erases = s.erases ∧ (setCount s c).measured = s.measured ∧
    (setCount s c).hostMem = s.hostMem ∧ (setCount s c).debugMem = s.debugMem := by
  and_intros <;> rfl

@[simp] theorem violation_fields (s : State) (n : Nat) :
    (violation s n).pending = s.pending ∧ (violation s n).now = s.now ∧ (violation s n).freeIdx = s.freeIdx ∧
    (violation s n).powered = s.powered ∧ (violation s n).fuses = s.fuses ∧ (violation s n).boot = s.boot ∧
    (violation s n).power = s.power ∧ (violation s n).thermal = s.thermal ∧ (violation s n).counts = s.counts ∧
    (violation s n).link = s.link ∧ (violation s n).fns = s.fns ∧ (violation s n).queues = s.queues ∧
    (violation s n).rings = s.rings ∧ (violation s n).spdm = s.spdm ∧ (violation s n).sessions = s.sessions ∧
    (violation s n).jobs = s.jobs ∧ (violation s n).dormantWait = s.dormantWait ∧ (violation s n).time = s.time ∧
    (violation s n).accounts = s.accounts ∧ (violation s n).objects = s.objects ∧
    (violation s n).publisherKeys = s.publisherKeys ∧ (violation s n).servers = s.servers ∧
    (violation s n).graphs = s.graphs ∧ (violation s n).lanes = s.lanes ∧ (violation s n).planner = s.planner ∧
    (violation s n).requests = s.requests ∧ (violation s n).nextOrder = s.nextOrder ∧ (violation s n).kv = s.kv ∧
    (violation s n).arrays = s.arrays ∧ (violation s n).sites = s.sites ∧ (violation s n).quartz = s.quartz ∧
    (violation s n).layerSteps = s.layerSteps ∧ (violation s n).histories = s.histories ∧
    (violation s n).repairAdapters = s.repairAdapters ∧ (violation s n).cores = s.cores ∧
    (violation s n).reliability = s.reliability ∧ (violation s n).probes = s.probes ∧
    (violation s n).ports = s.ports ∧ (violation s n).pair = s.pair ∧ (violation s n).erases = s.erases ∧
    (violation s n).measured = s.measured ∧ (violation s n).hostMem = s.hostMem ∧
    (violation s n).debugMem = s.debugMem := by
  and_intros <;> rfl

@[simp] theorem mgmtRespond_fields (s : State) (i : Nat) (q : BitVec 16) (c : Nat) (st : Status) (p : Bytes) :
    (mgmtRespond s i q c st p).pending = s.pending ∧ (mgmtRespond s i q c st p).now = s.now ∧
    (mgmtRespond s i q c st p).freeIdx = s.freeIdx ∧ (mgmtRespond s i q c st p).powered = s.powered ∧
    (mgmtRespond s i q c st p).fuses = s.fuses ∧ (mgmtRespond s i q c st p).boot = s.boot ∧
    (mgmtRespond s i q c st p).power = s.power ∧ (mgmtRespond s i q c st p).thermal = s.thermal ∧
    (mgmtRespond s i q c st p).counts = s.counts ∧ (mgmtRespond s i q c st p).link = s.link ∧
    (mgmtRespond s i q c st p).fns = s.fns ∧ (mgmtRespond s i q c st p).queues = s.queues ∧
    (mgmtRespond s i q c st p).rings = s.rings ∧ (mgmtRespond s i q c st p).spdm = s.spdm ∧
    (mgmtRespond s i q c st p).sessions = s.sessions ∧ (mgmtRespond s i q c st p).jobs = s.jobs ∧
    (mgmtRespond s i q c st p).dormantWait = s.dormantWait ∧ (mgmtRespond s i q c st p).time = s.time ∧
    (mgmtRespond s i q c st p).accounts = s.accounts ∧ (mgmtRespond s i q c st p).objects = s.objects ∧
    (mgmtRespond s i q c st p).publisherKeys = s.publisherKeys ∧ (mgmtRespond s i q c st p).servers = s.servers ∧
    (mgmtRespond s i q c st p).graphs = s.graphs ∧ (mgmtRespond s i q c st p).lanes = s.lanes ∧
    (mgmtRespond s i q c st p).planner = s.planner ∧ (mgmtRespond s i q c st p).requests = s.requests ∧
    (mgmtRespond s i q c st p).nextOrder = s.nextOrder ∧ (mgmtRespond s i q c st p).kv = s.kv ∧
    (mgmtRespond s i q c st p).arrays = s.arrays ∧ (mgmtRespond s i q c st p).sites = s.sites ∧
    (mgmtRespond s i q c st p).quartz = s.quartz ∧ (mgmtRespond s i q c st p).layerSteps = s.layerSteps ∧
    (mgmtRespond s i q c st p).histories = s.histories ∧
    (mgmtRespond s i q c st p).repairAdapters = s.repairAdapters ∧ (mgmtRespond s i q c st p).cores = s.cores ∧
    (mgmtRespond s i q c st p).reliability = s.reliability ∧ (mgmtRespond s i q c st p).probes = s.probes ∧
    (mgmtRespond s i q c st p).ports = s.ports ∧ (mgmtRespond s i q c st p).pair = s.pair ∧
    (mgmtRespond s i q c st p).erases = s.erases ∧ (mgmtRespond s i q c st p).measured = s.measured ∧
    (mgmtRespond s i q c st p).hostMem = s.hostMem ∧ (mgmtRespond s i q c st p).debugMem = s.debugMem := by
  and_intros <;> rfl

@[simp] theorem startJob_fields (c : Ctx) (s : State) (w : Work) :
    (startJob c s w).pending = s.pending ∧ (startJob c s w).now = s.now ∧ (startJob c s w).freeIdx = s.freeIdx ∧
    (startJob c s w).powered = s.powered ∧ (startJob c s w).fuses = s.fuses ∧ (startJob c s w).boot = s.boot ∧
    (startJob c s w).power = s.power ∧ (startJob c s w).thermal = s.thermal ∧ (startJob c s w).lodge = s.lodge ∧
    (startJob c s w).counts = s.counts ∧ (startJob c s w).link = s.link ∧ (startJob c s w).fns = s.fns ∧
    (startJob c s w).queues = s.queues ∧ (startJob c s w).rings = s.rings ∧ (startJob c s w).spdm = s.spdm ∧
    (startJob c s w).sessions = s.sessions ∧ (startJob c s w).jobs = s.jobs ++ [⟨c.origin, w⟩] ∧
    (startJob c s w).dormantWait = s.dormantWait ∧ (startJob c s w).time = s.time ∧
    (startJob c s w).accounts = s.accounts ∧ (startJob c s w).objects = s.objects ∧
    (startJob c s w).publisherKeys = s.publisherKeys ∧ (startJob c s w).servers = s.servers ∧
    (startJob c s w).graphs = s.graphs ∧ (startJob c s w).lanes = s.lanes ∧ (startJob c s w).planner = s.planner ∧
    (startJob c s w).requests = s.requests ∧ (startJob c s w).nextOrder = s.nextOrder ∧ (startJob c s w).kv = s.kv ∧
    (startJob c s w).arrays = s.arrays ∧ (startJob c s w).sites = s.sites ∧ (startJob c s w).quartz = s.quartz ∧
    (startJob c s w).layerSteps = s.layerSteps ∧ (startJob c s w).histories = s.histories ∧
    (startJob c s w).repairAdapters = s.repairAdapters ∧ (startJob c s w).cores = s.cores ∧
    (startJob c s w).reliability = s.reliability ∧ (startJob c s w).probes = s.probes ∧
    (startJob c s w).ports = s.ports ∧ (startJob c s w).pair = s.pair ∧ (startJob c s w).erases = s.erases ∧
    (startJob c s w).measured = s.measured ∧ (startJob c s w).hostMem = s.hostMem ∧
    (startJob c s w).debugMem = s.debugMem := by
  and_intros <;> rfl

@[simp] theorem addLevel_fields (s : State) (a c : Nat) (d : Int) (b : Bool) :
    (addLevel s a c d b).pending = s.pending ∧ (addLevel s a c d b).now = s.now ∧
    (addLevel s a c d b).freeIdx = s.freeIdx ∧ (addLevel s a c d b).powered = s.powered ∧
    (addLevel s a c d b).fuses = s.fuses ∧ (addLevel s a c d b).boot = s.boot ∧ (addLevel s a c d b).power = s.power ∧
    (addLevel s a c d b).thermal = s.thermal ∧ (addLevel s a c d b).lodge = s.lodge ∧
    (addLevel s a c d b).counts = s.counts ∧ (addLevel s a c d b).link = s.link ∧ (addLevel s a c d b).fns = s.fns ∧
    (addLevel s a c d b).queues = s.queues ∧ (addLevel s a c d b).rings = s.rings ∧
    (addLevel s a c d b).spdm = s.spdm ∧ (addLevel s a c d b).sessions = s.sessions ∧
    (addLevel s a c d b).jobs = s.jobs ∧ (addLevel s a c d b).dormantWait = s.dormantWait ∧
    (addLevel s a c d b).time = s.time ∧ (addLevel s a c d b).objects = s.objects ∧
    (addLevel s a c d b).publisherKeys = s.publisherKeys ∧ (addLevel s a c d b).servers = s.servers ∧
    (addLevel s a c d b).graphs = s.graphs ∧ (addLevel s a c d b).lanes = s.lanes ∧
    (addLevel s a c d b).planner = s.planner ∧ (addLevel s a c d b).requests = s.requests ∧
    (addLevel s a c d b).nextOrder = s.nextOrder ∧ (addLevel s a c d b).kv = s.kv ∧
    (addLevel s a c d b).arrays = s.arrays ∧ (addLevel s a c d b).sites = s.sites ∧
    (addLevel s a c d b).quartz = s.quartz ∧ (addLevel s a c d b).layerSteps = s.layerSteps ∧
    (addLevel s a c d b).histories = s.histories ∧ (addLevel s a c d b).repairAdapters = s.repairAdapters ∧
    (addLevel s a c d b).cores = s.cores ∧ (addLevel s a c d b).reliability = s.reliability ∧
    (addLevel s a c d b).probes = s.probes ∧ (addLevel s a c d b).ports = s.ports ∧
    (addLevel s a c d b).pair = s.pair ∧ (addLevel s a c d b).erases = s.erases ∧
    (addLevel s a c d b).measured = s.measured ∧ (addLevel s a c d b).hostMem = s.hostMem ∧
    (addLevel s a c d b).debugMem = s.debugMem := by
  and_intros <;> rfl

@[simp] theorem nextFree_fields (s : State) :
    (nextFree s).pending = s.pending ∧ (nextFree s).now = s.now ∧ (nextFree s).freeIdx = s.freeIdx + 1 ∧
    (nextFree s).powered = s.powered ∧ (nextFree s).fuses = s.fuses ∧ (nextFree s).boot = s.boot ∧
    (nextFree s).power = s.power ∧ (nextFree s).thermal = s.thermal ∧ (nextFree s).lodge = s.lodge ∧
    (nextFree s).counts = s.counts ∧ (nextFree s).link = s.link ∧ (nextFree s).fns = s.fns ∧
    (nextFree s).queues = s.queues ∧ (nextFree s).rings = s.rings ∧ (nextFree s).spdm = s.spdm ∧
    (nextFree s).sessions = s.sessions ∧ (nextFree s).jobs = s.jobs ∧ (nextFree s).dormantWait = s.dormantWait ∧
    (nextFree s).time = s.time ∧ (nextFree s).accounts = s.accounts ∧ (nextFree s).objects = s.objects ∧
    (nextFree s).publisherKeys = s.publisherKeys ∧ (nextFree s).servers = s.servers ∧ (nextFree s).graphs = s.graphs ∧
    (nextFree s).lanes = s.lanes ∧ (nextFree s).planner = s.planner ∧ (nextFree s).requests = s.requests ∧
    (nextFree s).nextOrder = s.nextOrder ∧ (nextFree s).kv = s.kv ∧ (nextFree s).arrays = s.arrays ∧
    (nextFree s).sites = s.sites ∧ (nextFree s).quartz = s.quartz ∧ (nextFree s).layerSteps = s.layerSteps ∧
    (nextFree s).histories = s.histories ∧ (nextFree s).repairAdapters = s.repairAdapters ∧
    (nextFree s).cores = s.cores ∧ (nextFree s).reliability = s.reliability ∧ (nextFree s).probes = s.probes ∧
    (nextFree s).ports = s.ports ∧ (nextFree s).pair = s.pair ∧ (nextFree s).erases = s.erases ∧
    (nextFree s).measured = s.measured ∧ (nextFree s).hostMem = s.hostMem ∧ (nextFree s).debugMem = s.debugMem := by
  and_intros <;> rfl

@[simp] theorem objMod_fields (s : State) (k : ObjKind) (h : Nat) (f : LoadedObject → LoadedObject) :
    (objMod s k h f).pending = s.pending ∧ (objMod s k h f).now = s.now ∧ (objMod s k h f).freeIdx = s.freeIdx ∧
    (objMod s k h f).powered = s.powered ∧ (objMod s k h f).fuses = s.fuses ∧ (objMod s k h f).boot = s.boot ∧
    (objMod s k h f).power = s.power ∧ (objMod s k h f).thermal = s.thermal ∧ (objMod s k h f).lodge = s.lodge ∧
    (objMod s k h f).counts = s.counts ∧ (objMod s k h f).link = s.link ∧ (objMod s k h f).fns = s.fns ∧
    (objMod s k h f).queues = s.queues ∧ (objMod s k h f).rings = s.rings ∧ (objMod s k h f).spdm = s.spdm ∧
    (objMod s k h f).sessions = s.sessions ∧ (objMod s k h f).jobs = s.jobs ∧
    (objMod s k h f).dormantWait = s.dormantWait ∧ (objMod s k h f).time = s.time ∧
    (objMod s k h f).accounts = s.accounts ∧ (objMod s k h f).publisherKeys = s.publisherKeys ∧
    (objMod s k h f).servers = s.servers ∧ (objMod s k h f).graphs = s.graphs ∧ (objMod s k h f).lanes = s.lanes ∧
    (objMod s k h f).planner = s.planner ∧ (objMod s k h f).requests = s.requests ∧
    (objMod s k h f).nextOrder = s.nextOrder ∧ (objMod s k h f).kv = s.kv ∧ (objMod s k h f).arrays = s.arrays ∧
    (objMod s k h f).sites = s.sites ∧ (objMod s k h f).quartz = s.quartz ∧
    (objMod s k h f).layerSteps = s.layerSteps ∧ (objMod s k h f).histories = s.histories ∧
    (objMod s k h f).repairAdapters = s.repairAdapters ∧ (objMod s k h f).cores = s.cores ∧
    (objMod s k h f).reliability = s.reliability ∧ (objMod s k h f).probes = s.probes ∧
    (objMod s k h f).ports = s.ports ∧ (objMod s k h f).pair = s.pair ∧ (objMod s k h f).erases = s.erases ∧
    (objMod s k h f).measured = s.measured ∧ (objMod s k h f).hostMem = s.hostMem ∧
    (objMod s k h f).debugMem = s.debugMem := by
  and_intros <;> rfl

@[simp] theorem arrSet_fields (s : State) (a : Nat) (x : OrArray) :
    (arrSet s a x).pending = s.pending ∧ (arrSet s a x).now = s.now ∧ (arrSet s a x).freeIdx = s.freeIdx ∧
    (arrSet s a x).powered = s.powered ∧ (arrSet s a x).fuses = s.fuses ∧ (arrSet s a x).boot = s.boot ∧
    (arrSet s a x).power = s.power ∧ (arrSet s a x).thermal = s.thermal ∧ (arrSet s a x).lodge = s.lodge ∧
    (arrSet s a x).counts = s.counts ∧ (arrSet s a x).link = s.link ∧ (arrSet s a x).fns = s.fns ∧
    (arrSet s a x).queues = s.queues ∧ (arrSet s a x).rings = s.rings ∧ (arrSet s a x).spdm = s.spdm ∧
    (arrSet s a x).sessions = s.sessions ∧ (arrSet s a x).jobs = s.jobs ∧ (arrSet s a x).dormantWait = s.dormantWait ∧
    (arrSet s a x).time = s.time ∧ (arrSet s a x).accounts = s.accounts ∧ (arrSet s a x).objects = s.objects ∧
    (arrSet s a x).publisherKeys = s.publisherKeys ∧ (arrSet s a x).servers = s.servers ∧
    (arrSet s a x).graphs = s.graphs ∧ (arrSet s a x).lanes = s.lanes ∧ (arrSet s a x).planner = s.planner ∧
    (arrSet s a x).requests = s.requests ∧ (arrSet s a x).nextOrder = s.nextOrder ∧ (arrSet s a x).kv = s.kv ∧
    (arrSet s a x).arrays = sput s.arrays a x ∧ (arrSet s a x).sites = s.sites ∧ (arrSet s a x).quartz = s.quartz ∧
    (arrSet s a x).layerSteps = s.layerSteps ∧ (arrSet s a x).histories = s.histories ∧
    (arrSet s a x).repairAdapters = s.repairAdapters ∧ (arrSet s a x).cores = s.cores ∧
    (arrSet s a x).reliability = s.reliability ∧ (arrSet s a x).probes = s.probes ∧ (arrSet s a x).ports = s.ports ∧
    (arrSet s a x).pair = s.pair ∧ (arrSet s a x).erases = s.erases ∧ (arrSet s a x).measured = s.measured ∧
    (arrSet s a x).hostMem = s.hostMem ∧ (arrSet s a x).debugMem = s.debugMem := by
  and_intros <;> rfl

@[simp] theorem siteSet_fields (s : State) (n : Nat) (x : Site) :
    (siteSet s n x).pending = s.pending ∧ (siteSet s n x).now = s.now ∧ (siteSet s n x).freeIdx = s.freeIdx ∧
    (siteSet s n x).powered = s.powered ∧ (siteSet s n x).fuses = s.fuses ∧ (siteSet s n x).boot = s.boot ∧
    (siteSet s n x).power = s.power ∧ (siteSet s n x).thermal = s.thermal ∧ (siteSet s n x).lodge = s.lodge ∧
    (siteSet s n x).counts = s.counts ∧ (siteSet s n x).link = s.link ∧ (siteSet s n x).fns = s.fns ∧
    (siteSet s n x).queues = s.queues ∧ (siteSet s n x).rings = s.rings ∧ (siteSet s n x).spdm = s.spdm ∧
    (siteSet s n x).sessions = s.sessions ∧ (siteSet s n x).jobs = s.jobs ∧
    (siteSet s n x).dormantWait = s.dormantWait ∧ (siteSet s n x).time = s.time ∧
    (siteSet s n x).accounts = s.accounts ∧ (siteSet s n x).objects = s.objects ∧
    (siteSet s n x).publisherKeys = s.publisherKeys ∧ (siteSet s n x).servers = s.servers ∧
    (siteSet s n x).graphs = s.graphs ∧ (siteSet s n x).lanes = s.lanes ∧ (siteSet s n x).planner = s.planner ∧
    (siteSet s n x).requests = s.requests ∧ (siteSet s n x).nextOrder = s.nextOrder ∧ (siteSet s n x).kv = s.kv ∧
    (siteSet s n x).arrays = s.arrays ∧ (siteSet s n x).sites = sput s.sites n x ∧ (siteSet s n x).quartz = s.quartz ∧
    (siteSet s n x).layerSteps = s.layerSteps ∧ (siteSet s n x).histories = s.histories ∧
    (siteSet s n x).repairAdapters = s.repairAdapters ∧ (siteSet s n x).cores = s.cores ∧
    (siteSet s n x).reliability = s.reliability ∧ (siteSet s n x).probes = s.probes ∧
    (siteSet s n x).ports = s.ports ∧ (siteSet s n x).pair = s.pair ∧ (siteSet s n x).erases = s.erases ∧
    (siteSet s n x).measured = s.measured ∧ (siteSet s n x).hostMem = s.hostMem ∧
    (siteSet s n x).debugMem = s.debugMem := by
  and_intros <;> rfl

@[simp] theorem quartzMod_fields (s : State) (u : Nat) (f : Quartz → Quartz) :
    (quartzMod s u f).pending = s.pending ∧ (quartzMod s u f).now = s.now ∧ (quartzMod s u f).freeIdx = s.freeIdx ∧
    (quartzMod s u f).powered = s.powered ∧ (quartzMod s u f).fuses = s.fuses ∧ (quartzMod s u f).boot = s.boot ∧
    (quartzMod s u f).power = s.power ∧ (quartzMod s u f).thermal = s.thermal ∧ (quartzMod s u f).lodge = s.lodge ∧
    (quartzMod s u f).counts = s.counts ∧ (quartzMod s u f).link = s.link ∧ (quartzMod s u f).fns = s.fns ∧
    (quartzMod s u f).queues = s.queues ∧ (quartzMod s u f).rings = s.rings ∧ (quartzMod s u f).spdm = s.spdm ∧
    (quartzMod s u f).sessions = s.sessions ∧ (quartzMod s u f).jobs = s.jobs ∧
    (quartzMod s u f).dormantWait = s.dormantWait ∧ (quartzMod s u f).time = s.time ∧
    (quartzMod s u f).accounts = s.accounts ∧ (quartzMod s u f).objects = s.objects ∧
    (quartzMod s u f).publisherKeys = s.publisherKeys ∧ (quartzMod s u f).servers = s.servers ∧
    (quartzMod s u f).graphs = s.graphs ∧ (quartzMod s u f).lanes = s.lanes ∧ (quartzMod s u f).planner = s.planner ∧
    (quartzMod s u f).requests = s.requests ∧ (quartzMod s u f).nextOrder = s.nextOrder ∧
    (quartzMod s u f).kv = s.kv ∧ (quartzMod s u f).arrays = s.arrays ∧ (quartzMod s u f).sites = s.sites ∧
    (quartzMod s u f).quartz = sput s.quartz u (f (quartzGet s u)) ∧ (quartzMod s u f).layerSteps = s.layerSteps ∧
    (quartzMod s u f).histories = s.histories ∧ (quartzMod s u f).repairAdapters = s.repairAdapters ∧
    (quartzMod s u f).cores = s.cores ∧ (quartzMod s u f).reliability = s.reliability ∧
    (quartzMod s u f).probes = s.probes ∧ (quartzMod s u f).ports = s.ports ∧ (quartzMod s u f).pair = s.pair ∧
    (quartzMod s u f).erases = s.erases ∧ (quartzMod s u f).measured = s.measured ∧
    (quartzMod s u f).hostMem = s.hostMem ∧ (quartzMod s u f).debugMem = s.debugMem := by
  and_intros <;> rfl

@[simp] theorem coreMod_fields (s : State) (c : Nat) (f : Core → Core) :
    (coreMod s c f).pending = s.pending ∧ (coreMod s c f).now = s.now ∧ (coreMod s c f).freeIdx = s.freeIdx ∧
    (coreMod s c f).powered = s.powered ∧ (coreMod s c f).fuses = s.fuses ∧ (coreMod s c f).boot = s.boot ∧
    (coreMod s c f).power = s.power ∧ (coreMod s c f).thermal = s.thermal ∧ (coreMod s c f).lodge = s.lodge ∧
    (coreMod s c f).counts = s.counts ∧ (coreMod s c f).link = s.link ∧ (coreMod s c f).fns = s.fns ∧
    (coreMod s c f).queues = s.queues ∧ (coreMod s c f).rings = s.rings ∧ (coreMod s c f).spdm = s.spdm ∧
    (coreMod s c f).sessions = s.sessions ∧ (coreMod s c f).jobs = s.jobs ∧
    (coreMod s c f).dormantWait = s.dormantWait ∧ (coreMod s c f).time = s.time ∧
    (coreMod s c f).accounts = s.accounts ∧ (coreMod s c f).objects = s.objects ∧
    (coreMod s c f).publisherKeys = s.publisherKeys ∧ (coreMod s c f).servers = s.servers ∧
    (coreMod s c f).graphs = s.graphs ∧ (coreMod s c f).lanes = s.lanes ∧ (coreMod s c f).planner = s.planner ∧
    (coreMod s c f).requests = s.requests ∧ (coreMod s c f).nextOrder = s.nextOrder ∧ (coreMod s c f).kv = s.kv ∧
    (coreMod s c f).arrays = s.arrays ∧ (coreMod s c f).sites = s.sites ∧ (coreMod s c f).quartz = s.quartz ∧
    (coreMod s c f).layerSteps = s.layerSteps ∧ (coreMod s c f).histories = s.histories ∧
    (coreMod s c f).repairAdapters = s.repairAdapters ∧ (coreMod s c f).cores = sput s.cores c (f (coreGet s c)) ∧
    (coreMod s c f).reliability = s.reliability ∧ (coreMod s c f).probes = s.probes ∧
    (coreMod s c f).ports = s.ports ∧ (coreMod s c f).pair = s.pair ∧ (coreMod s c f).erases = s.erases ∧
    (coreMod s c f).measured = s.measured ∧ (coreMod s c f).hostMem = s.hostMem ∧
    (coreMod s c f).debugMem = s.debugMem := by
  and_intros <;> rfl

@[simp] theorem portMod_fields (s : State) (p : Nat) (f : Port → Port) :
    (portMod s p f).pending = s.pending ∧ (portMod s p f).now = s.now ∧ (portMod s p f).freeIdx = s.freeIdx ∧
    (portMod s p f).powered = s.powered ∧ (portMod s p f).fuses = s.fuses ∧ (portMod s p f).boot = s.boot ∧
    (portMod s p f).power = s.power ∧ (portMod s p f).thermal = s.thermal ∧ (portMod s p f).lodge = s.lodge ∧
    (portMod s p f).counts = s.counts ∧ (portMod s p f).link = s.link ∧ (portMod s p f).fns = s.fns ∧
    (portMod s p f).queues = s.queues ∧ (portMod s p f).rings = s.rings ∧ (portMod s p f).spdm = s.spdm ∧
    (portMod s p f).sessions = s.sessions ∧ (portMod s p f).jobs = s.jobs ∧
    (portMod s p f).dormantWait = s.dormantWait ∧ (portMod s p f).time = s.time ∧
    (portMod s p f).accounts = s.accounts ∧ (portMod s p f).objects = s.objects ∧
    (portMod s p f).publisherKeys = s.publisherKeys ∧ (portMod s p f).servers = s.servers ∧
    (portMod s p f).graphs = s.graphs ∧ (portMod s p f).lanes = s.lanes ∧ (portMod s p f).planner = s.planner ∧
    (portMod s p f).requests = s.requests ∧ (portMod s p f).nextOrder = s.nextOrder ∧ (portMod s p f).kv = s.kv ∧
    (portMod s p f).arrays = s.arrays ∧ (portMod s p f).sites = s.sites ∧ (portMod s p f).quartz = s.quartz ∧
    (portMod s p f).layerSteps = s.layerSteps ∧ (portMod s p f).histories = s.histories ∧
    (portMod s p f).repairAdapters = s.repairAdapters ∧ (portMod s p f).cores = s.cores ∧
    (portMod s p f).reliability = s.reliability ∧ (portMod s p f).probes = s.probes ∧
    (portMod s p f).ports = lmod s.ports p f ∧ (portMod s p f).pair = s.pair ∧ (portMod s p f).erases = s.erases ∧
    (portMod s p f).measured = s.measured ∧ (portMod s p f).hostMem = s.hostMem ∧
    (portMod s p f).debugMem = s.debugMem := by
  and_intros <;> rfl

@[simp] theorem reqMod_fields (s : State) (h : Nat) (f : Request → Request) :
    (reqMod s h f).pending = s.pending ∧ (reqMod s h f).now = s.now ∧ (reqMod s h f).freeIdx = s.freeIdx ∧
    (reqMod s h f).powered = s.powered ∧ (reqMod s h f).fuses = s.fuses ∧ (reqMod s h f).boot = s.boot ∧
    (reqMod s h f).power = s.power ∧ (reqMod s h f).thermal = s.thermal ∧ (reqMod s h f).lodge = s.lodge ∧
    (reqMod s h f).counts = s.counts ∧ (reqMod s h f).link = s.link ∧ (reqMod s h f).fns = s.fns ∧
    (reqMod s h f).queues = s.queues ∧ (reqMod s h f).rings = s.rings ∧ (reqMod s h f).spdm = s.spdm ∧
    (reqMod s h f).sessions = s.sessions ∧ (reqMod s h f).jobs = s.jobs ∧ (reqMod s h f).dormantWait = s.dormantWait ∧
    (reqMod s h f).time = s.time ∧ (reqMod s h f).accounts = s.accounts ∧ (reqMod s h f).objects = s.objects ∧
    (reqMod s h f).publisherKeys = s.publisherKeys ∧ (reqMod s h f).servers = s.servers ∧
    (reqMod s h f).graphs = s.graphs ∧ (reqMod s h f).lanes = s.lanes ∧ (reqMod s h f).planner = s.planner ∧
    (reqMod s h f).requests = smod s.requests h f ∧ (reqMod s h f).nextOrder = s.nextOrder ∧
    (reqMod s h f).kv = s.kv ∧ (reqMod s h f).arrays = s.arrays ∧ (reqMod s h f).sites = s.sites ∧
    (reqMod s h f).quartz = s.quartz ∧ (reqMod s h f).layerSteps = s.layerSteps ∧
    (reqMod s h f).histories = s.histories ∧ (reqMod s h f).repairAdapters = s.repairAdapters ∧
    (reqMod s h f).cores = s.cores ∧ (reqMod s h f).reliability = s.reliability ∧ (reqMod s h f).probes = s.probes ∧
    (reqMod s h f).ports = s.ports ∧ (reqMod s h f).pair = s.pair ∧ (reqMod s h f).erases = s.erases ∧
    (reqMod s h f).measured = s.measured ∧ (reqMod s h f).hostMem = s.hostMem ∧ (reqMod s h f).debugMem = s.debugMem := by
  and_intros <;> rfl

@[simp] theorem laneMod_fields (s : State) (g : Nat) (f : Lane → Lane) :
    (laneMod s g f).pending = s.pending ∧ (laneMod s g f).now = s.now ∧ (laneMod s g f).freeIdx = s.freeIdx ∧
    (laneMod s g f).powered = s.powered ∧ (laneMod s g f).fuses = s.fuses ∧ (laneMod s g f).boot = s.boot ∧
    (laneMod s g f).power = s.power ∧ (laneMod s g f).thermal = s.thermal ∧ (laneMod s g f).lodge = s.lodge ∧
    (laneMod s g f).counts = s.counts ∧ (laneMod s g f).link = s.link ∧ (laneMod s g f).fns = s.fns ∧
    (laneMod s g f).queues = s.queues ∧ (laneMod s g f).rings = s.rings ∧ (laneMod s g f).spdm = s.spdm ∧
    (laneMod s g f).sessions = s.sessions ∧ (laneMod s g f).jobs = s.jobs ∧
    (laneMod s g f).dormantWait = s.dormantWait ∧ (laneMod s g f).time = s.time ∧
    (laneMod s g f).accounts = s.accounts ∧ (laneMod s g f).objects = s.objects ∧
    (laneMod s g f).publisherKeys = s.publisherKeys ∧ (laneMod s g f).servers = s.servers ∧
    (laneMod s g f).graphs = s.graphs ∧ (laneMod s g f).lanes = smod s.lanes g f ∧
    (laneMod s g f).planner = s.planner ∧ (laneMod s g f).requests = s.requests ∧
    (laneMod s g f).nextOrder = s.nextOrder ∧ (laneMod s g f).kv = s.kv ∧ (laneMod s g f).arrays = s.arrays ∧
    (laneMod s g f).sites = s.sites ∧ (laneMod s g f).quartz = s.quartz ∧ (laneMod s g f).layerSteps = s.layerSteps ∧
    (laneMod s g f).histories = s.histories ∧ (laneMod s g f).repairAdapters = s.repairAdapters ∧
    (laneMod s g f).cores = s.cores ∧ (laneMod s g f).reliability = s.reliability ∧
    (laneMod s g f).probes = s.probes ∧ (laneMod s g f).ports = s.ports ∧ (laneMod s g f).pair = s.pair ∧
    (laneMod s g f).erases = s.erases ∧ (laneMod s g f).measured = s.measured ∧ (laneMod s g f).hostMem = s.hostMem ∧
    (laneMod s g f).debugMem = s.debugMem := by
  and_intros <;> rfl

@[simp] theorem unlane_fields (s : State) (g h : Nat) :
    (unlane s g h).pending = s.pending ∧ (unlane s g h).now = s.now ∧ (unlane s g h).freeIdx = s.freeIdx ∧
    (unlane s g h).powered = s.powered ∧ (unlane s g h).fuses = s.fuses ∧ (unlane s g h).boot = s.boot ∧
    (unlane s g h).power = s.power ∧ (unlane s g h).thermal = s.thermal ∧ (unlane s g h).lodge = s.lodge ∧
    (unlane s g h).counts = s.counts ∧ (unlane s g h).link = s.link ∧ (unlane s g h).fns = s.fns ∧
    (unlane s g h).queues = s.queues ∧ (unlane s g h).rings = s.rings ∧ (unlane s g h).spdm = s.spdm ∧
    (unlane s g h).sessions = s.sessions ∧ (unlane s g h).jobs = s.jobs ∧ (unlane s g h).dormantWait = s.dormantWait ∧
    (unlane s g h).time = s.time ∧ (unlane s g h).accounts = s.accounts ∧ (unlane s g h).objects = s.objects ∧
    (unlane s g h).publisherKeys = s.publisherKeys ∧ (unlane s g h).servers = s.servers ∧
    (unlane s g h).graphs = s.graphs ∧ (unlane s g h).planner = s.planner ∧ (unlane s g h).requests = s.requests ∧
    (unlane s g h).nextOrder = s.nextOrder ∧ (unlane s g h).kv = s.kv ∧ (unlane s g h).arrays = s.arrays ∧
    (unlane s g h).sites = s.sites ∧ (unlane s g h).quartz = s.quartz ∧ (unlane s g h).layerSteps = s.layerSteps ∧
    (unlane s g h).histories = s.histories ∧ (unlane s g h).repairAdapters = s.repairAdapters ∧
    (unlane s g h).cores = s.cores ∧ (unlane s g h).reliability = s.reliability ∧ (unlane s g h).probes = s.probes ∧
    (unlane s g h).ports = s.ports ∧ (unlane s g h).pair = s.pair ∧ (unlane s g h).erases = s.erases ∧
    (unlane s g h).measured = s.measured ∧ (unlane s g h).hostMem = s.hostMem ∧ (unlane s g h).debugMem = s.debugMem := by
  and_intros <;> rfl

@[simp] theorem forceBuild_fields (s : State) (c : BuildCause) :
    (forceBuild s c).pending = s.pending ∧ (forceBuild s c).now = s.now ∧ (forceBuild s c).freeIdx = s.freeIdx ∧
    (forceBuild s c).powered = s.powered ∧ (forceBuild s c).fuses = s.fuses ∧ (forceBuild s c).boot = s.boot ∧
    (forceBuild s c).power = s.power ∧ (forceBuild s c).thermal = s.thermal ∧ (forceBuild s c).lodge = s.lodge ∧
    (forceBuild s c).counts = s.counts ∧ (forceBuild s c).link = s.link ∧ (forceBuild s c).fns = s.fns ∧
    (forceBuild s c).queues = s.queues ∧ (forceBuild s c).rings = s.rings ∧ (forceBuild s c).spdm = s.spdm ∧
    (forceBuild s c).sessions = s.sessions ∧ (forceBuild s c).jobs = s.jobs ∧
    (forceBuild s c).dormantWait = s.dormantWait ∧ (forceBuild s c).time = s.time ∧
    (forceBuild s c).accounts = s.accounts ∧ (forceBuild s c).objects = s.objects ∧
    (forceBuild s c).publisherKeys = s.publisherKeys ∧ (forceBuild s c).servers = s.servers ∧
    (forceBuild s c).graphs = s.graphs ∧ (forceBuild s c).lanes = s.lanes ∧ (forceBuild s c).requests = s.requests ∧
    (forceBuild s c).nextOrder = s.nextOrder ∧ (forceBuild s c).kv = s.kv ∧ (forceBuild s c).arrays = s.arrays ∧
    (forceBuild s c).sites = s.sites ∧ (forceBuild s c).quartz = s.quartz ∧
    (forceBuild s c).layerSteps = s.layerSteps ∧ (forceBuild s c).histories = s.histories ∧
    (forceBuild s c).repairAdapters = s.repairAdapters ∧ (forceBuild s c).cores = s.cores ∧
    (forceBuild s c).reliability = s.reliability ∧ (forceBuild s c).probes = s.probes ∧
    (forceBuild s c).ports = s.ports ∧ (forceBuild s c).pair = s.pair ∧ (forceBuild s c).erases = s.erases ∧
    (forceBuild s c).measured = s.measured ∧ (forceBuild s c).hostMem = s.hostMem ∧
    (forceBuild s c).debugMem = s.debugMem := by
  and_intros <;> rfl

@[simp] theorem stepMod_fields (s : State) (k : LayerKey) (f : LayerStep → LayerStep) :
    (stepMod s k f).pending = s.pending ∧ (stepMod s k f).now = s.now ∧ (stepMod s k f).freeIdx = s.freeIdx ∧
    (stepMod s k f).powered = s.powered ∧ (stepMod s k f).fuses = s.fuses ∧ (stepMod s k f).boot = s.boot ∧
    (stepMod s k f).power = s.power ∧ (stepMod s k f).thermal = s.thermal ∧ (stepMod s k f).lodge = s.lodge ∧
    (stepMod s k f).counts = s.counts ∧ (stepMod s k f).link = s.link ∧ (stepMod s k f).fns = s.fns ∧
    (stepMod s k f).queues = s.queues ∧ (stepMod s k f).rings = s.rings ∧ (stepMod s k f).spdm = s.spdm ∧
    (stepMod s k f).sessions = s.sessions ∧ (stepMod s k f).jobs = s.jobs ∧
    (stepMod s k f).dormantWait = s.dormantWait ∧ (stepMod s k f).time = s.time ∧
    (stepMod s k f).accounts = s.accounts ∧ (stepMod s k f).objects = s.objects ∧
    (stepMod s k f).publisherKeys = s.publisherKeys ∧ (stepMod s k f).servers = s.servers ∧
    (stepMod s k f).graphs = s.graphs ∧ (stepMod s k f).lanes = s.lanes ∧ (stepMod s k f).planner = s.planner ∧
    (stepMod s k f).requests = s.requests ∧ (stepMod s k f).nextOrder = s.nextOrder ∧ (stepMod s k f).kv = s.kv ∧
    (stepMod s k f).arrays = s.arrays ∧ (stepMod s k f).sites = s.sites ∧ (stepMod s k f).quartz = s.quartz ∧
    (stepMod s k f).histories = s.histories ∧ (stepMod s k f).repairAdapters = s.repairAdapters ∧
    (stepMod s k f).cores = s.cores ∧ (stepMod s k f).reliability = s.reliability ∧
    (stepMod s k f).probes = s.probes ∧ (stepMod s k f).ports = s.ports ∧ (stepMod s k f).pair = s.pair ∧
    (stepMod s k f).erases = s.erases ∧ (stepMod s k f).measured = s.measured ∧ (stepMod s k f).hostMem = s.hostMem ∧
    (stepMod s k f).debugMem = s.debugMem := by
  and_intros <;> rfl

/-- An update of a window is one of its core, and an update of a generation one of its object. -/
@[simp] theorem slotMod_eq (s : State) (c slot : Nat) (f : Window → Window) :
    slotMod s c slot f = coreMod s c (fun x => { x with windows := lmod x.windows slot f }) := rfl

@[simp] theorem genMod_eq (s : State) (k : ObjKind) (h gen : Nat) (f : Generation → Generation) :
    genMod s k h gen f = objMod s k h (fun o => { o with gens := o.gens.map (fun g => if g.number = gen then f g else g) }) := rfl

end Sys2Proof.Laws
end

