-- ==== Sys2Proof/Laws/Frames.lean ====
section
/-! SUPPORT. Everything the shared operations over rings, event queues, records and replies can change, said once, and that
they keep host memory in canonical form. -/

namespace Sys2Proof.Laws
open Sys2Proof Sys2Proof.Machine Sys2Proof.Safety

/-! ### Interrupts, rings and replies (R400, R433–R435, R454) -/

/-- Signalling an interrupt changes what a function owns alone (R435). -/
theorem signal_frame (s : State) (fn v : Nat) : signal s fn v = { s with fns := (signal s fn v).fns } := rfl

/-- Writing an entry changes host memory, the rings and what functions own. -/
theorem ringWrite_frame (s : State) (n : Nat) (r : ReplyRing) (e : Bytes) :
    ringWrite s n r e = { s with hostMem := (ringWrite s n r e).hostMem, rings := (ringWrite s n r e).rings,
                                 fns := (ringWrite s n r e).fns } := by
  simp only [ringWrite]
  split <;> rfl

theorem ringWriteEntry_frame (s : State) (n : Nat) (r : ReplyRing) (e : RingEntry) :
    ringWriteEntry s n r e = { s with hostMem := (ringWriteEntry s n r e).hostMem, rings := (ringWriteEntry s n r e).rings,
                                      fns := (ringWriteEntry s n r e).fns } := by
  unfold ringWriteEntry
  rw [ringWrite_frame]
  split <;> rfl

/-- Posting an entry changes the same three, written or held (R400). -/
theorem ringPost_frame (s : State) (n : Nat) (e : RingEntry) :
    (ringPost s n e).1 = { s with hostMem := (ringPost s n e).1.hostMem, rings := (ringPost s n e).1.rings,
                                  fns := (ringPost s n e).1.fns } := by
  unfold ringPost
  split
  · rfl
  · split
    · exact ringWriteEntry_frame _ _ _ _
    · rfl

theorem ringPost_lodge (s : State) (n : Nat) (e : RingEntry) : (ringPost s n e).1.lodge = s.lodge := by rw [ringPost_frame]

/-- A status reply touches the rings, host memory, interrupts and the Lodge's responses alone (R454). -/
theorem replyTo_frame (s : State) (o : Origin) (st : Status) (d : Nat) (r : Bytes) : SameButReply s (replyTo s o st d r) := by
  unfold SameButReply replyTo
  split
  · rfl
  · simp only [ringPost_lodge]
    exact ringPost_frame _ _ _

theorem SameButReply.refl (s : State) : SameButReply s s := rfl

theorem SameButReply.trans {s t u : State} (h : SameButReply s t) (k : SameButReply t u) : SameButReply s u := by
  unfold SameButReply at *; rw [k, h]

theorem replySt_frame (c : Ctx) (s : State) (st : Status) : SameButReply s (replySt c s st) := replyTo_frame _ _ _ _ _

theorem replyInvalid_frame (c : Ctx) (s : State) (d : Nat) : SameButReply s (replyInvalid c s d) := replyTo_frame _ _ _ _ _

theorem replyOk_frame (c : Ctx) (s : State) (r : Bytes) : SameButReply s (replyOk c s r) := replyTo_frame _ _ _ _ _

/-- A reply with records in a buffer changes no more than a reply does (R458). -/
theorem replyBuffer_frame (c : Ctx) (s : State) (off : Nat) (r : Bytes) : SameButReply s (replyBuffer c s off r) := by
  unfold replyBuffer
  split
  · exact replyInvalid_frame _ _ _
  · split
    · exact replyTo_frame _ _ _ _ _
    · exact SameButReply.trans (t := hostWrite s (c.par off 8) r) rfl (replyOk_frame _ _ _)

/-- Answering jobs takes them off the list and replies. -/
theorem finishJobs_frame (s : State) (answer : Job → Option (Status × Nat × Bytes)) :
    SameButReply { s with jobs := s.jobs.filter (fun j => (answer j).isNone) } (finishJobs s answer) := by
  unfold finishJobs
  generalize { s with jobs := s.jobs.filter (fun j => (answer j).isNone) } = t
  induction s.jobs generalizing t with
  | nil => exact SameButReply.refl t
  | cons j js ih =>
    rw [List.foldl_cons]
    refine SameButReply.trans ?_ (ih _)
    split
    · exact replyTo_frame _ _ _ _ _
    · exact SameButReply.refl t

/-! ### Records (R437, R516–R521, R608) -/

/-- What reporting a record leaves as it was: all but the counts, host memory, what functions own and the Lodge. -/
def SameButRecord (s t : State) : Prop :=
  t = { s with counts := t.counts, hostMem := t.hostMem, fns := t.fns, lodge := t.lodge }

theorem SameButRecord.trans {s t u : State} (h : SameButRecord s t) (k : SameButRecord t u) : SameButRecord s u := by
  unfold SameButRecord at *; rw [k, h]

theorem hostWrite_record (s : State) (a : Nat) (b : Bytes) : SameButRecord s (hostWrite s a b) := rfl

theorem fnSet_record (s : State) (n : Nat) (f : FnState) : SameButRecord s (fnSet s n f) := rfl

theorem eventWrite_frame (s : State) (fn : Nat) (r : ErrorRecord) : SameButRecord s (eventWrite s fn r) := by
  unfold eventWrite
  simp only
  split
  · refine SameButRecord.trans ?_ (t := fnSet _ _ _) (fnSet_record _ _ _)
    exact ((hostWrite_record _ _ _).trans (hostWrite_record _ _ _)).trans (fnSet_record _ _ _)
  · exact fnSet_record _ _ _

theorem eventPost_frame (s : State) (fn : Nat) (r : ErrorRecord) : SameButRecord s (eventPost s fn r) := by
  unfold eventPost
  simp only
  split
  · exact fnSet_record _ _ _
  · split
    · exact fnSet_record _ _ _
    · exact eventWrite_frame _ _ _

theorem lodgeTake_frame (s : State) (r : ErrorRecord) : SameButRecord s (lodgeTake s r) := by
  unfold SameButRecord lodgeTake
  split <;> rfl

/-- A record sent by both paths (R520). -/
theorem emitRecord_frame (s : State) (r : ErrorRecord) : SameButRecord s (emitRecord s r) := by
  unfold emitRecord
  refine SameButRecord.trans ?_ (lodgeTake_frame _ r)
  simp only
  split
  · split
    · exact (eventPost_frame _ _ _).trans (eventPost_frame _ _ _)
    · exact eventPost_frame _ _ _
  · rfl

/-- An event reported (R519). -/
theorem reportOf_frame (s : State) (k v : Nat) (u : Word) (d : Bytes) (fn : Nat) (op : Option OpInfo) :
    SameButRecord s (reportOf s k v u d fn op) := by
  unfold reportOf
  simp only
  split
  · exact SameButRecord.trans (t := setCount s _) rfl (emitRecord_frame _ _)
  · split
    · exact SameButRecord.trans (t := setCount s _) rfl (emitRecord_frame _ _)
    · rfl

theorem report_frame (s : State) (k v : Nat) (u : Word) (d : Bytes) : SameButRecord s (report s k v u d) :=
  reportOf_frame _ _ _ _ _ _ _

theorem flushHeld_frame (s : State) (fn : Nat) : SameButRecord s (flushHeld s fn) := by
  unfold flushHeld
  simp only
  generalize hl : (fnGet s fn).heldRecords = l
  suffices h : ∀ t, SameButRecord s t → SameButRecord s (l.foldl (fun st r => eventWrite st fn r) t) from h _ rfl
  clear hl
  induction l with
  | nil => exact fun t h => h
  | cons r rs ih => exact fun t h => ih _ (h.trans (eventWrite_frame _ _ _))

/-! ### Host memory keeps its form -/

theorem hostWrite_wf {s : State} (h : s.hostMem.wf = true) (a : Nat) (b : Bytes) : (hostWrite s a b).hostMem.wf = true :=
  memWriteBytes_wf h a b

theorem ringWrite_wf {s : State} (h : s.hostMem.wf = true) (n : Nat) (r : ReplyRing) (e : Bytes) :
    (ringWrite s n r e).hostMem.wf = true := by
  simp only [ringWrite]
  split <;> exact hostWrite_wf (hostWrite_wf h _ _) _ _

theorem ringPost_wf {s : State} (h : s.hostMem.wf = true) (n : Nat) (e : RingEntry) :
    (ringPost s n e).1.hostMem.wf = true := by
  unfold ringPost
  split
  · exact h
  · split
    · unfold ringWriteEntry
      split
      · exact ringWrite_wf h _ _ _
      · exact ringWrite_wf (hostWrite_wf h _ _) _ _ _
    · exact h

theorem replyTo_wf {s : State} (h : s.hostMem.wf = true) (o : Origin) (st : Status) (d : Nat) (r : Bytes) :
    (replyTo s o st d r).hostMem.wf = true := by
  unfold replyTo
  split
  · exact h
  · exact ringPost_wf h _ _

theorem signal_hostMem (s : State) (fn v : Nat) : (signal s fn v).hostMem = s.hostMem := rfl

theorem fnSet_hostMem (s : State) (n : Nat) (f : FnState) : (fnSet s n f).hostMem = s.hostMem := rfl

theorem eventWrite_wf {s : State} (h : s.hostMem.wf = true) (fn : Nat) (r : ErrorRecord) :
    (eventWrite s fn r).hostMem.wf = true := by
  unfold eventWrite
  simp only
  split
  · rw [signal_hostMem, fnSet_hostMem]
    exact hostWrite_wf (hostWrite_wf h _ _) _ _
  · rw [fnSet_hostMem]; exact h

theorem eventPost_wf {s : State} (h : s.hostMem.wf = true) (fn : Nat) (r : ErrorRecord) :
    (eventPost s fn r).hostMem.wf = true := by
  unfold eventPost
  simp only
  split
  · exact h
  · split
    · exact h
    · exact eventWrite_wf h _ _

theorem emitRecord_wf {s : State} (h : s.hostMem.wf = true) (r : ErrorRecord) : (emitRecord s r).hostMem.wf = true := by
  have hl : ∀ t : State, (lodgeTake t r).hostMem = t.hostMem := fun t => by unfold lodgeTake; split <;> rfl
  unfold emitRecord
  rw [hl]
  simp only
  split
  · split
    · exact eventPost_wf (eventPost_wf h _ _) _ _
    · exact eventPost_wf h _ _
  · exact h

theorem reportOf_wf {s : State} (h : s.hostMem.wf = true) (k v : Nat) (u : Word) (d : Bytes) (fn : Nat) (op : Option OpInfo) :
    (reportOf s k v u d fn op).hostMem.wf = true := by
  unfold reportOf
  simp only
  split
  · exact emitRecord_wf (s := setCount s _) h _
  · split
    · exact emitRecord_wf (s := setCount s _) h _
    · exact h

end Sys2Proof.Laws
end

