-- ==== Sys2Proof/Laws/Packets.lean ====
section
/-! SUPPORT. What the reading of a packet does, said once: an accepted packet is its row's work. -/

namespace Sys2Proof.Laws
open Sys2Proof Sys2Proof.Machine Sys2Proof.Safety

/-- A chain has at least one unit (R446). -/
theorem hdrUnits_pos (ch : Bytes) : 0 < hdrUnits ch := by unfold hdrUnits; omega

/-- The checks of R452 look at who sent the packet, its chain and the state alone. -/
theorem judgePacket_ctx (s : State) (row : OpRow) (a b : Ctx) (ho : a.origin = b.origin) (hc : a.chain = b.chain) :
    judgePacket s row a = judgePacket s row b := by
  unfold judgePacket judgeIssuer sessionBad packetKey packetCounter setPacketCounter Ctx.fn
  rw [ho, hc]

/-- A packet whose checks pass, below the limit of R456, and that Dormant does not hold back is its work (R452, R453, R567). -/
theorem carryPacket_passed {s t : State} {row : OpRow} {c : Ctx} (body : Ctx → State → State)
    (hr : opRow c.origin.opcode = some row) (hj : judgePacket s row c = (t, none))
    (hl : row.long = true → longRunning t c.fn < 64) 
    (hp : t.power.state = .dormant → waitsForDies row = false ∧ busyInDormant row.opcode = false) :
    carryPacket c s body = body { c with session := hdrSession c.chain } t := by
  unfold carryPacket
  rw [hr]
  change (match judgePacket s row c with | (s1, some (st, detail)) => _ | (s1, none) => _) = _
  rw [hj]
  change admitPacket row { c with session := hdrSession c.chain } t body = _
  unfold admitPacket
  have h1 : ({ c with session := hdrSession c.chain } : Ctx).fn = c.fn := rfl
  rw [h1, if_neg (fun hh => by have := hl hh.1; omega)]
  rw [if_neg (fun hh => by simp [(hp hh.1).1] at hh), if_neg (fun hh => by simp [(hp hh.1).2] at hh)]

/-- An accepted packet is carried out: its row's work on the packet and on the state with the chain consumed (R452, R453). -/
theorem packetRow_accepted {opcode : Nat} {p : Pkt} {s t : State} {c : Ctx} (h : Accepted opcode p s c t)
    (mk : Ctx → Ctx) (body : Ctx → State → State) (hc : ∀ x, (mk x).chain = x.chain) (ho : ∀ x, (mk x).origin = x.origin)
    (hs : ∀ x n, { mk x with session := n } = mk { x with session := n }) :
    packetRow opcode p s mk body = body (mk c) t := by
  obtain ⟨q, row, ⟨hq, hr, hk, hd, hu, hv⟩, hrow, rfl, hj, hl, hp⟩ := h
  have hpos := hdrUnits_pos (chainRead opcode p)
  have hv0 : covered q ≠ 0 := by omega
  unfold packetRow
  simp only [hq, hr, hk, hd, Bool.not_true, Bool.false_eq_true, hv0, or_self, if_false]
  change (if q.depth < hdrUnits (chainRead opcode p) then _ else _) = _
  rw [if_neg (by omega)]
  change (if covered q < hdrUnits (chainRead opcode p) then _ else _) = _
  rw [if_neg (by omega)]
  change carryPacket (mk { ctxRead opcode p s q with session := 0xFFFF }) (consumed s p q (hdrUnits (chainRead opcode p))) body = _
  rw [carryPacket_passed (row := row) (t := t) body (by rw [ho]; exact hrow)
    (by rw [judgePacket_ctx _ row _ (ctxRead opcode p s q) (by rw [ho]) (by rw [hc])]; exact hj)
    (by intro h1; unfold Ctx.fn; rw [ho]; exact hl h1) hp]
  refine (congrArg (fun x => body x t) (hs { ctxRead opcode p s q with session := 0xFFFF } _)).trans ?_
  rw [hc]
  rfl

/-- A row that is read as a packet carries out what its work gives. -/
theorem carries_of {opcode : Nat} {row : Pkt → Instr} {body : Ctx → State → State} {pre : Ctx → State → Prop}
    {post : Ctx → State → State} (he : ∀ p s, exec (row p) s = .next (packetRow opcode p s id body))
    (hb : ∀ c t, pre c t → body c t = post c t) : Carries opcode row pre post := by
  intro p s c t h hp
  rw [he, packetRow_accepted h id body (fun _ => rfl) (fun _ => rfl) (fun _ _ => rfl)]
  exact congrArg _ (hb c t hp)

end Sys2Proof.Laws
end

