-- ==== Sys2Proof/Laws/Store.lean ====
section
/-! SUPPORT. Maps with rising keys: what an entry reads as after it or another is set, changed or removed. -/

namespace Sys2Proof.Laws
open Sys2Proof Sys2Proof.Machine

variable {α : Type}

@[simp] theorem sget_sput_same (m : Store α) (n : Nat) (v : α) : sget (sput m n v) n = some v := by
  induction m with
  | nil => simp [sput, sget]
  | cons e r ih =>
    obtain ⟨k, w⟩ := e
    unfold sput
    split
    · simp [sget]
    · split
      · simp [sget]
      · rename_i h1 h2; simp [sget, ih, Ne.symm h2]

theorem sget_sput_other (m : Store α) {n k : Nat} (v : α) (h : k ≠ n) : sget (sput m n v) k = sget m k := by
  induction m with
  | nil => simp [sput, sget, Ne.symm h]
  | cons e r ih =>
    obtain ⟨j, w⟩ := e
    unfold sput
    split
    · simp [sget, Ne.symm h]
    · split
      · rename_i h1 h2; subst h2; simp [sget, Ne.symm h]
      · simp [sget, ih]

@[simp] theorem sgetD_sput_same (m : Store α) (n : Nat) (v d : α) : sgetD (sput m n v) n d = v := by simp [sgetD]

theorem sgetD_sput_other (m : Store α) {n k : Nat} (v d : α) (h : k ≠ n) : sgetD (sput m n v) k d = sgetD m k d := by
  simp [sgetD, sget_sput_other m v h]

@[simp] theorem sget_smod_same (m : Store α) (n : Nat) (f : α → α) : sget (smod m n f) n = (sget m n).map f := by
  induction m with
  | nil => simp [smod, sget]
  | cons e r ih =>
    obtain ⟨k, w⟩ := e
    by_cases h : k = n
    · simp [smod, sget, h]
    · simpa [smod, sget, h] using ih

theorem sget_smod_other (m : Store α) {n k : Nat} (f : α → α) (h : k ≠ n) : sget (smod m n f) k = sget m k := by
  induction m with
  | nil => simp [smod, sget]
  | cons e r ih =>
    obtain ⟨j, w⟩ := e
    by_cases hj : j = n
    · subst hj; simpa [smod, sget, Ne.symm h] using ih
    · by_cases hk : j = k
      · simp [smod, sget, hk, h]
      · simpa [smod, sget, hj, hk] using ih

@[simp] theorem sget_sdel_same (m : Store α) (n : Nat) : sget (sdel m n) n = none := by
  induction m with
  | nil => simp [sdel, sget]
  | cons e r ih =>
    obtain ⟨k, w⟩ := e
    by_cases h : k = n
    · simpa [sdel, sget, h] using ih
    · simpa [sdel, sget, h] using ih

@[simp] theorem shas_sput_same (m : Store α) (n : Nat) (v : α) : shas (sput m n v) n = true := by simp [shas]

/-- A number that firstFree answers is not taken. -/
theorem firstFree_free (m : Store α) (fuel : Nat) {n k : Nat} (h : firstFree m n fuel = some k) : shas m k = false := by
  induction fuel generalizing n with
  | zero => simp [firstFree] at h
  | succ f ih =>
    unfold firstFree at h
    split at h
    · exact ih h
    · rename_i hn; cases h; simpa using hn

end Sys2Proof.Laws
end

