-- ==== Sys2Proof/WellFormed.lean ====
section
/-! DEFINITION. Which operands a command can have: the sizes the manual fixes. A meaning is total and does not rest on
these; they say which terms stand for something the outside can send. -/

namespace Sys2Proof

/-- A packet is one to 32 units of 128 bytes (R446). -/
def Pkt.wf (p : Pkt) : Bool :=
  decide (p.chain.length % 128 = 0) && decide (128 ≤ p.chain.length) && decide (p.chain.length ≤ 4096)

/-- The length field of a management message has 32 bits (R524). -/
def Mgmt.wf (m : Mgmt) : Bool := decide (m.payload.length < 4294967296)

/-- A remote access names a line of its owner's tile memory (R18, R255). -/
def Remote.wf (r : Remote) : Bool := decide (r.line < r.owner.core.lines)

/-- Lengths of the fields that carry the sizes of the manual. -/
def Instr.wellFormed : Instr → Bool
  | .sessionOpen p | .sessionClose p | .sessionKeyUpdate p | .timeMark p | .queueCreate p | .queueDelete p
  | .queueReset p | .ringCreate p | .ringDestroy p | .modelLoad p | .modelReplace p _ | .modelRetire p
  | .modelStatusRead p | .adapterLoad p | .adapterReplace p | .adapterRetire p | .publisherKeyRegister p
  | .rehashPeriodSet p | .graphSubmit p | .graphRetire p | .planRead p | .requestOpen p | .requestCancel p
  | .accountSet p | .accountClose p | .accountRead p | .kvPoolSet p | .kvSwapRegister p | .kvMapRead p
  | .coreStatsRead p | .memRead p | .arrayStatusRead p | .calTableRead p | .arrayCalRun p | .siteSeqRead p
  | .siteSeqWrite p | .siteDiagRun p | .quartzStatsRead p | .checkFractionSet p | .probeInstall p | .probeRemove p
  | .thermalRead p | .thermalSet p | .powerStateSetDormant p | .powerStateSetActive p | .chipReset p | .firmwareLoad p
  | .portModeSet p | .pairConfigurePair p _ | .pairConfigureUnpair p | .weightServerRegister p | .kvPeerRegister p
  | .fabricStatusRead p | .unknownOpcode p => p.wf
  | .scrubPeriodSet m | .scrubPeriodRead m | .setpointSet m | .powerLimitSet m | .collectorRegister m | .recordAck m
  | .ownerKeyFuse m | .arrayEraseAll m | .debugNonce m | .debugUnlock m | .packet m | .powerControlRailsOff m
  | .powerControlPowerUp m | .powerControlModuleReset m => m.wf
  | .platformEventMessageResponse _ | .setEventReceiver _ | .getMeasurements _ | .keyUpdate _ _
  | .spdmSessionEnd _ _ | .managementMessageDiscarded => true
  | .keyEx _ _ secret => decide (secret.length = 32)
  | .pldmFirmwareUpdate _ b => decide (b.length ≤ 33554432)
  | .lodgeImageUpdate _ b _ | .recoveryImage b => decide (b.length ≤ 8388608)
  | .doorbell _ _ _ w => decide (w ∈ [1, 2, 4, 8])
  | .registerWrite _ _ w _ => decide (w ∈ [1, 2, 4, 8])
  | .bar4Access _ _ n d => decide (0 < n) && (match d with | some b => decide (b.length = n) | none => true)
  | .resetCtl _ _ | .bsqCtl _ _ | .brplCtl _ _ | .eqCtl _ _ | .mbxCtlLoad _ _ => true
  | .vfEnable n => decide (0 < n.val)
  | .linkTrained r w => decide (r ∈ [5, 10, 16, 32, 64, 128]) && decide (w ∈ [1, 2, 4, 8])
  | .vfEnableCleared | .functionLevelReset _ | .pcieHotReset | .perst _ | .modResetL _ _ | .dStateChange _ _ | .linkDown
  | .referenceClockLost | .referenceClockReturned | .mainInputFault _ | .mainInputMarginal _ | .mainInputRestored _
  | .standbyInputFault _ | .standbyInputApplied | .standbyInputLost => true
  | .lodgeImageVerified | .mainRailsPowerUp | .gatehouseReleased | .bootRunning | .kioskWatchdog | .watchdogChipReset
  | .gatehouseSilent | .lodgeSilent | .chipResetComplete _ => true
  | .bundleFetchEnd b => (match b with | some x => decide (x.length ≤ 33554432) | none => true)
  | .timeStale | .stepBoundary _ | .variantRaise | .stepEnd _ _ _ | .recordWrite _ | .consumerCountReread _ _
  | .moderationDelay _ | .chainHandoff _ | .kvBlockCopyComplete _ | .kvBlockReturned _ => true
  | .buildStart _ | .replanInterval _ | .buildComplete _ | .planReady => true
  | .shardArrival _ _ _ _ | .rehash _ _ _ _ _ _ => true
  | .drive _ _ | .driveEnd _ | .trigger _ | .guard _ | .sweepLimit _ | .handover _ => true
  | .sweepEnd _ cs => decide (cs.length = 544)
  | .wideRowFetch _ _ _ | .repairTailEnd _ | .widePathComplete _ _ _ | .partialArrival _ _ _ _ | .drainEnd _
  | .sentinelCheckComplete _ _ _ => true
  | .probeSummary | .calibrationDue _ | .calibrationGap _ | .calibrationTimeout _ | .spareRotation _ => true
  | .sliceCalibration _ _ t => decide (t.length = 4)
  | .calibrationRoundEnd _ cs ck _ _ => decide (cs.length ∈ [128, 144]) && decide (ck.length = 8)
  | .programmingComplete _ _ _ | .programmingMaximumTime _ _ _ _ | .diagnosisComplete _ _ | .siteControlTimeout _ | .scrubPass _ _ _
  | .arrayScrub _ _ _ | .repairAdapterTrained _ _ | .repairAdapterTimeout _ _ => true
  | .remoteWrite r => r.wf && decide (r.data.length = 64)
  | .remoteRead r => r.wf
  | .completionMark _ _ | .windowClosePoint _ _ | .windowGuard _ _ | .flitCrcFail _ _ _ _ => true
  | .hbmReadError _ _ | .uncorrectableMemoryError _ _ _ | .burstCheckFail _ _ _ | .sramParityError _ | .stackLost _ _
  | .quarterLost _ _ _ | .recordHoldEnd _ _ | .recordResend => true
  | .diodeSample rs => decide (rs.length = 18)
  | .throttle | .powerLevel _ _ | .outputLevelChange | .thermalUpdate | .hardThermalTrip _ | .shutdownRearm => true
  | .coolantSample _ _ ext => decide (ext.length = 2)
  | .heartbeat _ | .heartbeatSilent | .pairOkIn _ | .mirror _ | .mirrorAcknowledgement _ | .pairConfigureTimeout
  | .portTrainingTimeout _ => true
  | .hachateFlit _ f _ _ => decide (f.length = 256)
  | .negativeAcknowledgement _ _ | .retrainTimeout _ | .laneFailure _ | .datagramResend _ | .neighbourDiscoveryMessage _ _ _
  | .dynamicAddressAssignment _ => true
  | .datagram _ _ b => decide (16 ≤ b.length) && decide (b.length ≤ 2064)
  | .refusal _ _ b => decide (16 ≤ b.length) && decide (b.length ≤ 2064)
  | .fabricPortUp _ _ n => decide (0 < n.val)

end Sys2Proof
end

