-- ==== Sys2Proof/Tests/Slice0.lean ====
section
/-! SUPPORT. Tests: what WellFormed refuses, results that the manual works out, and for every statement states and operands that
meet its hypotheses. Every name says which statement; no test runs more than one step. -/

open Sys2Proof Sys2Proof.Machine Sys2Proof.Safety
namespace Sys2Proof.Tests

set_option Elab.async false

/-- A packet is read and accepted (R427, R430, R452), and `pre` holds of what its meaning gets. -/
def accepts (opcode : Nat) (p : Pkt) (s : State) (pre : Ctx → State → Bool) : Bool :=
  match sget s.queues p.queue.val, opRow opcode with
  | some q, some row =>
    let c := ctxRead opcode p s q
    let n := hdrUnits c.chain
    isRunning s && !s.boot.kioskHung && dmaAllowed s (ownerOfQueue s p.queue.val) && decide (n ≤ q.depth) && decide (n ≤ covered q) &&
      (match judgePacket (consumed s p q n) row c with
       | (t, none) => (!row.long || decide (longRunning t c.fn < 64)) &&
           (!decide (t.power.state = .dormant) || (!waitsForDies row && !busyInDormant row.opcode)) && pre c t
       | _ => false)
  | _, _ => false

theorem accepts_sound {opcode : Nat} {p : Pkt} {s : State} {pre : Ctx → State → Bool} (h : accepts opcode p s pre = true) :
    ∃ c t, Accepted opcode p s c t ∧ pre c t = true := by
  unfold accepts at h
  split at h
  · rename_i q row hq hr
    simp only [Bool.and_eq_true, Bool.not_eq_true', decide_eq_true_eq] at h
    obtain ⟨⟨⟨⟨⟨h1, h2⟩, h3⟩, h4⟩, h5⟩, h6⟩ := h
    split at h6
    · rename_i t hj
      simp only [Bool.and_eq_true, Bool.or_eq_true, Bool.not_eq_true', decide_eq_true_eq, decide_eq_false_iff_not] at h6
      obtain ⟨⟨h7, h8⟩, h9⟩ := h6
      refine ⟨_, t, ⟨q, row, ⟨hq, h1, h2, h3, h4, h5⟩, hr, rfl, hj, fun hl => ?_, fun hd => ?_⟩, h9⟩
      · rcases h7 with h7 | h7
        · rw [hl] at h7; cases h7
        · exact h7
      · rcases h8 with h8 | h8
        · exact absurd hd h8
        · exact h8
    · cases h6
  · cases h

/-! ### A running engine and its packets -/

def key : Bytes := List.replicate 32 7

/-- A running engine with a queue, a ring, an open session and its link up. -/
def up : State :=
  { boot := { sequence := .up, state := .running, dmaStopped := false }
    power := { state := .idle, railsOn := true }
    lodge := { alive := true }
    link := { up := true, rate := 64, width := 8 }
    queues := [(0, { base := 0, depth := 16, priority := 0, ring := 0 }), (1, { base := 4096, depth := 16, priority := 0, ring := 1, producer := 8 })]
    rings := [(0, { base := 65536, depth := 16, vector := 1, modCount := 1, modDelay := 0 }),
              (1, { base := 131072, depth := 16, vector := 1, modCount := 1, modDelay := 0 })]
    sessions := [(5, { fn := 0, spdm := none, key := some key })]
    time := { set := true } }

/-- One unit: critical bit, session, parameters as (offset, bytes, value). -/
def unit (critical : Bool) (session : Nat) (ps : List (Nat × Nat × Nat)) : Bytes :=
  ps.foldl (fun ch e => patch ch (16 + e.1) (leBytes e.2.1 e.2.2))
    (padTo 128 (leBytes 2 (if critical then 1024 else 0) ++ leBytes 4 0 ++ leBytes 2 session))

def pkt (session : Nat) (ps : List (Nat × Nat × Nat)) : Pkt := { queue := 1, chain := unit false session ps }


/-- The 112 bytes of a critical unit of session 5 before its check, with counter 1. -/
def critBody (opcode : Nat) (ps : List (Nat × Nat × Nat)) : Bytes :=
  (stampOpcode opcode (patch (unit true 5 ps) 96 (leBytes 8 1))).take 112

def ring (base : Nat) : ReplyRing := { base := BitVec.ofNat 64 base, depth := 16, vector := 1, modCount := 1, modDelay := 0 }

def queue (r producer : Nat) : SubQueue := { base := 4096, depth := 16, priority := 0, ring := r, producer := producer }

/-- An open retrieval request. -/
def request : Request :=
  { fn := 0, session := 5, queue := 1, graph := 0, cls := 0, account := 0, adapter := none, ring := 1, tag := 0, deadline := 0,
    pinGen := false, cont := false, state := .running, order := 0 }

/-- A manifest of one shard of 128 bytes in the host's memory, in native mode. -/
def manifest (kind : Nat) : Bytes :=
  [(0, 2, 1), (2, 1, kind), (8, 4, 1), (16, 8, 128), (24, 2, if kind = 2 then 0 else 0xFFFF), (28, 2, if kind = 2 then 8 else 0),
    (160, 4, 128), (168, 8, 8192)].foldl (fun m e => patch m e.1 (leBytes e.2.1 e.2.2)) (List.replicate 192 0)

/-- Its generation, loaded and in the memory tier. -/
def generation (kind number state : Nat) : Generation :=
  let g := newGeneration (manifest kind) number 4096 false
  { g with state := state, shards := g.shards.map (fun x => { x with verified := true, inMemoryTier := true }) }

def object (k : ObjKind) (_kind handle refs : Nat) (gens : List Generation) : LoadedObject :=
  { kind := k, handle := handle, gens := gens, refs := refs, lastGen := gens.length }

/-- A model under handle 0 and an adapter under handle 1, of one generation each, and a model of two under handle 2. -/
def loaded : State :=
  { up with objects := [object .model 0 0 1 [generation 0 1 2], object .adapter 2 1 1 [generation 2 1 3],
      object .model 0 2 1 [generation 0 1 3, generation 0 2 2], object .model 0 3 2 [generation 0 1 2]] }

def withData (p : Pkt) (b : Bytes) : Pkt := { p with data := { first := b } }

/-! ### Critical packets: the check of R449 stands for what the session's holder computes -/

theorem leBytes_length (n v : Nat) : (leBytes n v).length = n := by
  induction n generalizing v with
  | zero => rfl
  | succ k ih => simp [leBytes, ih]

theorem hmac_length (k m : Bytes) : (hmac k m).length = 32 := by simp [hmac, digestBytes, beBytes, leBytes_length]

theorem slice_left (b m : Bytes) (off n : Nat) (h : off + n ≤ b.length) : slice (b ++ m) off n = slice b off n := by
  unfold slice
  rw [List.drop_append_of_le_length (by omega), List.take_append_of_le_length (by simp; omega)]

theorem leAt_left (b m : Bytes) (off n : Nat) (h : off + n ≤ b.length) : leAt (b ++ m) off n = leAt b off n := by
  unfold leAt; rw [slice_left b m off n h]

/-- A chain of 112 bytes and the check of R449 over them passes under the key. -/
theorem trailerOk_seal (k b : Bytes) (h : b.length = 112) : trailerOk k (b ++ (hmac k b).take 16) = true := by
  have hm : ((hmac k b).take 16).length = 16 := by simp [hmac_length]
  unfold trailerOk trailerCovered trailerCheck slice
  simp [hm, h]

theorem reserved_check (row : OpRow) (hc : row.critical = true) (m : Bytes) :
    ((((List.range 128).drop 112)).zip m).findSome? (fun e => reservedBreak row 128 e.1 e.2) = none := by
  rw [List.findSome?_eq_none_iff]
  rintro ⟨i, v⟩ hx
  have hi := (List.of_mem_zip hx).1
  have h112 : 112 ≤ i := by
    obtain ⟨j, hj, rfl⟩ := List.mem_iff_getElem.mp hi
    simp
  unfold reservedBreak
  have h1 : ¬ i < 16 := by omega
  have h2 : row.critical = true ∧ 128 - 32 ≤ i := ⟨hc, by omega⟩
  have h3 : ¬ (128 - 24 ≤ i ∧ i < 128 - 16 ∧ v ≠ 0) := by rintro ⟨_, h, _⟩; omega
  simp only [h1, h2, h3, if_false, if_true, and_self]

theorem firstReserved_seal (row : OpRow) (hc : row.critical = true) (b m n : Bytes) (hb : b.length = 112) (hm : m.length = 16)
    (hn : n.length = 16) : firstReserved row (b ++ m) = firstReserved row (b ++ n) := by
  have key : ∀ x : Bytes, x.length = 16 → firstReserved row (b ++ x) =
      (((List.range 128).take 112).zip b).findSome? (fun e => reservedBreak row 128 e.1 e.2) := by
    intro x hx
    have hl : (b ++ x).length = 128 := by simp [hb, hx]
    unfold firstReserved
    rw [hl]
    have hz : (List.range 128).zip (b ++ x) = ((List.range 128).take 112).zip b ++ ((List.range 128).drop 112).zip x := by
      rw [← List.zip_append (by simp [hb]), List.take_append_drop]
    rw [hz, List.findSome?_append, reserved_check row hc x, Option.or_none]
  rw [key m hm, key n hn]

/-- The checks of R452 with the check of R449 taken as computed with the session's key. -/
def judgeUnchecked (s : State) (row : OpRow) (c : Ctx) : State × Option (Status × Nat) :=
  match firstReserved row c.chain with
  | some off => (s, some (.invalid, off))
  | none =>
    if hdrCritical c.chain ≠ row.critical then (s, some (.invalid, 1))
    else if sessionBad s c then (s, some (.invalid, 6))
    else match packetKey s c with
      | none => (s, some (.authFail, 1))
      | some _ =>
        if trailerCounter c.chain ≤ packetCounter s c then (s, some (.counterRejected, 0))
        else (setPacketCounter s c (trailerCounter c.chain), judgeIssuer row c)

def blank : Bytes := List.replicate 16 0

/-- A packet of one unit: what comes before the check of R449, and the check. -/
def checked (b : Bytes) (data : Fetched) (m : Bytes) : Pkt := { queue := 1, chain := b ++ m, data := data }

/-- A critical packet of one unit, its first 112 bytes `b`, is accepted once its check is computed with the session's key, and
`pre` holds of what its meaning gets (with the check's bytes read as 0). -/
def acceptsCrit (opcode : Nat) (b : Bytes) (data : Fetched) (s : State) (pre : Ctx → State → Bool) : Bool :=
  match sget s.queues 1, opRow opcode with
  | some q, some row =>
    let c : Ctx := { ctxRead opcode (checked b data blank) s q with chain := b ++ blank }
    decide (b.length = 112) && decide (hdrUnits b = 1) && decide (stampOpcode opcode b = b) && row.critical &&
      decide (packetKey (consumed s (checked b data blank) q 1) c = some key) &&
      isRunning s && !s.boot.kioskHung && dmaAllowed s (ownerOfQueue s 1) && decide (1 ≤ q.depth) && decide (1 ≤ covered q) &&
      (match judgeUnchecked (consumed s (checked b data blank) q 1) row c with
       | (t, none) => (!row.long || decide (longRunning t c.fn < 64)) &&
           (!decide (t.power.state = .dormant) || (!waitsForDies row && !busyInDormant row.opcode)) && pre c t
       | _ => false)
  | _, _ => false

theorem stamp_left (opcode : Nat) (b m : Bytes) (h : b.length = 112) (hs : stampOpcode opcode b = b) :
    stampOpcode opcode (b ++ m) = b ++ m := by
  unfold stampOpcode patch at *
  rw [List.take_append_of_le_length (by omega), List.drop_append_of_le_length (by simp [leBytes_length]; omega), ← List.append_assoc, hs]

theorem judge_seal {s : State} {row : OpRow} {c : Ctx} {k b m : Bytes} (hb : b.length = 112) (hm : m.length = 16)
    (ht : trailerOk k (b ++ m) = true) (hc : row.critical = true) (hch : c.chain = b ++ m)
    (hk : packetKey s { c with chain := b ++ blank } = some k) :
    judgePacket s row c = judgeUnchecked s row { c with chain := b ++ blank } := by
  have hl : ∀ off n, off + n ≤ 112 → leAt (b ++ m) off n = leAt (b ++ blank) off n := fun off n h => by
    rw [leAt_left _ _ _ _ (by omega), leAt_left _ _ _ _ (by omega)]
  have e1 : hdrCritical (b ++ m) = hdrCritical (b ++ blank) := by unfold hdrCritical; rw [hl _ _ (by omega)]
  have e2 : hdrSession (b ++ m) = hdrSession (b ++ blank) := by unfold hdrSession; rw [hl _ _ (by omega)]
  have e3 : trailerCounter (b ++ m) = trailerCounter (b ++ blank) := by
    unfold trailerCounter
    rw [List.length_append, List.length_append, hm, hb]
    exact hl _ _ (by simp)
  have e4 := firstReserved_seal row hc b m blank hb hm rfl
  have hk2 : packetKey s c = some k := by
    rw [← hk]; unfold packetKey; simp only [hch, e2]
  unfold judgePacket judgeUnchecked sessionBad packetCounter setPacketCounter
  simp only [hch, e1, e2, e3, e4, hk, hk2, hc, if_true, ht]
  rfl

theorem chainRead_checked {opcode : Nat} {b m : Bytes} {data : Fetched} (hb : b.length = 112) (hm : m.length = 16)
    (hu : hdrUnits b = 1) (hs : stampOpcode opcode b = b) : chainRead opcode (checked b data m) = b ++ m := by
  have hun : hdrUnits (b ++ m) = 1 := by rw [← hu]; unfold hdrUnits; rw [leAt_left _ _ _ _ (by omega)]
  have hpad : padTo 128 (b ++ m) = b ++ m := by unfold padTo; simp [hb, hm]
  unfold chainRead checked
  simp only [hun, Nat.mul_one, hpad]
  exact stamp_left opcode b m hb hs

theorem ctxRead_checked {opcode : Nat} {b m : Bytes} {data : Fetched} {s : State} {q : SubQueue} (hb : b.length = 112)
    (hm : m.length = 16) (hu : hdrUnits b = 1) (hs : stampOpcode opcode b = b) :
    { ctxRead opcode (checked b data m) s q with chain := b ++ blank }
      = { ctxRead opcode (checked b data blank) s q with chain := b ++ blank } := by
  have e2 : hdrSession (b ++ m) = hdrSession (b ++ blank) := by
    unfold hdrSession; rw [leAt_left _ _ _ _ (by omega), leAt_left _ _ _ _ (by omega)]
  have e3 : hdrTag (b ++ m) = hdrTag (b ++ blank) := by
    unfold hdrTag; rw [leAt_left _ _ _ _ (by omega), leAt_left _ _ _ _ (by omega)]
  unfold ctxRead
  rw [chainRead_checked hb hm hu hs, chainRead_checked (m := blank) hb rfl hu hs, e2, e3]
  rfl

theorem acceptsCrit_sound {opcode : Nat} {b : Bytes} {data : Fetched} {s : State} {pre : Ctx → State → Bool}
    (h : acceptsCrit opcode b data s pre = true) :
    ∃ m c t, Accepted opcode (checked b data m) s c t ∧ c.chain = b ++ m ∧ c.data = data ∧ pre { c with chain := b ++ blank } t = true := by
  obtain ⟨m, hmd⟩ : ∃ m, m = (hmac key b).take 16 := ⟨_, rfl⟩
  have hm : m.length = 16 := by rw [hmd]; simp [hmac_length]
  unfold acceptsCrit at h
  split at h
  · rename_i q row hq hr
    simp only [Bool.and_eq_true, Bool.not_eq_true', decide_eq_true_eq] at h
    obtain ⟨⟨⟨⟨⟨⟨⟨⟨⟨⟨hb, hu⟩, hs⟩, hc⟩, hk⟩, h1⟩, h2⟩, h3⟩, h4⟩, h5⟩, h6⟩ := h
    have ht : trailerOk key (b ++ m) = true := by rw [hmd]; exact trailerOk_seal key b hb
    have hch : (ctxRead opcode (checked b data m) s q).chain = b ++ m := chainRead_checked hb hm hu hs
    have hun : hdrUnits (b ++ m) = 1 := by rw [← hu]; unfold hdrUnits; rw [leAt_left _ _ _ _ (by omega)]
    split at h6
    · rename_i t hj
      simp only [Bool.and_eq_true, Bool.or_eq_true, Bool.not_eq_true', decide_eq_true_eq, decide_eq_false_iff_not] at h6
      obtain ⟨⟨h7, h8⟩, h9⟩ := h6
      rw [← ctxRead_checked (m := m) hb hm hu hs] at hj hk h9
      have hj2 := judge_seal hb hm ht hc hch hk
      refine ⟨m, _, t, ⟨q, row, ⟨hq, h1, h2, h3, ?_, ?_⟩, hr, rfl, ?_, fun hl => ?_, fun hd => ?_⟩, hch, rfl, h9⟩
      · rw [chainRead_checked hb hm hu hs, hun]; exact h4
      · rw [chainRead_checked hb hm hu hs, hun]; exact h5
      · rw [hch, hun]; exact hj2.trans hj
      · rcases h7 with h7 | h7
        · rw [hl] at h7; cases h7
        · exact h7
      · rcases h8 with h8 | h8
        · exact absurd hd h8
        · exact h8
    · cases h6
  · cases h

/-- A critical packet of session 5. -/
def crit (opcode : Nat) (ps : List (Nat × Nat × Nat)) (data : Bytes) (s : State) (pre : Ctx → State → Bool) : Bool :=
  acceptsCrit opcode (critBody opcode ps) { first := data } s pre

/-! ### Packets: sessions, time, queues and rings -/

def spdmNine : Spdm := { fn := some 0, id := 9, secret := key }

/-- Every host session handle taken. -/
def fullSessions : Store Session := (List.range 4096).map (fun i => (i, { fn := 0, spdm := none, key := none }))

theorem firstFree_full {α : Type} (m : Store α) (fuel n : Nat) (h : ∀ k, n ≤ k → k < n + fuel → shas m k = true) :
    firstFree m n fuel = none := by
  induction fuel generalizing n with
  | zero => rfl
  | succ f ih =>
    unfold firstFree
    rw [if_pos (h n (Nat.le_refl n) (by omega))]
    exact ih (n + 1) (fun k h1 h2 => h k (by omega) (by omega))

theorem shas_map {α : Type} (g : Nat → α) (l : List Nat) (k : Nat) (h : k ∈ l) : shas (l.map (fun i => (i, g i))) k = true := by
  induction l with
  | nil => cases h
  | cons a r ih =>
    by_cases e : a = k
    · simp [shas, sget, e]
    · have : k ∈ r := by rcases List.mem_cons.mp h with h | h
                         · exact absurd h.symm e
                         · exact h
      simpa [shas, sget, e] using ih this

theorem fullSessions_full : firstFree fullSessions 0 4096 = none :=
  firstFree_full _ _ _ (fun k _ h => shas_map _ _ _ (List.mem_range.mpr (by omega)))

theorem test_SessionOpenBindsAFreeHandle :
    accepts 0x0001 (pkt 0xFFFF []) up (fun c t => decide (c.par 0 4 = 0 ∧ firstFree t.sessions 0 4096 = some 0)) = true ∧
    accepts 0x0001 (pkt 0xFFFF [(0, 4, 9)]) { up with spdm := [spdmNine] } (fun c t => decide (c.par 0 4 ≠ 0 ∧
      fnSpdm t c.fn (c.par 0 4) = some spdmNine ∧ firstFree t.sessions 0 4096 = some 0)) = true ∧
    accepts 0x0001 (pkt 0xFFFF [(0, 4, 9)]) up (fun c t => decide (c.par 0 4 ≠ 0 ∧ fnSpdm t c.fn (c.par 0 4) = none)) = true ∧
    accepts 0x0001 (pkt 0xFFFF []) { up with sessions := fullSessions } (fun c _ => decide (c.par 0 4 = 0)) = true := by
  decide +kernel

theorem test_SessionCloseAndKeyUpdate :
    accepts 0x0002 (pkt 5 []) up (fun c t => decide (∀ e ∈ t.requests, e.2.session ≠ c.session)) = true ∧
    crit 0x0003 [(0, 4, 9)] [] { up with spdm := [spdmNine] } (fun c t => decide (fnSpdm t c.fn (c.par 0 4) = some spdmNine)) = true ∧
    crit 0x0003 [(0, 4, 9)] [] up (fun c t => decide (fnSpdm t c.fn (c.par 0 4) = none)) = true := by
  decide +kernel

theorem test_TimeMarkHoldsOrRefuses :
    accepts 0x0004 (pkt 0xFFFF [(0, 8, 5)]) { up with time := {} } (fun _ t => decide (t.time.set = false)) = true ∧
    accepts 0x0004 (pkt 0xFFFF [(0, 8, 1000000)]) { up with time := { set := true, mark := 2000000 } }
      (fun c t => decide (t.time.set = true ∧ hostTime t ≤ c.par 0 8 + 1000000)) = true ∧
    accepts 0x0004 (pkt 0xFFFF [(0, 8, 999999)]) { up with time := { set := true, mark := 2000000 } }
      (fun c t => decide (t.time.set = true ∧ c.par 0 8 + 1000000 < hostTime t)) = true := by
  decide +kernel

theorem test_QueuePackets :
    accepts 0x0010 (pkt 5 [(0, 2, 1023), (2, 1, 12), (3, 1, 3), (4, 2, 63), (8, 8, 4096)])
      { up with rings := up.rings ++ [(63, ring 4096)] } (fun c t => decide (
      ownerOfQueue t (c.par 0 2) = c.fn ∧ c.par 0 2 ≠ bootQueue c.fn ∧ 4 ≤ c.par 2 1 ∧ c.par 2 1 ≤ 12 ∧ c.par 3 1 ≤ 3 ∧
      c.par 4 2 < 4096 ∧ ownerOfRing t (c.par 4 2) = c.fn ∧ c.par 8 8 % 4096 = 0 ∧ shas t.queues (c.par 0 2) = false ∧
      shas t.rings (c.par 4 2) = true)) = true ∧
    accepts 0x0010 (pkt 5 [(0, 2, 1024)]) { up with fns := [(1, { enabled := true })] }
      (fun c t => decide (ownerOfQueue t (c.par 0 2) ≠ c.fn)) = true ∧
    accepts 0x0011 (pkt 5 [(0, 2, 2)]) { up with queues := up.queues ++ [(2, queue 1 0)] } (fun c t => decide (
      ownerOfQueue t (c.par 0 2) = c.fn ∧ c.par 0 2 ≠ bootQueue c.fn ∧ c.par 0 2 ≠ c.origin.queue ∧
      shas t.queues (c.par 0 2) = true)) = true ∧
    accepts 0x0012 (pkt 5 [(2, 2, 1)]) up (fun c t => decide (c.par 0 1 = 0 ∧ ownerOfQueue t (c.par 2 2) = c.fn ∧
      shas t.queues (c.par 2 2) = true)) = true ∧
    accepts 0x0012 (pkt 5 [(0, 1, 1), (2, 2, 1)]) up (fun c t => decide (c.par 0 1 = 1 ∧ c.par 2 2 < 4096 ∧
      ownerOfRing t (c.par 2 2) = c.fn ∧ shas t.rings (c.par 2 2) = true ∧ ∀ e ∈ t.requests, e.2.ring ≠ c.par 2 2)) = true := by
  decide +kernel

theorem test_RingPackets :
    accepts 0x0013 (pkt 5 [(0, 2, 2), (2, 1, 12), (3, 1, 64), (4, 1, 255), (6, 2, 2047), (8, 8, 4096)]) up (fun c t => decide (
      c.par 0 2 < 4096 ∧ ownerOfRing t (c.par 0 2) = c.fn ∧ c.par 0 2 ≠ bootRing c.fn ∧ 4 ≤ c.par 2 1 ∧ c.par 2 1 ≤ 12 ∧
      1 ≤ c.par 3 1 ∧ c.par 3 1 ≤ 64 ∧ c.par 6 2 ≠ 0 ∧ c.par 6 2 < vectorsOf c.fn ∧ c.par 8 8 % 4096 = 0 ∧
      shas t.rings (c.par 0 2) = false)) = true ∧
    accepts 0x0014 (pkt 5 [(0, 2, 2)]) { up with rings := up.rings ++ [(2, ring 4096)] } (fun c t => decide (
      c.par 0 2 < 4096 ∧ ownerOfRing t (c.par 0 2) = c.fn ∧ c.par 0 2 ≠ bootRing c.fn ∧ shas t.rings (c.par 0 2) = true ∧
      (∀ e ∈ t.requests, e.2.ring ≠ c.par 0 2) ∧ (∀ e ∈ t.queues, e.2.ring = c.par 0 2 → ownerOfQueue t e.1 ≠ c.fn))) = true ∧
    accepts 0x0014 (pkt 5 [(0, 2, 1)]) { up with requests := [(3, request)] } (fun c t => decide (
      c.par 0 2 < 4096 ∧ ownerOfRing t (c.par 0 2) = c.fn ∧ c.par 0 2 ≠ bootRing c.fn ∧ shas t.rings (c.par 0 2) = true ∧
      (∃ e ∈ t.requests, e.2.ring = c.par 0 2))) = true ∧
    accepts 0x0014 (pkt 5 [(0, 2, 1)]) up (fun c t => decide (
      c.par 0 2 < 4096 ∧ ownerOfRing t (c.par 0 2) = c.fn ∧ c.par 0 2 ≠ bootRing c.fn ∧ shas t.rings (c.par 0 2) = true ∧
      (∃ e ∈ t.queues, e.2.ring = c.par 0 2 ∧ ownerOfQueue t e.1 = c.fn))) = true := by
  decide +kernel

/-! ### Packets: objects -/

theorem test_LoadPackets :
    crit 0x0101 [(8, 4, 192)] (manifest 0) up (fun c t => decide (c.data.readable = true ∧
      manifestRefusal t c.data.first (c.par 8 4) [0, 1, 3] = none ∧
      (∀ o ∈ t.objects, o.kind ≠ .adapter → o.retiring = false →
        ((currentGen o).orElse (fun _ => o.gens.head?)).map (·.digest) ≠ some (sha256 c.data.first)) ∧
      objKindOf (leAt c.data.first 2 1) = some .model ∧ 0 < handlesOf .model ∧ objGet t .model 0 = none)) = true ∧
    crit 0x0111 [(8, 4, 192)] (manifest 2) { loaded with objects := [object .model 0 0 1 [generation 0 1 2]] }
      (fun c t => decide (c.data.readable = true ∧ manifestRefusal t c.data.first (c.par 8 4) [2] = none ∧
      (∀ o ∈ t.objects, o.kind = .adapter → o.retiring = false →
        ((currentGen o).orElse (fun _ => o.gens.head?)).map (·.digest) ≠ some (sha256 c.data.first)) ∧
      0 < handlesOf .adapter ∧ objGet t .adapter 0 = none)) = true ∧
    acceptsCrit 0x0101 (critBody 0x0101 []) { readable := false } up (fun c _ => !c.data.readable) = true ∧
    acceptsCrit 0x0111 (critBody 0x0111 []) { readable := false } up (fun c _ => !c.data.readable) = true := by
  decide +kernel

/-- The packet names the manifest of `o`, and no other object of its kind has it. -/
def names (o : LoadedObject) (adapter : Bool) (c : Ctx) (t : State) : Bool :=
  decide (c.data.readable = true ∧ c.par 8 4 = c.data.first.length ∧ o ∈ t.objects ∧ (o.kind = .adapter ↔ adapter = true) ∧
      o.retiring = false ∧ o.refs < 255 ∧
      ∀ x ∈ t.objects, (x.kind = .adapter ↔ adapter = true) → x.retiring = false →
        ((currentGen x).orElse (fun _ => x.gens.head?)).map (·.digest) = some (sha256 c.data.first) → x = o)

def modelAt (state : Nat) : LoadedObject := object .model 0 0 1 [generation 0 1 state]
def adapterAt (state : Nat) : LoadedObject := object .adapter 2 1 254 [generation 2 1 state]

theorem test_LoadPackets_again :
    crit 0x0101 [(8, 4, 192)] (manifest 0) { up with objects := [modelAt 2, adapterAt 3] } (fun c t => names (modelAt 2) false c t &&
      decide (currentGen (modelAt 2) = some (generation 0 1 2) ∧ (generation 0 1 2).digest = sha256 c.data.first)) = true ∧
    crit 0x0111 [(8, 4, 192)] (manifest 2) { up with objects := [modelAt 2, adapterAt 3] } (fun c t => names (adapterAt 3) true c t &&
      decide (currentGen (adapterAt 3) = some (generation 2 1 3) ∧ (generation 2 1 3).digest = sha256 c.data.first)) = true ∧
    crit 0x0101 [(8, 4, 192)] (manifest 0) { up with objects := [modelAt 1] } (fun c t => names (modelAt 1) false c t &&
      decide (currentGen (modelAt 1) = none ∧ (modelAt 1).gens.head? = some (generation 0 1 1) ∧
        (generation 0 1 1).digest = sha256 c.data.first)) = true ∧
    crit 0x0111 [(8, 4, 192)] (manifest 2) { up with objects := [adapterAt 1] } (fun c t => names (adapterAt 1) true c t &&
      decide (currentGen (adapterAt 1) = none ∧ (adapterAt 1).gens.head? = some (generation 2 1 1) ∧
        (generation 2 1 1).digest = sha256 c.data.first)) = true := by
  decide +kernel

theorem test_ReplacePackets :
    crit 0x0102 [(8, 4, 192), (16, 1, 1)] (manifest 0) loaded (fun c t => decide (c.par 12 1 ≠ 2 ∧
      objKindOf (c.par 12 1) = some .model ∧ c.data.readable = true ∧ c.par 16 1 % 2 = 1 ∧
      manifestRefusal t c.data.first (c.par 8 4) [c.par 12 1] = none) &&
      (match objGet t .model (c.par 14 2) with | some o => decide (o.gens.length = 1 ∧ currentGen o ≠ none) | none => false)) = true ∧
    crit 0x0112 [(8, 4, 192), (12, 1, 2), (14, 2, 1)] (manifest 2) loaded (fun c t => decide (
      c.par 12 1 = 2 ∧ objGet t .adapter (c.par 14 2) = some (object .adapter 2 1 1 [generation 2 1 3]) ∧
      (generation 2 1 3).state ≠ 1 ∧ (object .adapter 2 1 1 [generation 2 1 3]).retiring = false ∧ c.data.readable = true ∧
      manifestRefusal t c.data.first (c.par 8 4) [2] = none)) = true ∧
    crit 0x0102 [(14, 2, 2)] [] loaded (fun c t => decide (c.par 12 1 ≠ 2) &&
      (match (objKindOf (c.par 12 1)).bind (fun k => objGet t k (c.par 14 2)) with
       | some o => decide (o.gens = [generation 0 1 3, generation 0 2 2] ∧ currentGen o ≠ none) | none => false)) = true := by
  decide +kernel

/-- Settings of a graph that names model 0. -/
def namesModel : GraphSettings :=
  { cls := 0, latency := 0, corner := 0, hold := false, perVector := false, slots := 8, replan := 60, jump := 4, theta := 0,
    threshold := 0, nominalLimit := 0, worstLimit := 0, batch := 4, chunk := 1, inputBytes := 64, owners := [(.model, 0)] }

theorem test_RetirePackets :
    crit 0x0103 [(14, 2, 3)] [] loaded (fun c t => decide (c.par 12 1 ≠ 2 ∧ objKindOf (c.par 12 1) = some .model) &&
      (match objGet t .model (c.par 14 2) with | some o => decide (currentGen o ≠ none ∧ 1 < o.refs) | none => false)) = true ∧
    crit 0x0103 [(14, 2, 2)] [] loaded (fun c t => decide (c.par 12 1 ≠ 2 ∧ objKindOf (c.par 12 1) = some .model) &&
      (match objGet t .model (c.par 14 2) with
       | some o => decide (currentGen o ≠ none ∧ o.refs ≤ 1 ∧ 2 ≤ o.gens.length) | none => false)) = true ∧
    crit 0x0103 [] [] { up with objects := [modelAt 2], graphs := [(0, { fn := 0, image := [], digest := 0, settings := namesModel })] }
      (fun c t => decide (c.par 12 1 ≠ 2 ∧ objKindOf (c.par 12 1) = some .model ∧ objGet t .model (c.par 14 2) = some (modelAt 2) ∧
        currentGen (modelAt 2) ≠ none ∧ (modelAt 2).refs ≤ 1 ∧ graphNames t .model (c.par 14 2) = true)) = true ∧
    crit 0x0103 [] [] loaded (fun c t => decide (c.par 12 1 ≠ 2 ∧ objKindOf (c.par 12 1) = some .model ∧
      graphNames t .model (c.par 14 2) = false) &&
      (match objGet t .model (c.par 14 2) with
       | some o => decide (currentGen o ≠ none ∧ o.refs ≤ 1 ∧ o.gens.length < 2) | none => false)) = true ∧
    crit 0x0113 [(12, 1, 2), (14, 2, 1)] [] { loaded with objects := [object .adapter 2 1 2 [generation 2 1 3]] }
      (fun c t => decide (c.par 12 1 = 2) && (match objGet t .adapter (c.par 14 2) with
       | some o => decide (currentGen o ≠ none ∧ o.retiring = false ∧ 1 < o.refs) | none => false)) = true ∧
    crit 0x0113 [(12, 1, 2), (14, 2, 1)] [] loaded
      (fun c t => decide (c.par 12 1 = 2 ∧ adapterHeld t (c.par 14 2) = false) && (match objGet t .adapter (c.par 14 2) with
       | some o => decide (currentGen o ≠ none ∧ o.retiring = false ∧ o.refs ≤ 1) | none => false)) = true := by
  decide +kernel

theorem test_ReadingPackets :
    accepts 0x0104 (pkt 5 [(14, 2, 62), (16, 2, 2)]) up (fun c _ => decide (objKindOf (c.par 12 1) = some .model ∧
      c.par 14 2 + c.par 16 2 ≤ handlesOf .model)) = true ∧
    accepts 0x0203 (pkt 5 []) up (fun _ _ => true) = true ∧
    accepts 0x0403 (pkt 5 [(0, 4, 3)]) { up with requests := [(3, request)] } (fun c t => decide (
      sget t.requests (c.par 0 4) = some request ∧ request.mirrored = false ∧ request.fn = c.fn)) = true ∧
    accepts 0x0404 (pkt 5 [(0, 1, 3), (1, 1, 5), (2, 2, 31), (4, 2, 1)]) up (fun c _ => decide (c.par 0 1 ≤ 3 ∧ 3 ≤ c.par 1 1 ∧
      c.par 1 1 ≤ 5 ∧ c.par 2 2 < coresOf (c.par 1 1) ∧ c.par 2 2 + c.par 4 2 ≤ coresOf (c.par 1 1))) = true ∧
    accepts 0x0501 (pkt 5 [(0, 4, 2097151), (4, 4, 1)]) up (fun c _ => decide (c.par 0 4 < 2097152 ∧ 1 ≤ c.par 4 4 ∧
      c.par 4 4 ≤ 65536 ∧ c.par 0 4 + c.par 4 4 ≤ 2097152)) = true ∧
    accepts 0x0502 (pkt 5 [(0, 4, 2097151)]) up (fun c _ => decide (c.par 0 4 < 2097152)) = true ∧
    accepts 0x0504 (pkt 5 [(0, 1, 3)]) up (fun c _ => decide (c.par 0 1 ≤ 3)) = true ∧
    accepts 0x0507 (pkt 5 [(0, 1, 3), (2, 2, 4095)]) up (fun c _ => decide (c.par 0 1 ≤ 3 ∧ c.par 2 2 ≤ 4095)) = true ∧
    accepts 0x0203 (pkt 5 [(0, 8, 128), (8, 4, 1)]) up (fun c _ => decide (c.par 0 8 % 64 = 0 ∧ 1 ≤ c.par 8 4 ∧ c.par 8 4 < 2)) = true ∧
    accepts 0x0203 (pkt 5 [(0, 8, 127)]) up (fun c _ => decide (c.par 0 8 % 64 ≠ 0)) = true := by
  decide +kernel

/-! ### Packets: keys, graphs and plans. The key is of the point of P-256 whose private number is 0x1234567890abcdef. -/

def keyX : Nat := 0x9fad84aeae08bbef7f010014d82cef6a09de2b0cf871b5ce0c4f1d13a59a5934
def keyY : Nat := 0x7cb45769f1070e2c2470fe5b1bfe63133c0b0cdc64ea4bf3791a8ec2a07fd4f
def keyHash : BitVec 256 := 0x991e176a624319cc145e6280ef08e2210624c50e2fbfe2130c420d315060aa42
def le32 (v : Nat) : Nat := leAt (beBytes 32 v) 0 32

/-- A pack of one pattern of zeros, with the signature (r, s) at its end. -/
def pack (r s : Nat) : Bytes :=
  [(0, 2, 1), (2, 1, 1), (4, 4, 1), (8, 8, 768), (48, 32, le32 keyX), (80, 32, le32 keyY), (704, 32, le32 r), (736, 32, le32 s)].foldl
    (fun m e => patch m e.1 (leBytes e.2.1 e.2.2)) (List.replicate 768 0)

def packR : Nat := 0x41d12f76fa7fa20bb348d3622ab0a8140dd05607e6d17203d00675d573fbc117
def packS : Nat := 0xa3cd8504619811c91717868b26a03c2e52ce048f380272ac274bfb4faefd1c69

def fused : State := { up with fuses := { up.fuses with vendorKeyHash := keyHash, ownerKeyHash := keyHash } }

theorem test_KeyRehashAndProbePackets :
    crit 0x0120 [(0, 1, 15), (4, 32, le32 keyX), (36, 32, le32 keyY)] [] up
      (fun c _ => decide (c.par 0 1 ≤ 15) && onCurve (beNat (c.parBytes 4 32)) (beNat (c.parBytes 36 32))) = true ∧
    crit 0x0120 [(0, 1, 15), (4, 32, le32 keyX), (36, 32, le32 keyX)] [] up
      (fun c _ => decide (c.par 0 1 ≤ 15) && !onCurve (beNat (c.parBytes 4 32)) (beNat (c.parBytes 36 32))) = true ∧
    crit 0x0120 [(0, 1, 16)] [] up (fun c _ => decide (15 < c.par 0 1)) = true ∧
    crit 0x0121 [(0, 2, 168)] [] up (fun c _ => decide (1 ≤ c.par 0 2 ∧ c.par 0 2 ≤ 168)) = true ∧
    crit 0x0121 [(0, 2, 169)] [] up (fun c _ => decide (c.par 0 2 = 0 ∨ 168 < c.par 0 2)) = true ∧
    crit 0x0509 [(8, 4, 768)] (pack packR packS) { fused with probes := [{ number := 0, vendor := true, bytes := [] }] }
      (fun c t => decide (c.data.readable = true ∧ 768 ≤ c.par 8 4 ∧ c.par 8 4 ≤ 4194304 ∧ c.data.first.length = c.par 8 4 ∧
        firstBad (packChecks c.data.first (c.par 8 4)) = none ∧ packSigned t c.data.first = true ∧ t.probes.length < 8 ∧
        (∀ x ∈ t.probes, x.number ≠ 1) ∧ ∃ x ∈ t.probes, x.number = 0)) = true ∧
    crit 0x0509 [(8, 4, 768)] (pack packR packS)
      { fused with probes := (List.range 8).map (fun i => { number := i, vendor := true, bytes := [] }) }
      (fun c t => decide (c.data.readable = true ∧ 768 ≤ c.par 8 4 ∧ c.par 8 4 ≤ 4194304 ∧ c.data.first.length = c.par 8 4 ∧
        firstBad (packChecks c.data.first (c.par 8 4)) = none ∧ packSigned t c.data.first = true ∧ 8 ≤ t.probes.length)) = true ∧
    crit 0x0509 [(8, 4, 768)] (0 :: (pack packR packS).tail) fused
      (fun c _ => decide (c.data.readable = true ∧ 768 ≤ c.par 8 4 ∧ c.par 8 4 ≤ 4194304 ∧ c.data.first.length = c.par 8 4 ∧
        firstBad (packChecks c.data.first (c.par 8 4)) = some 0)) = true ∧
    crit 0x0509 [(8, 4, 768)] (pack packR 0) fused
      (fun c t => decide (c.data.readable = true ∧ 768 ≤ c.par 8 4 ∧ c.par 8 4 ≤ 4194304 ∧ c.data.first.length = c.par 8 4 ∧
        firstBad (packChecks c.data.first (c.par 8 4)) = none ∧ packSigned t c.data.first = false)) = true ∧
    crit 0x050A [(0, 2, 7)] [] { up with probes := [{ number := 7, vendor := true, bytes := [] }] }
      (fun c t => decide (∃ x ∈ t.probes, x.number = c.par 0 2)) = true ∧
    crit 0x050A [(0, 2, 7)] [] up (fun c t => decide (∀ x ∈ t.probes, x.number ≠ c.par 0 2)) = true := by
  decide +kernel

def settings (cls : Nat) : GraphSettings :=
  { cls := cls, latency := 0, corner := 0, hold := false, perVector := false, slots := 8, replan := 60, jump := 4, theta := 0,
    threshold := 0, nominalLimit := 0, worstLimit := 0, batch := 4, chunk := 1, inputBytes := 64, owners := [(.model, 0)] }

def graph (cls fn : Nat) : Graph := { fn := fn, image := [], settings := settings cls, digest := 0 }

def submission : Job := ⟨{ fn := 0, queue := 1, ring := 1, opcode := 0x0201, tag := 0 }, .graphSubmit [] 0⟩

theorem test_GraphPacketsWaitForABuild :
    accepts 0x0201 (withData (pkt 5 [(8, 4, 2)]) [1, 2]) { up with jobs := List.replicate 15 submission }
      (fun c t => decide ((waitingSubmissions t).length < 16 ∧ c.data.readable = true ∧ c.par 8 4 ≤ 16777216 ∧
        c.data.first.length = c.par 8 4)) = true ∧
    accepts 0x0201 (pkt 5 []) { up with jobs := List.replicate 16 submission }
      (fun _ t => decide (16 ≤ (waitingSubmissions t).length)) = true ∧
    accepts 0x0202 (pkt 5 [(0, 1, 63)]) { up with graphs := [(63, graph 0 0)] }
      (fun c t => decide (sget t.graphs (c.par 0 1) = some (graph 0 0) ∧ (graph 0 0).fn = c.fn ∧ (graph 0 0).retiring = false)) = true ∧
    accepts 0x0202 (pkt 5 [(0, 1, 63)]) { up with graphs := [(63, graph 0 1)] }
      (fun c t => decide (sget t.graphs (c.par 0 1) = some (graph 0 1) ∧ (graph 0 1).fn ≠ c.fn)) = true ∧
    crit 0x0508 [(0, 1, 4)] [] up (fun c _ => decide (c.par 0 1 ≤ 4)) = true ∧
    crit 0x0508 [(0, 1, 5)] [] up (fun c _ => decide (4 < c.par 0 1)) = true := by
  decide +kernel

/-! ### Packets: requests, accounts, memory -/

def lanePlan (g : LaneId) : LanePlan := { graph := g, layers := [] }
def lane (g : LaneId) : Lane := { plan := lanePlan g, epoch := 1 }

def bucket (level : Int) (limit : Nat) : Bucket := { rate := 10, burst := 100, limit := limit, level := level }
def account (owner : Nat) (level : Int) (limit : Nat) : Account := { owner := owner, buckets := List.replicate 3 (bucket level limit) }

/-- A retrieval graph with its lane, and an account. -/
def serving : State :=
  { loaded with graphs := [(0, graph 0 0)], lanes := [(0, lane 0)], accounts := [(0, account 0 1024 1)] }

def openParams (adapter : Nat) : List (Nat × Nat × Nat) :=
  [(4, 2, adapter), (6, 2, 1), (24, 4, 64), (32, 8, 4096), (40, 4, 64)]

def opened (adapter : Option (Nat × Nat)) : Ctx → State → Bool := fun c t =>
  decide (t.time.set = true ∧ firstBad (openChecks t c) = none ∧ c.data.readable = true ∧
      ownerOfRing t (c.par 6 2) = c.fn ∧
      (∀ g ∈ (if fld (c.par 1 1) 3 3 = 1 then chainStages c else [c.par 0 1]), graphServes t g = true) ∧
      accountServes t (c.par 2 2) = true ∧ shas t.rings (c.par 6 2) = true ∧
      ((c.par 4 2 = 0xFFFF ∧ adapter = none) ∨
        (c.par 4 2 ≠ 0xFFFF ∧ adapter ≠ none ∧ adapterFor t (c.par 0 1) (c.par 4 2) = adapter))) &&
  (match sget t.accounts (c.par 2 2) with | some a => decide (a.owner = c.fn) | none => false)

def input64 (p : Pkt) : Pkt := { p with data := { first := List.replicate 64 1 } }

theorem test_RequestPackets :
    accepts 0x0301 (input64 (pkt 5 (openParams 0xFFFF))) serving (opened none) = true ∧
    accepts 0x0301 (input64 (pkt 5 (openParams 1))) serving (opened (some (1, 1))) = true ∧
    accepts 0x0301 (pkt 5 []) { up with time := {} } (fun _ t => decide (t.time.set = false)) = true ∧
    accepts 0x0302 (pkt 5 [(0, 4, 3)]) { up with requests := [(3, request)] } (fun c t => decide (
      sget t.requests (c.par 0 4) = some request ∧ request.fn = c.fn ∧ request.mirrored = false ∧ request.ended = false)) = true ∧
    accepts 0x0302 (pkt 5 [(0, 4, 3)]) { up with requests := [(3, { request with ended := true })] } (fun c t => decide (
      sget t.requests (c.par 0 4) = some { request with ended := true } ∧ request.fn = c.fn)) = true ∧
    accepts 0x0302 (pkt 5 [(0, 4, 3)]) { up with requests := [(3, { request with fn := 1 })] } (fun c t => 
      match sget t.requests (c.par 0 4) with | some r => decide (r.fn ≠ c.fn) | none => false) = true := by
  decide +kernel

def asking : Request := { request with state := .deferred, input := List.replicate 64 1 }

theorem test_AdmissionDecision :
    ((bucketOf (updateAccount { serving with accounts := [(0, account 0 1023 1)] } 0) 0 0).level <
      Int.ofNat (admissionCharge asking.cls asking.input * 1024)) ∧
    (Int.ofNat (admissionCharge asking.cls asking.input * 1024) ≤ (bucketOf (updateAccount serving 0) 0 0).level ∧
      (bucketOf (updateAccount serving 0) 0 0).limit ≤ openInClass (updateAccount { serving with requests := [(3, request)] } 0) 0 0) ∧
    (let u := updateAccount serving 0
     Int.ofNat (admissionCharge asking.cls asking.input * 1024) ≤ (bucketOf u 0 0).level ∧ openInClass u 0 0 < (bucketOf u 0 0).limit ∧
      asking.cls ≠ 2 ∧ u.requests.length < 262144 ∧ freeHandle u = some 0 ∧ sget u.lanes asking.graph = some (lane 0) ∧
      (lane 0).deferral = [] ∧ 0 < slotsFree u asking.graph ∧ cachedGraph u asking.graph = false) ∧
    (let u := updateAccount { serving with graphs := [(0, { graph 0 0 with settings := { settings 0 with batch := 0 } })] } 0
     Int.ofNat (admissionCharge asking.cls asking.input * 1024) ≤ (bucketOf u 0 0).level ∧ openInClass u 0 0 < (bucketOf u 0 0).limit ∧
      freeHandle u = some 0 ∧ sget u.lanes asking.graph = some (lane 0) ∧ (lane 0).deferral.length < 4096 ∧
      slotsFree u asking.graph = 0) := by
  decide +kernel

def accountParams : List (Nat × Nat × Nat) :=
  [(0, 2, 4095), (2, 1, 63), (4, 4, 16777215), (8, 4, 16777215), (12, 2, 65535), (16, 4, 16777215), (20, 4, 16777215), (28, 4, 16777215),
    (32, 4, 16777215)]

def bursts (c : Ctx) : Bool := (List.range 3).all (fun k => decide (c.par (4 + 12 * k) 4 ≤ 16777215) && decide (c.par (8 + 12 * k) 4 ≤ 16777215))

theorem test_AccountPackets :
    crit 0x0303 accountParams [] up (fun c t => decide (c.par 0 2 ≤ 4095 ∧ c.par 2 1 ≤ 63 ∧ sget t.accounts (c.par 0 2) = none ∧
      pairHalves t = false) && bursts c) = true ∧
    crit 0x0303 accountParams [] { up with accounts := [(4095, { account 0 0 0 with closing := true })] } (fun c t => decide (
      c.par 0 2 ≤ 4095 ∧ c.par 2 1 ≤ 63 ∧ sget t.accounts (c.par 0 2) = some { account 0 0 0 with closing := true }) && bursts c) = true ∧
    crit 0x0304 [] [] serving (fun c t => decide (sget t.accounts (c.par 0 2) = some (account 0 1024 1) ∧
      (account 0 1024 1).closing = false ∧ ∀ e ∈ t.requests, e.2.account ≠ c.par 0 2)) = true ∧
    accepts 0x0305 (pkt 5 []) serving (fun c t => decide (sget t.accounts (c.par 0 2) = some (account 0 1024 1) ∧
      (c.fn = 0 ∨ (account 0 1024 1).owner = c.fn))) = true ∧
    accepts 0x0305 { queue := 1025, chain := unit false 6 [] }
      { serving with fns := [(1, { enabled := true })], sessions := [(6, { fn := 1, spdm := none, key := none })],
                     link := { serving.link with vfEnable := true, numVfs := 1 },
                     queues := [(1025, queue 64 8)] } (fun c t => decide (
      sget t.accounts (c.par 0 2) = some (account 0 1024 1) ∧ c.fn ≠ 0 ∧ (account 0 1024 1).owner ≠ c.fn)) = true := by
  decide +kernel

/-- A request of one block of 2 MiB. -/
def held (loc : Location) (n : Nat) : Request := { request with blocks := [{ location := loc, bytes := n }] }

/-- A block past the end of 64 GiB, being copied away. -/
def pastBlock : Block := { location := .leaving, address := 16777216, bytes := 4096 }

theorem test_MemoryPackets :
    accepts 0x0401 (pkt 5 [(0, 2, 64)]) { up with requests := [(3, held .memoryTier 68719476736)] } (fun c t => decide (
      64 ≤ c.par 0 2 ∧ c.par 0 2 ≤ 1024 ∧ t.jobs = [] ∧ pairHalves t = false ∧ usedBytes t ≤ c.par 0 2 * 1073741824 ∧
      ∀ e ∈ t.requests, ∀ b ∈ e.2.blocks ++ e.2.reserved, pastEnd (min t.kv.poolGib (c.par 0 2) * 262144) b = false)) = true ∧
    accepts 0x0401 (pkt 5 [(0, 2, 64)]) { up with requests := [(3, { request with blocks := [pastBlock] })] } (fun c t => decide (
      64 ≤ c.par 0 2 ∧ c.par 0 2 ≤ 1024 ∧ t.jobs = [] ∧ sget t.requests 3 = some { request with blocks := [pastBlock] } ∧
      pastEnd (min t.kv.poolGib (c.par 0 2) * 262144) pastBlock = true ∧ pastBlock.location ≠ .memoryTier)) = true ∧
    accepts 0x0401 (pkt 5 [(0, 2, 64)]) { up with jobs := [⟨{ fn := 0, queue := 1, ring := 1, opcode := 0x0401, tag := 0 }, .kvPool 64⟩] }
      (fun c t => decide (64 ≤ c.par 0 2 ∧ c.par 0 2 ≤ 1024) && t.jobs.any (fun j => decide (j.work = .kvPool 64))) = true ∧
    accepts 0x0402 (pkt 5 [(0, 8, 4096), (8, 8, 0)]) up (fun c t => decide (c.par 0 8 % 4096 = 0 ∧ c.par 8 8 = 0 ∧
      ∀ b ∈ ownBlocks t, b.location ≠ .hostSwap ∧ b.dest ≠ .hostSwap)) = true ∧
    accepts 0x0401 (pkt 5 [(0, 2, 64)]) { up with requests := [(3, held .memoryTier 68719476737)] } (fun c t => decide (
      64 ≤ c.par 0 2 ∧ c.par 0 2 ≤ 1024 ∧ t.jobs = [] ∧ pairHalves t = false ∧ c.par 0 2 * 1073741824 < usedBytes t)) = true ∧
    accepts 0x0401 (pkt 5 [(0, 2, 63)]) up (fun c _ => decide (c.par 0 2 < 64 ∨ 1024 < c.par 0 2)) = true ∧
    accepts 0x0402 (pkt 5 [(0, 8, 4096), (8, 8, 1099511627776)]) { up with requests := [(3, held .memoryTier 4096)] } (fun c t => decide (
      c.par 0 8 % 4096 = 0 ∧ c.par 8 8 % 4096 = 0 ∧ c.par 8 8 ≤ 1099511627776 ∧ c.par 8 8 ≠ 0 ∧
      ∀ b ∈ ownBlocks t, b.location ≠ .hostSwap ∧ b.dest ≠ .hostSwap)) = true ∧
    accepts 0x0402 (pkt 5 [(0, 8, 4096), (8, 8, 0)]) { up with requests := [(3, held .hostSwap 4096)] } (fun c t => decide (
      c.par 0 8 % 4096 = 0 ∧ c.par 8 8 % 4096 = 0 ∧ c.par 8 8 ≤ 1099511627776) && (ownBlocks t).any (fun b => decide (b.location = .hostSwap))) = true ∧
    (∀ start ∈ [127, 128], accepts 0x0405 (pkt 5 [(4, 2, 1), (8, 8, start), (24, 2, 1), (28, 4, 64), (32, 8, 8192), (40, 4, 64)]) loaded
      (fun c t => decide (objKindOf (c.par 0 1) = some .model ∧ firstBad (accessChecks (c.parBytes 16 16) 16) = none ∧
        (objGet t .model (c.par 2 2)).bind (fun o => o.gens.find? (fun x => x.number = c.par 4 2)) = some (generation 0 1 2) ∧
        start = c.par 8 8 ∧ 128 = (generation 0 1 2).shards.foldl (fun n x => n + x.length) 0 ∧ c.par 32 8 % 64 = 0 ∧
        ((accessOf (c.parBytes 16 16)).deliver (fun i => if start + i < 128 then goldenByte t (generation 0 1 2) (start + i) else 0)).length
          ≤ c.par 40 4)) = true) ∧
    accepts 0x0405 (pkt 5 [(4, 2, 2), (24, 2, 1), (28, 4, 64)]) loaded (fun c t => decide (objKindOf (c.par 0 1) = some .model ∧
      firstBad (accessChecks (c.parBytes 16 16) 16) = none ∧
      (objGet t .model (c.par 2 2)).bind (fun o => o.gens.find? (fun x => x.number = c.par 4 2)) = none)) = true := by
  decide +kernel

/-! ### Packets: units, power, reset, firmware, fabric -/

def arrayIn (st : ArrayState) : Store OrArray := [(2097151, { state := st })]

def seqParams : List (Nat × Nat × Nat) := [(0, 1, 3), (2, 2, 65535), (4, 4, 0x80000001)]

theorem test_UnitControlPackets :
    (∀ st ∈ [ArrayState.programmed, .serving, .calibrating], accepts 0x0503 (pkt 5 [(0, 4, 2097151)]) { up with arrays := arrayIn st }
      (fun c t => decide (c.par 0 4 < 2097152 ∧ (arrGet t (c.par 0 4)).state = st)) = true) ∧
    accepts 0x0503 (pkt 5 [(0, 4, 2097151)]) { up with arrays := arrayIn .programming }
      (fun c t => decide (c.par 0 4 < 2097152 ∧ (arrGet t (c.par 0 4)).state = .programming)) = true ∧
    accepts 0x0503 (pkt 5 [(0, 4, 2097152)]) up (fun c _ => decide (2097152 ≤ c.par 0 4)) = true ∧
    (∀ st ∈ [ArrayState.erased, .quarantined, .retired], accepts 0x0503 (pkt 5 [(0, 4, 2097151)]) { up with arrays := arrayIn st }
      (fun c t => decide ((arrGet t (c.par 0 4)).state = st)) = true) ∧
    accepts 0x0505 (pkt 5 seqParams) up (fun c t => decide (c.par 0 1 ≤ 3 ∧ 262143 = c.par 0 1 * 65536 + c.par 2 2 ∧
      firstBad (seqChecks c) = none ∧ siteBusy t 262143 = false ∧ fld (c.par 4 4) 31 30 ≠ 0 ∧ (siteGet t 262143).activity = .none)) = true ∧
    accepts 0x0505 (pkt 5 [(0, 1, 3), (2, 2, 65535)]) up (fun c t => decide (firstBad (seqChecks c) = none ∧ siteBusy t 262143 = false ∧
      fld (c.par 4 4) 31 30 = 0 ∧ (siteGet t 262143).activity = .none)) = true ∧
    accepts 0x0505 (pkt 5 seqParams) { up with arrays := arrayIn .serving } (fun c t => decide (c.par 0 1 ≤ 3 ∧
      262143 = c.par 0 1 * 65536 + c.par 2 2 ∧ firstBad (seqChecks c) = none ∧ siteBusy t 262143 = true)) = true ∧
    accepts 0x0505 (pkt 5 [(0, 1, 3), (2, 2, 65535), (4, 4, 0xC0000000)]) up (fun c _ => decide (c.par 0 1 ≤ 3 ∧
      (firstBad (seqChecks c)).isSome = true)) = true ∧
    accepts 0x0506 (pkt 5 [(0, 1, 3), (2, 2, 65535)]) up (fun c t => decide (c.par 0 1 ≤ 3 ∧
      262143 = c.par 0 1 * 65536 + c.par 2 2 ∧ siteBusy t 262143 = false ∧ (siteGet t 262143).activity = .none ∧
      (siteGet t 262143).step = none ∧ (siteGet t 262143).nextStep = none ∧
      mayWork t 262143 (.diagnosing false) = true)) = true ∧
    accepts 0x0506 (pkt 5 [(0, 1, 3), (2, 2, 65535)]) { up with arrays := arrayIn .calibrating } (fun c t => decide (c.par 0 1 ≤ 3 ∧
      262143 = c.par 0 1 * 65536 + c.par 2 2 ∧ siteBusy t 262143 = true)) = true := by
  decide +kernel

def dormant : State := { up with power := { up.power with state := .dormant } }

theorem test_PowerPackets :
    accepts 0x0601 (pkt 5 []) up (fun _ _ => true) = true ∧
    crit 0x0602 [(0, 2, 480), (2, 2, 464), (4, 2, 560), (6, 2, 544), (8, 2, 760), (10, 2, 744)] [] up (fun c _ => decide (
      480 ≤ c.parInt 0 ∧ c.parInt 0 ≤ 880 ∧ c.parInt 0 ≤ c.parInt 4 ∧ c.parInt 2 + 16 ≤ c.parInt 0 ∧ 560 ≤ c.parInt 4 ∧
      c.parInt 4 ≤ 880 ∧ c.parInt 4 + 40 ≤ c.parInt 8 ∧ c.parInt 6 + 16 ≤ c.parInt 4 ∧ 760 ≤ c.parInt 8 ∧ c.parInt 8 ≤ 920 ∧
      c.parInt 10 + 16 ≤ c.parInt 8)) = true ∧
    crit 0x0602 [(0, 2, 880), (2, 2, 864), (4, 2, 880), (6, 2, 864), (8, 2, 920), (10, 2, 904)] [] up (fun c _ => decide (
      480 ≤ c.parInt 0 ∧ c.parInt 0 ≤ 880 ∧ c.parInt 0 ≤ c.parInt 4 ∧ c.parInt 2 + 16 ≤ c.parInt 0 ∧ 560 ≤ c.parInt 4 ∧
      c.parInt 4 ≤ 880 ∧ c.parInt 4 + 40 ≤ c.parInt 8 ∧ c.parInt 6 + 16 ≤ c.parInt 4 ∧ 760 ≤ c.parInt 8 ∧ c.parInt 8 ≤ 920 ∧
      c.parInt 10 + 16 ≤ c.parInt 8)) = true ∧
    accepts 0x0603 (stampPkt 0 2 (pkt 5 [])) up (fun _ t => decide (t.power.state ≠ .dormant ∧ (∀ e ∈ t.requests, e.2.mirrored = true) ∧
      t.planner.build = none)) = true ∧
    accepts 0x0603 (stampPkt 0 2 (pkt 5 [])) { up with requests := [(3, request)] } (fun _ t => decide (t.power.state ≠ .dormant ∧
      (3, request) ∈ t.requests ∧ request.mirrored = false)) = true ∧
    accepts 0x0603 (stampPkt 0 2 (pkt 5 [])) { up with planner := { up.planner with build := some { startedAt := 0, causes := [] } } }
      (fun _ t => decide (t.power.state ≠ .dormant ∧ t.planner.build = some { startedAt := 0, causes := [] })) = true ∧
    accepts 0x0603 (stampPkt 0 2 (pkt 5 [])) dormant (fun _ t => decide (t.power.state = .dormant)) = true ∧
    accepts 0x0603 (activePkt (pkt 5 [(0, 1, 1)])) up (fun c t => decide (c.par 0 1 ≤ 2 ∧ t.power.state ≠ .dormant)) = true ∧
    accepts 0x0603 (activePkt (pkt 5 [(0, 1, 1)])) dormant (fun c t => decide (c.par 0 1 ≤ 2 ∧ t.power.state = .dormant)) = true := by
  decide +kernel

/-- A bundle or Lodge image of 4,096 bytes: an image of 4 bytes for each kind (its kind, then zeros) with its digest, and the
signature (r, s). -/
def image (kinds : List (Nat × Nat)) (r s : Nat) : Bytes :=
  leBytes 2 1 ++ leBytes 2 kinds.length ++ leBytes 4 4096 ++ leBytes 8 1 ++ beBytes 32 keyX ++ beBytes 32 keyY ++ List.replicate 48 0 ++
    (kinds.zip (List.range 4)).flatMap (fun (e : (Nat × Nat) × Nat) =>
      leBytes 4 e.1.1 ++ leBytes 4 (320 + 64 * e.2) ++ leBytes 8 4 ++ beBytes 32 e.1.2) ++
    List.replicate (192 - 48 * kinds.length) 0 ++ kinds.flatMap (fun e => leBytes 64 e.1) ++ List.replicate (3584 - 64 * kinds.length) 0 ++
    beBytes 32 r ++ beBytes 32 s ++ List.replicate 128 0

def bundle : Bytes :=
  image [(1, 0x67abdd721024f0ff4e0b3f4c2fc13bc5bad42d0b7851d456d88d203d15aaa450),
    (2, 0x26b25d457597a7b0463f9620f666dd10aa2c4373a505967c7c8d70922a2d6ece),
    (3, 0x9d9f290527a6be626a8f5985b26e19b237b44872b03631811df4416fc1713178),
    (4, 0xfb5e512425fc9449316ec95969ebe71e2d576dbab833d61e2a5b9330fd70ee02)]
    0x6822b86f651915d297e1e1f68f6fd7171ca7b56b0c92b6bd8bfa890451df61ac 0xd2078923ce962ea041370137be12f6b530bee4843af1a46710473a4fb55b508f

def lodgeImage : Bytes :=
  image [(5, 0x2594b6a92ebfb1c3312deb7d01c015fb95e9fbe9bd7bc6b527af07813ec7b910)]
    0x6822b86f651915d297e1e1f68f6fd7171ca7b56b0c92b6bd8bfa890451df61ac 0xd541b3d3182f9a6a8bd479c4b948313e115818d6306aaa5cefafef9d98750ef9

/-- Fuses that hold the vendor key's digest. -/
def vendor : Fuses :=
  { vendorKeyHash := keyHash, ownerKeyHash := 0, securityVersion := 0, macBase := 0, serial := 7, variant := 1, debugDisabled := true, deviceSecret := 0 }

/-- A bundle that is signed and whole passes R539. -/
theorem bundle_ok : judgeBundle vendor bundleKinds bundle = none := by decide +kernel

theorem lodge_ok : judgeBundle vendor lodgeKinds lodgeImage = none := by decide +kernel

theorem test_ResetAndFirmwarePackets :
    crit 0x0701 [] [] up (fun _ _ => true) = true ∧
    (crit 0x0702 [(8, 4, 4096)] bundle { up with fuses := vendor } (fun c t => bundleLengthOk (c.par 8 4) && c.data.readable &&
      decide (c.data.first.length = c.par 8 4 ∧ c.par 12 1 % 2 = 0 ∧ t.fuses = vendor)) = true ∧
      judgeBundle vendor bundleKinds bundle = none) ∧
    crit 0x0702 [(8, 4, 4096), (12, 1, 1)] bundle { up with fuses := vendor } (fun c t => bundleLengthOk (c.par 8 4) && c.data.readable &&
      decide (c.data.first.length = c.par 8 4 ∧ c.par 12 1 % 2 = 1 ∧ t.fuses = vendor)) = true ∧
    crit 0x0702 [(8, 4, 4096)] (List.replicate 4096 0) { up with fuses := vendor } (fun c t => decide (bundleLengthOk (c.par 8 4) = true ∧
      c.data.readable = true ∧ c.data.first.length = c.par 8 4 ∧ judgeBundle t.fuses bundleKinds c.data.first = some (6, 0))) = true := by
  refine ⟨by decide +kernel, ⟨by decide +kernel, bundle_ok⟩, by decide +kernel, by decide +kernel⟩

/-- A generation whose shard a weight server holds. -/
def served : Generation := { generation 0 1 2 with shards := (generation 0 1 2).shards.map (fun x => { x with source := 1 }) }

theorem test_FabricPackets :
    (∀ n ∈ ([3, 4, 15] : List Nat), crit 0x0801 [(0, 1, n), (1, 1, 2)] [] up (fun c t => decide (c.par 0 1 ≤ 15 ∧ c.par 1 1 ≤ 2 ∧
      (c.par 0 1 < 4 → t.pair.configured = false ∧ t.pair.phase = .unpaired))) = true) ∧
    crit 0x0801 [(0, 1, 3), (1, 1, 2)] [] { up with pair := { configured := true } } (fun c t => decide (c.par 0 1 < 4 ∧ c.par 1 1 ≤ 2 ∧
      t.pair.configured = true)) = true ∧
    accepts 0x0803 (pkt 5 [(0, 1, 63), (1, 1, 15), (24, 8, 1)]) loaded (fun c t => decide (c.par 0 1 ≤ 63 ∧ c.par 1 1 ≤ 15 ∧
      c.par 24 8 ≠ 0 ∧ slotUsed t (c.par 0 1) = false)) = true ∧
    accepts 0x0803 (pkt 5 [(24, 8, 1)]) { up with objects := [object .model 0 0 1 [served]] } (fun c t => decide (c.par 0 1 ≤ 63 ∧
      c.par 1 1 ≤ 15 ∧ c.par 24 8 ≠ 0 ∧ slotUsed t (c.par 0 1) = true)) = true ∧
    accepts 0x0804 (pkt 5 [(1, 1, 1)]) { up with requests := [(3, held .peer 4096)] } (fun c t => decide (c.par 0 1 ≤ 15 ∧ c.par 1 1 ≤ 1 ∧
      (portGet t (c.par 0 1)).mode ≠ 1 ∧ peerUsed t (c.par 0 1) = true)) = true ∧
    accepts 0x0804 (pkt 5 [(0, 1, 15), (1, 1, 1)]) up (fun c t => decide (c.par 0 1 ≤ 15 ∧ c.par 1 1 = 1 ∧
      (portGet t (c.par 0 1)).mode ≠ 1 ∧ peerUsed t (c.par 0 1) = false)) = true ∧
    accepts 0x0804 (pkt 5 [(0, 1, 15)]) up (fun c t => decide (c.par 0 1 ≤ 15 ∧ c.par 1 1 = 0 ∧
      (portGet t (c.par 0 1)).mode ≠ 1 ∧ peerUsed t (c.par 0 1) = false)) = true ∧
    accepts 0x0805 (pkt 5 []) up (fun _ _ => true) = true := by
  decide +kernel

/-- PAIR_CONFIGURE's packet, its first parameter as its row stamps it. -/
def pairing (v : Nat) (s : State) (pre : Ctx → State → Bool) : Bool :=
  crit 0x0802 [(0, 1, v)] [] s pre && decide (leAt (critBody 0x0802 [(0, 1, v)]) 16 1 = v)

theorem test_PairPackets :
    pairing 1 up (fun _ t => decide (t.pair.phase = .unpaired ∧ pairJob t = false ∧ ∀ i ∈ ([0, 1, 2, 3] : List Nat), (portGet t i).mode ≠ 1)) = true ∧
    pairing 1 { up with pair := { phase := .establishing } } (fun _ t => decide (t.pair.phase ≠ .unpaired)) = true ∧
    pairing 0 { up with pair := { phase := .paired } } (fun _ t => decide (t.pair.phase ≠ .unpaired)) = true ∧
    pairing 0 up (fun _ t => decide (t.pair.phase = .unpaired)) = true := by
  decide +kernel

/-! ### Management messages -/

def lodgeUp : State := { up with spdm := [{ fn := none, id := 9, secret := key }] }

def msg (payload : Bytes) : Mgmt := { spdm := some 9, payload := payload }

def inside (m : Mgmt) (s : State) : Bool := s.lodge.alive && decide (m.spdm = some 9 ∧ m.flags = 0) && (lodgeSession s 9).isSome

theorem inside_sound {m : Mgmt} {s : State} (h : inside m s = true) : Inside m s 9 := by
  simp only [inside, Bool.and_eq_true, decide_eq_true_eq] at h
  exact ⟨h.1.1, h.1.2.1, h.2, h.1.2.2⟩

theorem test_ManagementOutsideASessionIsDiscarded : up.lodge.alive = true ∧ ({ spdm := none } : Mgmt).spdm = none := by decide +kernel

def par (ps : List (Nat × Nat × Nat)) : Mgmt := msg (ps.foldl (fun m e => patch m e.1 (leBytes e.2.1 e.2.2)) (List.replicate 32 0))

theorem test_ManagementSettings :
    (∀ ps : List (Nat × Nat × Nat), ps ∈ [[(0, 1, 3), (4, 4, 2592000)], [(0, 1, 0), (4, 4, 1)]] → inside (par ps) lodgeUp = true ∧
      mgmtPar (par ps) 0 1 ≤ 3 ∧ (periodRange (mgmtPar (par ps) 0 1)).1 ≤ mgmtPar (par ps) 4 4 ∧
      mgmtPar (par ps) 4 4 ≤ (periodRange (mgmtPar (par ps) 0 1)).2) ∧
    3 < mgmtPar (par [(0, 1, 4)]) 0 1 ∧
    (∀ v ∈ [680, 780], 680 ≤ mgmtPar (par [(0, 2, v)]) 0 2 ∧ mgmtPar (par [(0, 2, v)]) 0 2 ≤ 780 ∧ mgmtPar (par [(0, 2, v)]) 0 2 % 10 = 0) ∧
    mgmtPar (par [(0, 2, 681)]) 0 2 % 10 ≠ 0 ∧
    (∀ v ∈ [1200, 2400], 1200 ≤ mgmtPar (par [(0, 2, v)]) 0 2 ∧ mgmtPar (par [(0, 2, v)]) 0 2 ≤ 2400) ∧
    2400 < mgmtPar (par [(0, 2, 2401)]) 0 2 ∧
    BitVec.ofNat 128 (mgmtPar (par []) 0 16) = 0 ∧ BitVec.ofNat 128 (mgmtPar (par [(0, 1, 1)]) 0 16) ≠ 0 := by
  decide +kernel

/-- A -D module with serial number 7, whose running Lodge image carries the vendor key, and a nonce. -/
def unlockable : State :=
  { lodgeUp with
    fuses := { vendor with variant := 2, debugDisabled := false }
    lodge := { lodgeUp.lodge with nonce := some (List.replicate 32 9), runningImage := some (List.replicate 16 0 ++ beBytes 32 keyX ++ beBytes 32 keyY) } }

/-- The vendor key's signature of that serial number and nonce. -/
def token : Bytes :=
  beBytes 32 0x74f327c57b7398764377c411da238e013a82a7d0392c63c495271e38216ad960 ++
  beBytes 32 0x79268fac2b55fd592c189497b0430c4a4d6cc6c805a71eff5004b85760c4c8d9

def waiting : State := { lodgeUp with boot := { sequence := .up, state := .waiting } }

theorem test_ManagementSecurity :
    (inside (msg (beBytes 32 keyX ++ beBytes 32 keyY)) waiting = true ∧ waiting.boot.sequence = .up ∧ waiting.boot.state = .waiting ∧
      waiting.fuses.ownerKeyHash = 0 ∧ (beBytes 32 keyX ++ beBytes 32 keyY).length = 64 ∧ onCurve keyX keyY = true) ∧
    (inside (msg (List.replicate 64 0)) waiting = true ∧ onCurve (beAt (List.replicate 64 0) 0 32) (beAt (List.replicate 64 0) 32 32) = false) ∧
    (inside (msg []) lodgeUp = true ∧ lodgeUp.boot.state ≠ .waiting ∧ lodgeUp.boot.state = .running ∧ lodgeUp.graphs = []) ∧
    (inside (msg []) { fused with spdm := lodgeUp.spdm } = true ∧ fused.fuses.ownerKeyHash ≠ 0) ∧
    (let s := { lodgeUp with boot := { lodgeUp.boot with state := .chipReset } }
     inside (msg []) s = true ∧ s.boot.state = .chipReset) ∧
    (inside (msg token) unlockable = true ∧ unlockable.fuses.variant = 2 ∧ unlockable.fuses.debugDisabled = false ∧
      unlockable.lodge.nonce = some (List.replicate 32 9) ∧ token.length = 64 ∧ tokenOk unlockable (List.replicate 32 9) token = true) ∧
    (inside (msg (List.replicate 64 0)) unlockable = true ∧ tokenOk unlockable (List.replicate 32 9) (List.replicate 64 0) = false) ∧
    (let s := { unlockable with fuses := { unlockable.fuses with variant := 1, debugDisabled := true } }
     inside (msg token) s = true ∧ s.fuses.variant ≠ 2 ∧ s.fuses.debugDisabled = true ∧ s.lodge.nonce ≠ none) ∧
    lodgeUp.lodge.nonce = none := by
  decide +kernel

theorem test_PowerControl :
    (let s := { lodgeUp with boot := { lodgeUp.boot with state := .chipReset } }; inside (msg []) s = true ∧ resetInProgress s = true) ∧
    (inside (msg []) lodgeUp = true ∧ resetInProgress lodgeUp = false ∧ lodgeUp.power.railsOn = true) ∧
    (let s := { lodgeUp with power := { state := .standby }, boot := { sequence := .waitRails } }
     inside (msg []) s = true ∧ resetInProgress s = false ∧ s.power.railsOn = false) := by
  decide +kernel

/-- PROBE_REMOVE of pack 3 with counter 1, its check computed with the session's key. -/
def carried : Bytes :=
  ((stampOpcode 0x050A (patch (unit true 0xFFFF [(0, 2, 3)]) 96 (leBytes 8 1))).take 112) ++ leBytes 16 0xa7fa840ac7b63ae935feb94b7f028406

theorem test_PacketCarriedByTheLodge :
    (inside (msg []) waiting = true ∧ waiting.boot.state ≠ .running) ∧
    (let s := { lodgeUp with probes := [{ number := 3, vendor := true, bytes := [] }] }
     let c : Ctx := { origin := { fn := 0, queue := 0xFFFF, ring := noRing, via := some 9, mgmtSeq := 0, opcode := 0x050A, tag := hdrTag carried }
                      chain := carried, data := {} }
     inside (msg carried) s = true ∧ s.boot.state = .running ∧ s.boot.kioskHung = false ∧ carried.length = 128 * hdrUnits carried ∧
      hdrOpcode carried = 0x050A ∧
      (match opRow 0x050A with
        | some row => (match judgePacket s row c with
          | (t, none) => decide (∃ x ∈ t.probes, x.number = leAt carried 16 2)
          | _ => false)
        | none => false) = true) := by
  decide +kernel

/-! ### Records, SPDM, images -/

theorem test_RecordsOnTheirRoutes :
    (let s := { up with lodge := { up.lodge with eventReceiver := some 8, collector := some (1, 2) } }
     s.lodge.alive = true ∧ s.lodge.eventReceiver ≠ none ∧ s.lodge.collector ≠ none ∧ s.power.state ≠ .off) := by
  decide +kernel

def spdmOf (fn : Option Nat) (n : Nat) : List Spdm := (List.range n).map (fun i => { fn := fn, id := BitVec.ofNat 32 i, secret := [] })

theorem test_SpdmSessions :
    (responderThere up (some 0) = true ∧ responderThere up none = true) ∧
    (let s := { up with spdm := spdmOf (some 0) 7 }
     responderThere s (some 0) = true ∧ (s.spdm.filter (fun e => e.fn = spdmFn (some 0))).length < 8 ∧ (∀ e ∈ s.spdm, e.id ≠ 7)) ∧
    (let s := { up with spdm := spdmOf none 3 }
     responderThere s none = true ∧ (s.spdm.filter (fun e => e.fn = spdmFn none)).length < 4 ∧ (∀ e ∈ s.spdm, e.id ≠ 3)) ∧
    (let s := { up with spdm := spdmOf (some 0) 8 }; 8 ≤ (s.spdm.filter (fun e => e.fn = spdmFn (some 0))).length) ∧
    (let s := { up with spdm := spdmOf none 4 }; 4 ≤ (s.spdm.filter (fun e => e.fn = spdmFn none)).length) := by
  decide +kernel

theorem test_ImagesTheLodgeReceives :
    ((let s := { waiting with fuses := vendor }
      s.lodge.alive = true ∧ (lodgeSession s 9).isSome = true ∧ s.boot.sequence = .up ∧ s.boot.state = .waiting ∧ s.fuses = vendor) ∧
      judgeBundle vendor bundleKinds bundle = none ∧ judgeBundle vendor bundleKinds [] ≠ none) ∧
    ((let s := { State.reset with fuses := vendor, boot := { State.reset.boot with sequence := .recovery } }
      s.boot.sequence = .recovery ∧ s.fuses = vendor) ∧ judgeBundle vendor lodgeKinds lodgeImage = none ∧
      judgeBundle vendor lodgeKinds [] ≠ none) ∧
    (let s := { up with lodge := { up.lodge with alive := false } }
     s.lodge.alive = false ∧ s.power.state ≠ .off ∧ s.boot.sequence ≠ .lodgeRom) := by
  exact ⟨⟨by decide +kernel, bundle_ok, by decide +kernel⟩, ⟨by decide +kernel, lodge_ok, by decide +kernel⟩, by decide +kernel⟩

/-! ### Registers, doorbells -/

def fn1 : State :=
  { up with fns := [(1, { enabled := true })], link := { up.link with vfEnable := true, numVfs := 1 } }

theorem test_DoorbellMovesTheProducer :
    (let s := { up with queues := [(1, { queue 1 0 with consumed := 65535 })] }
     reachable s 0 = true ∧ ownerOfQueue s 1 = 0 ∧ sget s.queues 1 = some { queue 1 0 with consumed := 65535 } ∧
      covered { queue 1 65535 with consumed := 65535 } ≤ (15 + 65536 - 65535) % 65536 ∧ (15 + 65536 - 65535) % 65536 ≤ 16) ∧
    (let s := { up with queues := [(1, queue 1 0)] }
     reachable s 0 = true ∧ ownerOfQueue s 1 = 0 ∧ sget s.queues 1 = some (queue 1 0) ∧ (queue 1 0).depth < (17 + 65536 - 0) % 65536) ∧
    (reachable fn1 0 = true ∧ ownerOfQueue fn1 1024 ≠ 0) := by
  decide +kernel

theorem test_ResetControlAndMailbox :
    (let s := { up with boot := { up.boot with fatal := true } }
     reachable s 0 = true ∧ fld 0xC9100000 31 24 = 0xC9 ∧ fld 0xC9100000 23 20 = 1 ∧ s.boot.fatal = true ∧ s.boot.state ≠ .chipReset ∧
      s.boot.state ≠ .halted) ∧
    (reachable up 0 = true ∧ up.boot.fatal = false) ∧
    (let s := { up with boot := { up.boot with state := .waiting, mbxLen := 4096 } }
     reachable s 0 = true ∧ fld 0x10000000 31 28 = 1 ∧ s.boot.state = .waiting ∧ bundleLengthOk s.boot.mbxLen.toNat = true) ∧
    (let s := { up with boot := { up.boot with state := .waiting, mbxLen := 4095 } }
     reachable s 0 = true ∧ s.boot.state = .waiting ∧ bundleLengthOk s.boot.mbxLen.toNat = false) ∧
    (up.boot.state ≠ .waiting) ∧ reachable fn1 1 = true := by
  decide +kernel

theorem test_BootstrapRegisters :
    reachable fn1 1 = true ∧
    (let f := fnGet fn1 1
     f.bsqEnable = false ∧ f.brplEnable = false ∧ f.eqEnable = false ∧ fn1.boot.state = .running ∧
      (∀ v ∈ [0x80000004, 0x8000000C], fld v 31 31 = 1 ∧ 4 ≤ fld v 3 0 ∧ fld v 3 0 ≤ 12) ∧
      (fld 0x80000804 31 31 = 1 ∧ fld 0x80000804 3 0 = 4 ∧ fld 0x80000804 21 11 ≠ 0 ∧ fld 0x80000804 21 11 < vectorsOf 1) ∧
      fld 0x80000004 21 11 = 0 ∧ vectorsOf 1 ≤ fld 0x803FF804 21 11) ∧
    (let s := fnSet { fn1 with boot := { fn1.boot with state := .waiting } } 1 { enabled := true, bsqEnable := true }
     (fnGet s 1).bsqEnable = true ∧ s.boot.state ≠ .running ∧ (fnGet s 1).eqEnable = false ∧
      ∀ v ∈ [0x80060000, 0x80100000], fld v 31 31 = 1 ∧ 6 ≤ fld v 20 16 ∧ fld v 20 16 ≤ 16) ∧
    (let s := fnSet fn1 1 { enabled := true, brplEnable := true }; reachable s 1 = true ∧ (fnGet s 1).brplEnable = true) ∧
    (let s := fnSet fn1 1 { enabled := true, eqEnable := true }; reachable s 1 = true ∧ (fnGet s 1).eqEnable = true) := by
  decide +kernel

theorem test_RegisterAndApertureWrites :
    (reachable up 0 = true ∧ (fnGet up 0).eqEnable = false ∧ (fnGet up 0).pba = []) ∧
    (let s := fnSet up 0 { eqEnable := true }; reachable s 0 = true ∧ (fnGet s 0).eqEnable = true) ∧
    (let s := { unlockable with lodge := { unlockable.lodge with debugUnlocked := true } }; reachable s 0 = true ∧ bar4Live s = true) ∧
    (reachable unlockable 0 = true ∧ bar4Live unlockable = false) := by
  decide +kernel

/-! ### Functions, link, supplies, boot -/

theorem test_VirtualFunctions :
    (reachable up 0 = true ∧ up.link.vfEnable = false) ∧ (reachable fn1 0 = true ∧ fn1.link.vfEnable = true) ∧
    (reachable fn1 1 = true ∧ (fnGet fn1 1).eqEnable = false) := by
  decide +kernel

theorem test_LinkClockAndResets :
    (let s := { up with boot := { up.boot with sequence := .released }
                        lanes := [(0, { lane 0 with plan := { lanePlan 0 with hostReadRate := 999999 } })] }
     s.power.perstAsserted = false ∧ s.power.refClock = true ∧ s.boot.sequence = .released ∧ s.boot.gatehouseSilent = false ∧
      linkCarries 64 1 < reservedReads s) ∧
    up.link.up = true ∧ up.boot.sequence = .up ∧ up.power.state ≠ .off ∧ State.reset.link.up = false := by
  decide +kernel

def waitsForMain : State :=
  { State.reset with lodge := { State.reset.lodge with alive := true }, boot := { State.reset.boot with sequence := .waitRails } }

theorem test_SupplyInputs :
    (up.lodge.alive = true ∧ up.power.railsOn = true ∧ up.power.lastStandbyRecord = none) ∧
    (let s := { waitsForMain with power := { State.reset.power with offReason := 1 } }
     s.lodge.alive = true ∧ s.power.state = .standby ∧ s.power.offReason = 1) ∧
    (let s := { State.reset with power := { State.reset.power with state := .off } }; s.power.state = .off) := by
  decide +kernel

theorem test_PowerUpSequence :
    ((let s := { State.reset with fuses := vendor, lodge := { State.reset.lodge with flashImage := lodgeImage } }
      s.boot.sequence = .lodgeRom ∧ s.fuses = vendor) ∧ judgeBundle vendor lodgeKinds lodgeImage = none) ∧
    (let s := { State.reset with fuses := vendor, lodge := { State.reset.lodge with flashImage := [] } }
     s.boot.sequence = .lodgeRom ∧ judgeBundle s.fuses lodgeKinds s.lodge.flashImage ≠ none) ∧
    railsMayRise waitsForMain = true ∧ railsMayRise { waitsForMain with thermal := { waitsForMain.thermal with holdOff := true } } = false ∧
    (let s := { waitsForMain with boot := { State.reset.boot with sequence := .railsUp } }
     s.boot.sequence = .railsUp ∧ s.power.refClock = true) := by
  exact ⟨⟨by decide +kernel, lodge_ok⟩, by decide +kernel, by decide +kernel, by decide +kernel, by decide +kernel⟩

def fetching (f : Fuses) (n : Word) : State := { up with fuses := f, boot := { up.boot with state := .fetching, mbxLen := n } }

theorem test_BootToRunning :
    (let s := fetching vendor 4096
     (s.boot.state = .fetching ∧ s.link.up = true ∧ bundle.length = s.boot.mbxLen.toNat ∧ s.fuses = vendor)) ∧
    judgeBundle vendor bundleKinds bundle = none ∧
    (let s := fetching vendor 4096
     (List.replicate 4096 (0 : Byte)).length = s.boot.mbxLen.toNat ∧ judgeBundle s.fuses bundleKinds (List.replicate 4096 0) = some (6, 0)) ∧
    (let s := { up with boot := { up.boot with state := .starting, accepted := some bundle } }
     s.boot.state = .starting ∧ s.boot.accepted = some bundle) := by
  exact ⟨by decide +kernel, bundle_ok, by decide +kernel, rfl, rfl⟩

theorem test_WatchdogsAndRecovery :
    (up.boot.state = .running ∧ up.boot.fatal = false) ∧
    (let s := { up with now := 1000000000, boot := { up.boot with watchdogAt := some 0, containments := [0, 0] } }
     s.boot.watchdogAt = some 0 ∧ 0 + 1000000000 ≤ s.now ∧ s.lodge.alive = true ∧ s.boot.state = .running ∧ (recentContainments s).length < 3) ∧
    (let s := { up with now := 3600000000000, boot := { up.boot with watchdogAt := some 0, containments := [0, 0, 0] } }
     s.boot.watchdogAt = some 0 ∧ 0 + 1000000000 ≤ s.now ∧ s.lodge.alive = true ∧ s.boot.state = .running ∧
      3 ≤ (recentContainments s).length) ∧
    (up.power.railsOn = true ∧ up.boot.gatehouseSilent = false ∧ up.boot.sequence = .up ∧ up.lodge.alive = true) ∧
    (let s := { up with boot := { up.boot with state := .chipReset, staged := [List.replicate 4096 0] } }
     s.boot.state = .chipReset ∧ s.boot.endsHalted = false ∧ bundleToRun {} s = none) ∧
    (let s := { up with boot := { up.boot with state := .chipReset, endsHalted := true } }
     s.boot.state = .chipReset ∧ s.boot.endsHalted = true) := by
  decide +kernel

theorem test_WatchdogsAndRecovery_bundle :
    ∃ s b, s.boot.state = .chipReset ∧ s.boot.endsHalted = false ∧ bundleToRun {} s = some b :=
  ⟨{ up with fuses := vendor, boot := { up.boot with state := .chipReset, staged := [bundle, bundle] } }, bundle, rfl, rfl, by
    unfold bundleToRun foundCopies
    show List.find? _ (bundle :: _) = some bundle
    rw [List.find?_cons, bundle_ok]; rfl⟩

/-! ### Lanes, entries, records, hand-offs, blocks -/

def stepOf (batch recompute : List Nat) : LaneStep := { prefill := false, batch := batch, startedAt := 0, epoch := 1, recompute := recompute }

def inLaneStep : State := { serving with lanes := [(0, { lane 0 with step := some (stepOf [3] []) })], requests := [(3, request)] }

/-- A plan is installed at level code 3, and the level has held for 100 ms. -/
def raising : State :=
  { serving with
    now := 100000000, thermal := { serving.thermal with raiseSince := [(2, 0)] }
    planner := { serving.planner with variant := 3, plan := some { epoch := 1, lanes := [], digest := 0, checkCode := 1 } } }

def planX (programs : List Programming) : Plan :=
  { epoch := 0, lanes := [lanePlan 0], digest := 0, checkCode := 2, programs := programs, parts := [0, 1, 2, 3] }

/-- One running request in a lane of a retrieval graph, and nothing loaded. -/
def alone : State :=
  { serving with objects := [], lanes := [(0, { lane 0 with epoch := 0 })], requests := [(3, request)] }

theorem test_LaneSteps :
    (sget serving.lanes 0 = some (lane 0) ∧ (lane 0).step = none ∧ serving.boot.state = .running ∧ serving.boot.kioskHung = false ∧
      serving.power.state ≠ .dormant) ∧
    (let l := { lane 0 with step := some (stepOf [3] []) }; let outs : List StepOut := [{ seq := 3 }]
     sget inLaneStep.lanes 0 = some l ∧ l.step = some (stepOf [3] []) ∧ inLaneStep.boot.state = .running ∧ inLaneStep.boot.kioskHung = false ∧
      stepWorkDone inLaneStep 0 l = true ∧ (∀ h ∈ (stepOf [3] []).batch, h ∉ (stepOf [3] []).recompute → ∃ o ∈ outs, o.seq = h) ∧
      (∀ o ∈ outs, outputWhole inLaneStep 0 l { stepOf [3] [] with excursion := false || true } o = true)) ∧
    raiseTo up = none ∧
    (let s := { up with now := 1000000001 }; s.time.set = true ∧ s.time.markAt + 1000000000 < s.now) ∧
    (let s := { up with now := 1000000000 }; s.now ≤ s.time.markAt + 1000000000) := by
  decide +kernel

theorem test_LaneSteps_boundary :
    let s := alone
    let l := { lane 0 with epoch := 0 }
    let gr := graph 0 0
    let r := request
    (s.lanes = [(0, l)] ∧ s.requests = [(3, r)] ∧ sget s.graphs 0 = some gr ∧ gr.settings.cached = false ∧ gr.settings.rowLength = 0 ∧
      s.boot.state = .running ∧ s.boot.kioskHung = false ∧ s.power.state ≠ .dormant ∧ s.planner.plan = none ∧ s.objects = [] ∧
      s.repairAdapters = [] ∧ s.kv.newPool = none) ∧
    (l.step = none ∧ l.sitsOut = false ∧ l.epoch = s.planner.epoch ∧ l.changed = [] ∧ l.deferral = [] ∧ l.plan.layers = []) ∧
    (r.graph = 0 ∧ r.state = .running ∧ r.mirrored = false ∧ r.ended = false ∧ r.closing = false ∧ r.cancelled = false ∧ r.handoff = false ∧
      r.deadline = 0 ∧ r.blocks = [] ∧ r.reserved = []) ∧
    overdrawn (updateAccount s r.account) r = false ∧ recordWaits s 3 = false ∧ dmaAllowed s r.fn = true := by
  decide +kernel

theorem test_LaneSteps_raise :
    (raising.planner.plan.isSome = true ∧ raiseTo raising = some 2) ∧
    (let s := { raising with planner := { raising.planner with plan := some (planX []) } }
     s.lanes = [(0, lane 0)] ∧ (lane 0).step = none ∧ s.planner.plan = some (planX []) ∧ raiseTo s = some 2 ∧ shas s.graphs 0 = true ∧
      (variantOf (planX []) 2).find? (fun x => x.graph.val = 0) = some (lanePlan 0) ∧
      ∀ a ∈ lanesArrays [lanePlan 0], isProgramming (siteGet s (a / 8)).activity = false) ∧
    (let s := { raising with lanes := [(0, { lane 0 with step := some (stepOf [3] []) })] }
     s.planner.plan.isSome = true ∧ raiseTo s = some 2 ∧ ∀ e ∈ s.lanes, e.1 = 0 → e.2.step ≠ none) := by
  decide +kernel

def entry (v : Byte) : RingEntry := { bytes := List.replicate 64 v }

def ringWith (held : List RingEntry) (producer : Nat) : ReplyRing := { ring 8192 with held := held, producer := producer }

theorem test_RingEntriesAreWrittenInOrder :
    (let s := { up with rings := [(1, ringWith [entry 1, entry 2] 15)] }
     sget s.rings 1 = some (ringWith [entry 1, entry 2] 15) ∧ ringFull (ringWith [entry 1, entry 2] 15) = false ∧
      dmaAllowed s (ownerOfRing s 1) = true ∧ (entry 1).request = none ∧ (entry 1).bytes.length = 64 ∧
      0 < (ringWith [entry 1, entry 2] 15).depth ∧ s.hostMem.wf = true) ∧
    (let s := { up with rings := [(1, ringWith [entry 1] 16)] }
     sget s.rings 1 = some (ringWith [entry 1] 16) ∧ ringFull (ringWith [entry 1] 16) = true ∧ dmaAllowed s (ownerOfRing s 1) = true) ∧
    (let s := fnSet up 0 { eqEnable := true, eqSize := 6, eqProducer := 64 }
     (fnGet s 0).eqEnable = true ∧ eqEntries (fnGet s 0) ≤ (fnGet s 0).eqProducer - (fnGet s 0).eqConsumer ∧ dmaAllowed s 0 = true) ∧
    (let r := { ring 8192 with modCount := 64, modDelay := 5, unsignalled := 1 }
     let s := { up with now := 5000, rings := [(1, r)] }
     sget s.rings 1 = some r ∧ 0 < r.unsignalled ∧ r.oldestAt + r.modDelay * 1000 ≤ s.now ∧ dmaAllowed s (ownerOfRing s 1) = true ∧
      4999 < r.oldestAt + r.modDelay * 1000) := by
  decide +kernel

def recordX : ErrorRecord :=
  { kind := 0x30, severity := 2, stale := false, fn := 0, uid := 5, lastMark := 0, elapsed := 0, op := none, temperature := 0, count := 2,
    voltage := 0, detail := [] }

def chainX (store : Nat) : Chain :=
  { stage := 0, stages := [0, 1], store := store, candidates := 1, passages := 0, passageLimit := 0, genAdapter := 0xFFFF, query := [9],
    lead := [], tail := [], outputs := [(0, 0), (0, 0)], outLimit := 0, stop := none }

/-- A request whose first stage has ended with one candidate: index 0. -/
def handing (store : Nat) : Request :=
  { request with chain := some (chainX store), handoff := true, result := leBytes 4 0 ++ leBytes 4 0 }

/-- A token store of one document of one token, 77. -/
def storeShard : Shard :=
  { length := 20, source := 0, slot := 0, address := 0, digest := 0, verified := true, bytes := leBytes 8 1 ++ leBytes 8 (2 ^ 40) ++ leBytes 4 77 }
def tokenStore : LoadedObject := object .store 1 0 1 [{ generation 1 1 2 with shards := [storeShard] }]

def chained (store : Nat) : State :=
  { serving with
    graphs := [(0, graph 0 0), (1, graph 1 0)], lanes := [(0, lane 0), (1, lane 1)], objects := tokenStore :: loaded.objects
    accounts := [(0, account 0 4096 4)], requests := [(3, handing store)] }

def rankInput : Bytes := leBytes 4 1 ++ leBytes 4 2 ++ leBytes 4 9 ++ leBytes 4 77

def secondStage : Request :=
  { handing 0 with
    graph := 1, cls := 1, adapter := none, input := rankInput, handoff := false, result := [], ran := false,
    chain := some { chainX 0 with stage := 1, documents := [[77]] }, outputs := 0, length := 0, prefilled := 0, outAddr := 0, outLen := 0,
    outLimit := 0, stop := none, blocks := [], summary := {}, attention := [], carried := [], awaiting := [], state := .deferred }

def formed (s : State) (r : Request) (ch : Chain) (x : Bytes × List (List Nat)) : Bool :=
  match formInput s r ch with | .ok y => decide (y = x) | .error _ => false

/-- A page of two BF16 positions of one element is 64 + 128 bytes (R320): the V part starts in the middle, and what is read is what was written. -/
theorem test_pageInBytes :
    (let p := withHeader { node := 0, group := 0, tokens := 2, first := 0, generation := 1, k := [1, 2], v := [3, 0xFFFF] }
     (pageImage p).length = 192 ∧ slice (pageImage p) 64 6 = [1, 0, 2, 0, 0, 0] ∧ slice (pageImage p) 128 4 = [3, 0, 0xFF, 0xFF] ∧
      pagesRead [p] (pageImage p) = [p]) := by
  decide +kernel

theorem test_HeldRecordsHandOffsAndBlocks :
    (let c : RecordCount := ⟨0x30, 5, 2, 0, some recordX⟩; let s := { up with now := 100000000, counts := [c] }
     countOf s 0x30 5 = some c ∧ c.held = some recordX ∧ c.lastIssued + 100000000 ≤ hostTime s) ∧
    (let c : RecordCount := ⟨0x30, 5, 2, 0, some recordX⟩; let s := { up with now := 99999999, counts := [c] }
     countOf s 0x30 5 = some c ∧ hostTime s < c.lastIssued + 100000000) ∧
    (sget (chained 1).requests 3 = some (handing 1) ∧ (handing 1).chain = some (chainX 1) ∧ (handing 1).handoff = true ∧
      (handing 1).ended = false ∧ (match formInput (chained 1) (handing 1) (chainX 1) with | .error st => decide (st = .notFound) | .ok _ => false) = true) ∧
    (let s := chained 0
     sget s.requests 3 = some (handing 0) ∧ (handing 0).chain = some (chainX 0) ∧ (handing 0).handoff = true ∧ (handing 0).ended = false ∧
      (chainX 0).stages[(chainX 0).stage + 1]? = some 1 ∧ (sget s.graphs 1).map (·.settings) = some (settings 1) ∧ (settings 1).rowLength = 0 ∧
      formed s (handing 0) (chainX 0) (rankInput, [[77]]) = true ∧ handoffUsed s + rankInput.length ≤ 4294967296 ∧
      rankInputOk rankInput = true ∧ graphServes s 1 = true ∧ accountServes s 0 = true ∧
      (match (decideOpen { s with requests := sdel s.requests 3 } secondStage).2 with | .admitted _ => true | _ => false) = true) ∧
    (∀ loc ∈ [Location.leaving, .returning],
      let r := { request with blocks := [{}, { location := loc, dest := .hostSwap, bytes := 4096 }] }
      let s := { up with requests := [(3, r)], kv := { up.kv with swap := some (4096, 8192) } }
      dmaAllowed s 0 = true ∧ memReadBytes s.hostMem 4096 (blockImage { location := loc, dest := .hostSwap, bytes := 4096 }).length = [] ∧
      sget s.requests 3 = some r ∧ s.kv.newPool = none ∧ r.blocks[1]? = some { location := loc, dest := .hostSwap, bytes := 4096 } ∧
      ∀ x, r.blocks[0]? = some x → x.location ≠ loc) := by
  refine ⟨by decide +kernel, by decide +kernel, by decide +kernel, by decide +kernel, ?_⟩
  intro loc h
  refine ⟨rfl, rfl, rfl, rfl, rfl, ?_⟩
  intro x hx
  cases hx
  rcases List.mem_cons.mp h with rfl | h
  · decide
  · rcases List.mem_cons.mp h with rfl | h
    · decide
    · cases h

/-! ### Builds, plans and loads -/

theorem test_BuildsAndPlans :
    (let s := { serving with planner := { serving.planner with queued := [.graphs] } }
     canBuild s = true ∧ BuildCause.graphs ∈ s.planner.queued) ∧
    (let s := { serving with planner := { serving.planner with build := some { startedAt := 0, causes := [] } } }; s.planner.build ≠ none) ∧
    (let s := { serving with now := 60000000000 }
     sget s.lanes 0 = some (lane 0) ∧ sget s.graphs 0 = some (graph 0 0) ∧ canBuild s = true ∧ (graph 0 0).settings.replan ≠ 0xFFFF ∧
      (lane 0).switchedAt + (graph 0 0).settings.replan * 1000000000 ≤ hostTime s) ∧
    (let g := { graph 0 0 with settings := { settings 0 with replan := 0xFFFF } }; let s := { serving with graphs := [(0, g)] }
     sget s.graphs 0 = some g ∧ g.settings.replan = 0xFFFF) ∧
    (let b : Build := { startedAt := 0, causes := [.graphs] }; let s := { serving with planner := { serving.planner with build := some b } }
     let r : BuildResult := { lanes := [lanePlan 0] }
     s.planner.build = some b ∧ buildStands r b s = true ∧ changesNothing b (buildDecides r b s).new = true ∧
      buildStands { placements := [⟨false, lanePlan 0⟩] } b s = false) ∧
    (let b : Build := { startedAt := 0, causes := [.arrays] }; let s := { serving with planner := { serving.planner with build := some b } }
     let r : BuildResult := { lanes := [lanePlan 0] }
     s.planner.build = some b ∧ buildStands r b s = true ∧ changesNothing b (buildDecides r b s).new = false) ∧
    serving.planner.build = none ∧
    (let s := { serving with planner := { serving.planner with waiting := some (planX []) } }
     s.planner.waiting = some (planX []) ∧ planIsReady s (planX []) = true) ∧
    (let p := planX [{ array := 0, owner := .model, handle := 0, generation := 1 }]
     let s := { serving with planner := { serving.planner with waiting := some p } }; s.planner.waiting = some p ∧ planIsReady s p = false) := by
  decide +kernel

/-- A shard of one byte, 3. -/
def shardX (verified failed : Bool) : Shard :=
  { length := 1, source := 0, slot := 0, address := 0, digest := 0x084fed08b978af4d7d196a7446a86b58009e636b611db16211b65a9aadff29c5,
    verified := verified, failedOnce := failed, bytes := if verified then [3] else [] }

def genX (mode state : Nat) (x : Shard) : Generation := { generation 0 1 state with mode := mode, shards := [x] }

def withGen (g : Generation) : State := { up with objects := [object .model 0 0 1 [g]] }

/-- The object that holds a generation, and the state that holds the object. -/
def holds (g : Generation) (x : Shard) (i : Nat) : Bool :=
  let s := withGen g
  let o := object .model 0 0 1 [g]
  decide (s.boot.state = .running ∧ s.power.state ≠ .dormant ∧ objGet s .model 0 = some o ∧
    o.gens.find? (fun y => y.number = 1) = some g ∧ g.shards[i]? = some x)

theorem test_ShardsAreHashed :
    (∀ failed ∈ [false, true], let x := shardX false failed; let g := genX 0 1 x; let s := withGen g
      holds g x 0 = true ∧ x.verified = false ∧ ([3] : Bytes).length = x.length ∧ sha256 [3] = x.digest ∧
      shardFault s .model 0 g 0 [3] = none ∧ g.state = 1 ∧ x.failedOnce = failed ∧ sha256 [4] ≠ x.digest) ∧
    (∀ near ∈ [false, true], let x := { shardX true false with inMemoryTier := near }; let g := genX 0 2 x
      holds g x 0 = true ∧ g.mode ≠ 1 ∧ g.state ≠ 1 ∧ x.verified = true ∧ x.rehashed = false ∧ sha256 [3] = x.digest ∧ x.inMemoryTier = near ∧
      sha256 [4] ≠ x.digest ∧ g.shards.length = 1) ∧
    (let x := shardX true false; let g := { genX 0 2 x with shards := [{ x with rehashed := true }, x], rehashTransient := true }
      holds g x 1 = true ∧ g.mode ≠ 1 ∧ g.state ≠ 1 ∧ x.verified = true ∧ x.rehashed = false ∧
      g.shards.length = 2 ∧ (g.shards[0]?).map (·.rehashed) = some true) ∧
    (let x := shardX true false; let g := genX 1 2 x; holds g x 0 = true ∧ g.mode = 1) := by
  decide +kernel

/-! ### Conversion and correction -/

def one : F32 := 0x3F800000

/-- Layer 5: one array, number 8, of site 1. -/
def layer : LayerPlan := { node := 5, arrays := [(8, 0, 0)], outputs := 1, recordedMean := one, inputScale := one }

def key5 : LayerKey := { lane := 0, node := 5, seq := 3 }

/-- A graph of six nodes: node 5 takes tensor 1, BF16, and the weight of tensor 0, one BF16 weight of model 0. -/
def imageX : Bytes :=
  [(32, 4, 64), (36, 4, 2), (40, 4, 160), (44, 4, 6), (64 + 2, 1, 3), (64 + 3, 1, 4), (64 + 4, 4, 1), (64 + 8, 4, 1), (64 + 23, 1, 64),
    (112 + 2, 1, 3), (280, 2, 0), (286, 2, 1)].foldl (fun m e => patch m e.1 (leBytes e.2.1 e.2.2)) (List.replicate 304 0)

/-- A lane of layer 5 in its step 7, over a model whose golden weight 1.0 is at hand. -/
def layered (steps : List LayerStep) : State :=
  { inLaneStep with
    graphs := [(0, { graph 0 0 with image := imageX })]
    objects := [object .model 0 0 1 [{ generation 0 1 3 with shards :=
      [{ length := 2, source := 0, slot := 0, address := 0, digest := 0, verified := true, bytes := [0x80, 0x3F] }] }]]
    lanes := [(0, { lane 0 with plan := { lanePlan 0 with layers := [layer] }, step := some (stepOf [3] []), stepNo := 7, generation := [(.model, 0, 1)] })]
    layerSteps := steps }

def arrayStep : ArrayStep := { key := key5, array := 8, mode := .signed, phases := 4, gain := 0, scale := one, ints := [], outliers := 0, spares := false }

def plainStep : LayerStep := { key := key5, inputs := [one] }

/-- A site whose slices have been calibrated. -/
def readySite : Site := { starting := [] }

/-- Array 8, calibrated and in service for the model. -/
def served8 : OrArray :=
  { state := .serving, ownerKind := 1, owner := 0, generation := 1, calibrated := true, verified := true,
    active := some { entries := [], rounds := 1, temperature := 0, sigma := 1 } }

def atSite (x : Site) : State := { layered [plainStep] with sites := [(1, x)] }

theorem test_ArrayStepsAtASite :
    (let i : LayerInput := { lane := 0, node := 5, seq := 3, values := [one] }; let s := layered []
     key5 = { lane := i.lane, node := i.node, seq := i.seq, token := i.token } ∧ layerNow s i.lane.val i.node = some layer ∧
      (∃ e ∈ (onReplica layer (replicaAt layer 1)).arrays, e.1.val / 8 = 1) ∧ inStep s key5 = true ∧ s.boot.state = .running ∧
      s.boot.kioskHung = false ∧ stepGet s key5 = none) := by
  decide +kernel

theorem test_ArrayStepsAtASite_drive :
    let i : LayerInput := { lane := 0, node := 5, seq := 3, values := [one] }
    let s := { layered [] with sites := [(1, readySite)], arrays := [(8, served8)] }
    let t := openLayerStep s key5 (replicaAt layer 1) (onReplica layer (replicaAt layer 1)) (layerInput s key5 i.values)
    siteGet s 1 = readySite ∧ layerIsWide t 0 5 = false ∧ readySite.activity = .none ∧ readySite.diagnose = false ∧ readySite.starting = [] ∧
      readySite.step = none ∧
      (match stepGet t key5 with
       | some l => !l.wide && !l.done && (nextArray (siteGet t 1) 1 (onReplica layer (replicaAt layer 1)) l).isSome &&
           mayFire t 1 (stepPower layer.mode l.phases) true
       | none => false) = true := by
  decide +kernel

theorem test_ArrayStepsAtASite_diagnosis :
    ∀ k ∈ [0, 1439], let x : Site := { activity := .diagnosing true, tested := k }
      isDiagnosing x.activity = true ∧ (diagSweep x.readings x.tested).isSome = true := by
  decide +kernel

theorem test_ArrayStepsAtASite_phases :
    (let a := { arrayStep with driven := 1, driving := false, sweeping := true }; let x : Site := { step := some a }
     siteGet (atSite x) 1 = x ∧ x.step = some a ∧ a.driven < stepPhases a ∧ a.driven ≤ sweepsBegun a ∧ isHost x.activity = false ∧
      a.sweeping = true ∧ (List.replicate 544 (0 : Int)).length = 544) ∧
    (let a := { arrayStep with driving := false, armed := true }; let x : Site := { step := some a }
     siteGet (atSite x) 1 = x ∧ x.step = some a ∧ a.armed = true) := by
  decide +kernel

theorem test_ArrayStepsAtASite_ends :
    (∀ l ∈ ([[(1, 7, 1), (0, 6, 1)], [(0, 7, 1)]] : List (List (Nat × Nat × Nat))),
      let x : Site := { step := some arrayStep, guards := l }; let s := atSite x
      siteGet s 1 = x ∧ x.step = some arrayStep ∧ arrayStep.driving = true ∧ arrayStep.key.lane.val = 0 ∧ laneStepNo s 0 = 7 ∧
      x.guards.find? (fun e => decide (e.1 = 0 ∧ e.2.1 = 7)) = (if l.length = 1 then some (0, 7, 1) else none)) ∧
    (let a := { arrayStep with driving := false, sweeping := true }; let x : Site := { step := some a, nextStep := some arrayStep }; let s := atSite x
     x.step = some a ∧ a.driving = false ∧ x.nextStep = some arrayStep ∧ arrayStep.driving = true ∧
      x.guards.find? (fun e => decide (e.1 = arrayStep.key.lane.val ∧ e.2.1 = laneStepNo s arrayStep.key.lane.val)) = none) ∧
    (∀ late ∈ [false, true], let a := { arrayStep with driving := false, sweeps := List.replicate 8 [], expired := late }; let s := atSite { step := some a }
     (siteGet s 1).step = some a ∧ stepPhases a ≤ a.sweeps.length ∧ keyLayer s a.key = some layer ∧ stepGet s a.key = some plainStep ∧
      plainStep.wide = false ∧ plainStep.done = false ∧ a.expired = late ∧ (sweepSaturations a.sweeps).1 ≤ layer.slots - a.outliers) ∧
    (∀ halt ∈ [false, true], let x : Site := { activity := .host 0, control := 0x80000003, sweepsRun := 2, halting := halt }
     hostRuns x = true ∧ x.halting = halt) ∧
    (let x : Site := { activity := .host 0, control := 0x80000003, sweepsRun := 3 }
     x.activity = .host 0 ∧ fld x.control.toNat 31 30 = 2 ∧ fld x.control.toNat 15 0 ≠ 0 ∧ fld x.control.toNat 15 0 ≤ x.sweepsRun) := by
  decide +kernel

/-- A layer step that waits for the weight row of its one outlier, channel 0: its input is past the threshold. -/
def bigInput : LayerStep := { key := key5, inputs := [0x47800000] }

def wideStep : LayerStep := { key := key5, inputs := [one], wide := true }

/-- A layer step whose one partial, of value 1.0, has arrived. -/
def whole : LayerStep := { key := key5, inputs := [one], partials := [(0, 0, [(one, 0)])] }

def tile : Tile := { key := key5, first := 0, format := 1, sums := [(one, 0)] }

theorem test_LayerStepsReachTheirOutputs :
    (let s := layered [bigInput]
     (stepGet s key5).bind (awaitedRow s 1 0) = some (0, 0) ∧ keyLayer s key5 = some layer ∧
      (outlierRow s key5 layer 0 0 0).isSome = true ∧ stepGet s key5 = some bigInput) ∧
    (let s := layered [plainStep]; (stepGet s key5).bind (awaitedRow s 1 0) = none) ∧
    (let x : LayerStep := { key := key5, inputs := [one], results := [(8, [[128]])] }; let s := layered [x]
     keyLayer s key5 = some layer ∧ stepGet s key5 = some x ∧ x.wide = false ∧ x.done = false ∧ 0 < blockCount layer x.inputs ∧
      x.partials = [] ∧ combiningUnit layer 0 = some (0 : UnitNo).val ∧ (blockPartial s key5 layer x 0 0).isSome = true) ∧
    (let s := layered [whole]
     keyLayer s key5 = some layer ∧ stepGet s key5 = some whole ∧ whole.wide = false ∧ whole.done = false ∧ layerComplete layer whole = true ∧
      sget s.requests 3 = some request ∧ whole.stale = false ∧ inPrefill s 0 = false ∧
      jumps layer (meanOf request layer) (rms32 (layerOutputs s layer whole)) = false) ∧
    (let r := { request with means := [(5, 0x42C80000)] }; let s := { layered [whole] with requests := [(3, r)] }
     keyLayer s key5 = some layer ∧ sget s.requests 3 = some r ∧ whole.stale = false ∧
      jumps layer (meanOf r layer) (rms32 (layerOutputs s layer whole)) = true) ∧
    (let s := layered [wideStep]
     5 = layerNumber 5 0 ∧ layerNow s 0 5 = some layer ∧ (laneGolden s 0 5).isSome = true ∧ awaitingWide s 0 5 = [wideStep]) ∧
    (∀ held ∈ [[], [tile]], let s := { layered [] with quartz := [(0, { draining := some tile, held := held })] }
      (quartzGet s 0).draining = some tile ∧ (quartzGet s 0).held = held) ∧
    (quartzGet (layered []) 0).draining = none := by
  decide +kernel

/-- Node 5's one golden weight is 1.0: the wide output of an input 1.0 is 1.0 (R177). -/
theorem test_wide_output : (match exec (.widePathComplete 0 5 0) (layered [wideStep]) with
    | .next u => decide ((stepGet u key5).map (·.outputs) = some [one])
    | _ => false) = true := by decide +kernel

def check5 : ArrayCheck := { key := key5, values := [[2 ^ 60]] }

/-- Array 8 awaits a check that fails; `was`: of a step whose check has failed already. -/
def checked5 (was : Option (LayerKey × Nat)) : State :=
  { layered [] with arrays := [(8, { state := .serving, checking := some check5, checkFailed := was, ownerKind := 1, owner := 0, generation := 1,
                                     active := some { entries := [], rounds := 1, temperature := 0, sigma := 1 } })] }

/-- A pack of one pattern (R526). -/
def packX : ProbePack := { number := 1, vendor := true, bytes := patch (List.replicate 704 0) 4 [1] }

theorem test_ChecksTakeArraysOut :
    (∀ was ∈ [none, some (key5, 0)], let s := checked5 was
     (arrGet s 8).checking = some check5 ∧ keyLayer s check5.key = some layer ∧ isProbeSlot s 8 = false ∧
      (match arrayGolden s layer check5.key.lane.val 8 with
       | some golden => (judgeCheck layer (arrGet s 8) 8 check5 golden).2.2
       | none => false) = true ∧ (arrGet s 8).checkFailed = was) ∧
    (∀ busy ∈ [false, true],
      let s := { checked5 none with quartz := [(0, { checks := 15 })], probes := [packX],
                                    sites := [(1, { activity := if busy then .programming 8 else .none })] }
      isProbeSlot s 8 = true ∧ (match nextPattern s (arrGet s 8) with
        | some (q, packs) => decide (probeMayDrive s 1 q = !busy) && packs.any (fun y => y.number = q.pack)
        | none => false) = true) ∧
    (arrGet up 8).checking = none ∧ up.boot.state = .running ∧ State.reset.boot.state ≠ .running := by
  decide +kernel

/-! ### Calibration, slices, programming, scrubs -/

def calArray : OrArray := { state := .programmed, levels := [[0]], due := true, ownerKind := 1, owner := 0, generation := 1 }

/-- An array at calibration round 1, at time `now`. -/
def calibrating (retry : Option Nat) (now : Nat) : State :=
  { up with now := now, arrays := [(8, { calArray with state := .calibrating, retry := retry })], sites := [(1, { activity := .calibrating 8 1 0 })] }

def fitOf (codes : List (List Int)) : List (Nat × Int) := fitArray (arrGet (calibrating none 0) 8) 0 codes

theorem test_CalibrationConvergesOrFails :
    ((arrGet up 8).active = none) ∧
    (let s := { up with now := 7999999999, arrays := [(8, { calArray with active := some { entries := [], rounds := 1, temperature := 0, sigma := 1 } })] }
     (arrGet s 8).active ≠ none ∧ hostTime s < (arrGet s 8).activatedAt + intervalMs s 8 * 1000000) ∧
    (let s := { loaded with arrays := [(8, calArray)], sites := [(1, readySite)], jobs := [⟨{ fn := 0, queue := 1, ring := 1, opcode := 0x0503, tag := 0 }, .arrayCal 8 false⟩] }
     s.boot.state = .running ∧ s.power.state ≠ .dormant ∧ s.planner.waiting = none ∧
      (∀ i < 8, wantsProgram (arrGet s (8 * 1 + i)) = false) ∧ siteFree s 1 = true ∧ mayWork s 1 (.calibrating 0 0 0) = true ∧
      unitActive s 0 isCalibrating = false ∧ nextDue s (fun a => !holdArray s a) 1 = some 8) ∧
    State.reset.boot.state ≠ .running ∧
    (let s := calibrating none 0; let fit := fitOf []
     calibrationAt s 1 = some (8, 1, 0) ∧ arrayGain s 8 = 0 ∧ converged (arrGet s 8) 0 fit (fitSigma (arrGet s 8) 0 fit []) [] = true ∧
      inService s 8 = false) ∧
    (let s := calibrating none 0; let fit := fitOf []
     converged (arrGet s 8) 0 fit (fitSigma (arrGet s 8) 0 fit []) [(sweepCodes 0 (List.replicate 544 (256 * 100))).map (·.1)] = false ∧
      (arrGet s 8).retry = none) ∧
    ((arrGet (calibrating (some 1) 0) 8).retry ≠ none ∧ calibrationAt (calibrating (some 1) 0) 1 = some (8, 1, 0)) ∧
    (let s := calibrating (some 1) 0; let fit := fitOf []
     converged (arrGet s 8) 0 fit (fitSigma (arrGet s 8) 0 fit []) [(sweepCodes 0 (List.replicate 544 (256 * 100))).map (·.1)] = false ∧
      arrayGain s 8 = 0 ∧ inService s 8 = false) ∧
    (0 + 237500 ≤ (calibrating none 237500).now ∧ (calibrating none 237499).now < 0 + 237500) := by
  decide +kernel

theorem test_SlicesAndTheSpare :
    (∀ p ∈ ([0, 14, 15, 16, 17] : List Nat), let x := { readySite with spare := p }; let s := { up with sites := [(1, x)] }
      siteGet s 1 = x ∧ s.boot.state = .running ∧ s.power.state ≠ .dormant ∧ x.fixed = false ∧ x.starting = [] ∧ siteFires x = false ∧ x.spare = p) ∧
    siteFires { readySite with activity := .calibrating 8 1 0 } = true ∧ ({} : Site).starting ≠ [] ∧
    (sliceCalibrates { starting := [4] } 4 = true ∧ [4].filter (fun z => z ≠ 4) = ([] : List Nat) ∧ ({ starting := [4] } : Site).activity = .none ∧
      sliceCalibrates {} 4 = true ∧ ({} : Site).starting.filter (fun z => z ≠ 4) ≠ []) ∧
    trimReached (List.replicate 4 (250, 500)) = true ∧ trimReached [(0, 0), (0, 0), (251, 0), (0, 0)] = false ∧ trimReached [] = false ∧
    (let x := { readySite with spare := 3 }
     sliceCalibrates x 3 = true ∧ 3 ∉ x.failedOnce ∧ sliceCalibrates x 4 = false) ∧
    (let x := { readySite with spare := 3, failedOnce := [3] }
     sliceCalibrates x 3 = true ∧ 3 ∈ x.failedOnce ∧ x.fixed = false ∧ x.spareFailed = false ∧ { x with spareFailed := true }.spareFailed = true) ∧
    (let x := { readySite with spare := 17, failedOnce := [16] }; sliceCalibrates x 16 = true ∧ 16 ∈ x.failedOnce) ∧
    (let x : Site := { spare := 2, failedOnce := [15], fixed := true, failedSlice := 2 }
     sliceCalibrates x 15 = true ∧ 15 ∈ x.failedOnce ∧ x.fixed = true ∧ x.failedSlice ≠ 15) := by
  decide +kernel

/-- Array 8 being programmed for the model, to be erased at the end or not. -/
def programming8 (erase : Bool) : State :=
  { loaded with
    arrays := [(8, { state := .programming, program := some { array := 8, owner := .model, handle := 0, generation := 1 }, eraseAfter := erase })]
    sites := [(1, { readySite with activity := .programming 8 })] }

theorem test_ProgrammingAndDiagnosis :
    (∀ erase ∈ [false, true], let p : Programming := { array := 8, owner := .model, handle := 0, generation := 1 }; let s := programming8 erase
      programAt s 8 = some p ∧ programHeld s (arrGet s 8) p = true ∧ s.planner.waiting = none ∧ (arrGet s 8).eraseAfter = erase ∧
      (arrGet s 8).state = .programming) ∧
    (let s := programming8 false
     programHeld up {} { array := 8, owner := .model, handle := 0, generation := 1 } = false ∧
      cellError (programTarget (arrGet s 8)) { pair := 0, row := 0, positive := true, level := 201 } = 201 ∧
      passes (programTarget (arrGet s 8)) { pair := 0, row := 0, positive := true, level := 200 } = true ∧
      passes (programTarget (arrGet s 8)) { pair := 0, row := 0, positive := true, level := 201 } = false ∧
      64 < ((List.replicate 65 ({ pair := 0, row := 0, positive := true, level := 201 } : CellReading)).filter
        (fun c => decide (200 < cellError (programTarget (arrGet s 8)) c))).length) ∧
    programAt up 8 = none ∧
    (∀ d ∈ [({ zero := [(0, 3, 10000)] }, 0), ({ zero := (List.range 17).map (fun q => (0, q, 10000)) }, 1),
        ({ ramp := [(5, 0, 100)], swapRamp := [(5, 0, 100)] }, 2), ({ arrays := [(3, 0, 512, 127)] }, 3),
        ({ arrays := (List.range 8).map (fun t => (Fin.ofNat 8 t, 0, 512, 127)) }, 4), ((({} : DiagReadings)), 5)],
      let s := { up with sites := [(1, { readySite with activity := .diagnosing true })], arrays := (List.range 8).map (fun i => (8 + i, { state := .quarantined })) }
      (siteGet s 1).activity = .diagnosing true ∧ verdictOf s 1 (joinReadings (siteGet s 1).readings d.1) = d.2) ∧
    ((failedPositions { zero := [(0, 3, 10000)] }).head? = some 3 ∧ readySite.fixed = false ∧ readySite.spareFailed = false ∧
      failedPairs { ramp := [(5, 0, 100)], swapRamp := [(5, 0, 100)] } = [5] ∧ ({} : OrArray).wearLimited = false ∧
      (∀ e ∈ ({} : OrArray).spares ++ ({} : OrArray).sparesPending, e.1 ≠ 5) ∧ (freeSpare {}).isSome = true) ∧
    (∀ b, (siteGet up 1).activity ≠ .diagnosing b) ∧
    (let s := { up with sites := [(1, { readySite with activity := .host 10000000000 })], now := 10000000000 }
     (siteGet s 1).activity = .host 10000000000 ∧ (siteGet s 1).diagnose = false ∧ (siteGet s 1).starting = [] ∧ 10000000000 ≤ hostTime s ∧
      hostTime { s with now := 9999999999 } < 10000000000) := by
  decide +kernel

/-- Array 8 holds generation 1 of a model whose golden copy is at hand, and no lane has a part at its site. -/
def scrubbed (x : OrArray) : State :=
  { withGen (genX 0 2 (shardX true false)) with
    sites := [(1, readySite)]
    arrays := [(8, { x with state := .programmed, ownerKind := ownerCode .model, owner := 0, generation := 1, levels := [[0]] })] }

/-- Made from that copy. -/
def made : OrArray := { source := (generation 0 1 2).digest }

def scrubCells : List CellReading := [{ pair := 0, row := 0, positive := true, level := 300000 }]

theorem test_ScrubsAndRepairAdapters :
    (let s := scrubbed made; let x := arrGet s 8
     mayScrub s 8 = true ∧ x.suspects = [] ∧ x.stuck.length ≤ 64 ∧ rmsHigh x scrubCells = true ∧ x.unproven = false ∧ x.wearLimited = false ∧
      mayProgram s 8 = true ∧
      (match sameContents s 8 with
       | some p => (contentFor s p).isSome && decide (goldenLevels s 8 p = some x.levels)
       | none => false) = true) ∧
    (∀ worn ∈ [false, true], let s := scrubbed { made with unproven := true, wearLimited := worn }; let x := arrGet s 8
      mayScrub s 8 = true ∧ x.unproven = true ∧ x.wearLimited = worn ∧ rmsHigh x scrubCells = true ∧ mayProgram s 8 = !worn ∧
      (match sameContents s 8 with
       | some p => (contentFor s p).isSome && decide (goldenLevels s 8 p = some x.levels)
       | none => false) = true) ∧
    (let s := scrubbed { unproven := true }
     mayScrub s 8 = true ∧ (arrGet s 8).unproven = true ∧ (arrGet s 8).wearLimited = false ∧
      (match sameContents s 8 with | some p => decide (goldenLevels s 8 p = none) | none => false) = true) ∧
    mayScrub up 8 = false ∧
    (let e : RepairAdapter := { lane := 0, node := 5, replica := 1, arrays := [8], startedAt := 0 }
     let s := { up with repairAdapters := [e], now := 2000000000 }
     e.trained = none ∧ s.repairAdapters.filter (fun e => decide (e.lane = 0) && decide (e.node = 5) && e.trained.isNone &&
        decide (e.startedAt + 2000000000 ≤ hostTime s)) = [e] ∧
      adapterGood s e { node := 5, replica := 1, inputs := [[one]], outputs := [[one]], residual := 0 } = true ∧
      adapterGood s e { node := 5, replica := 1, inputs := [], outputs := [], residual := 0 } = false) ∧
    (let e : RepairAdapter := { lane := 0, node := 5, arrays := [8], startedAt := 1 }
     let s := { up with repairAdapters := [e], now := 2000000000 }; ∀ e ∈ s.repairAdapters, hostTime s < e.startedAt + 2000000000) := by
  decide +kernel

/-! ### Pergola, memory, temperature -/

def coreX : CoreId := { quarter := 1, core := .opal 2 }

def window (direction : Fin 3) : Window :=
  { open_ := true, direction := direction, base := 4, lines := 2, tag := 7, epoch := 1, guard := 2000, openings := 1, other := some 1 }

def remote (tag : BitVec 16) : Remote := { owner := coreX, source := 0, line := 5, tag := tag }

def windows (l : List Window) : State :=
  { serving with cores := [(coreKey coreX, { windows := l ++ List.replicate 6 {}, tile := [(5, List.replicate 64 1)] })] }

def windowed (direction : Fin 3) : State := windows [window direction, {}]

/-- The state as a command at the core finds it. -/
def atCore (s : State) : State := reopenWindows s (coreKey coreX)

theorem test_WindowsAndLinks :
    (∀ d ∈ ([0, 1, 2] : List (Fin 3)), (slotsOf (atCore (windowed d)) (remote 7)).find? (fun e => e.2.open_ && decide (e.2.tag = (remote 7).tag)) =
        some (0, window d) ∧ (remote 7).vc2 = false) ∧
    (creditsOf (coreGet (windowed 0) (coreKey coreX)) 0 ≠ 0) ∧
    (let s := { serving with cores := [(coreKey coreX, { credits := [(0, 0)] })] }; creditsOf (coreGet s (coreKey coreX)) 0 = 0) ∧
    (sget (coreGet (windowed 1) (coreKey coreX)).tile (remote 7).line).isSome = true ∧ slotsOf (atCore up) (remote 7) = [] ∧
    ((slotsOf (atCore (windowed 0)) (remote 8)).find? (fun e => e.2.open_ && decide (e.2.tag = (remote 8).tag)) = none ∧
      slotsOf (atCore (windowed 0)) (remote 8) = [(0, window 0)]) ∧
    (window 0 = slotGet (atCore (windowed 0)) (coreKey coreX) 0 ∧ (window 0).open_ = true ∧ (window 0).direction ≠ 1 ∧ (window 1).direction ≠ 0) ∧
    (let w := { window 1 with vc2 := true }; let s := windows [w, {}]
     w = slotGet (atCore s) (coreKey coreX) 0 ∧ w.open_ = true ∧ w.vc2 = true) ∧
    windowDone { window 1 with completions := 1, marks := [9] } = true ∧
    windowDone { window 1 with completions := 1, marks := [9], readers := [9, 10] } = false := by
  decide +kernel

theorem test_WindowsAndLinks_guards :
    (let s := { windowed 0 with now := 1900 }
     95 * (window 0).guard ≤ 100 * (s.now - (window 0).openedAt) ∧ 100 * (1899 - (window 0).openedAt) < 95 * (window 0).guard ∧
      window 0 = slotGet (atCore s) (coreKey coreX) 0) ∧
    (let w := { window 0 with open_ := false, reopens := some 100, spans := [50, 60] }; let s := { windows [w, {}] with now := 100 }
     w = slotGet s (coreKey coreX) 0 ∧ w.reopens = some 100 ∧ 100 ≤ s.now ∧ w.spans = [50, 60] ∧ w.vc2 = false ∧ 0 < w.openings) ∧
    (slotGet (atCore (windowed 0)) (coreKey coreX) 1).open_ = false ∧
    (let k := (3 * 128 + 127) * 8 + 7; let s := { up with reliability := { up.reliability with linkFails := [(k, 2)] } }
     s.reliability.linkFails.find? (fun e => e.1 = k) = some (k, 2) ∧ s.boot.state = .running) := by
  decide +kernel

def hbm : HbmLoc := { quarter := 1, stack := 2, pseudo := 255, address := 64, row := 9, spareRows := 1 }

def sram (transient : Bool) (held : LineHeld) : SramErr := { bank := .pavilion 1 2, line := 3, transient := transient, held := held }

theorem test_MemoryErrorsAndLostUnits :
    ((loggedBy (pseudoKey hbm * 68 + 67) up.reliability.symbolCorrections).length < 1000) ∧
    (let s := { up with reliability := { up.reliability with rowCorrections := [(rowKey hbm, List.replicate 15 0)] } }
     15 ≤ ((loggedBy (rowKey hbm) s.reliability.rowCorrections).filter (fun t => decide (hostTime s ≤ t + 86400000000000))).length ∧
      hbm.spareRows ≠ 0) ∧
    up.boot.state = .running ∧
    ((sram true .unused).bank ∉ up.reliability.retiredBanks ∧ (sram true .unused).transient = true) ∧
    (let s := { up with reliability := { up.reliability with remaps := List.replicate 3 (.pavilion 1 2, 0) } }
     (sram false .unused).bank ∉ s.reliability.retiredBanks ∧ (s.reliability.remaps.filter (fun m => m.1 = (sram false .unused).bank)).length < 4) ∧
    (let s := { up with reliability := { up.reliability with remaps := List.replicate 4 (.pavilion 1 2, 0) } }
     (sram false .unused).bank ∉ s.reliability.retiredBanks ∧ 4 ≤ (s.reliability.remaps.filter (fun m => m.1 = (sram false .unused).bank)).length ∧
      (sram false .unused).bank = .pavilion 1 2) ∧
    (let s := { up with reliability := { up.reliability with retiredBanks := [.pavilion 1 2] } }; (sram false .unused).bank ∈ s.reliability.retiredBanks) ∧
    ((1, 2) ∉ up.planner.lostStacks ∧ 1 ∉ up.planner.lostQuarters) ∧
    (let s := { up with planner := { up.planner with lostStacks := [(1, 2)], lostQuarters := [1] } }
     (1, 2) ∈ s.planner.lostStacks ∧ 1 ∈ s.planner.lostQuarters) := by
  decide +kernel

def heat (s : State) (t : Int) : State := recomputeDue s ((numbered ((List.replicate 18 (Reading.temp t)).take 18)).foldl sampleChannel s)

def throttling (t : Int) (level : Nat) (last : Nat) : State :=
  { up with
    now := 10000000
    thermal := { up.thermal with channels := List.replicate 18 { last := .temp t }, inThrottle := true, thermalLevel := level, lastRiseAt := last } }

theorem test_TemperatureAndOutputLevel :
    (up.lodge.alive = true ∧ (∀ v ∈ ([800, 895] : List Int), (heat up v).thermal.shutdown > moduleTemp (heat up v).thermal ∧
      (heat up v).thermal.rearm ≤ moduleTemp (heat up v).thermal) ∧ waitsForMain.power.railsOn = false) ∧
    (let s := { up with thermal := { up.thermal with rearm := 700 } }
     (heat s 760).power.railsOn = true ∧ (heat s 760).thermal.inWarning = false ∧ (heat s 760).thermal.warning ≤ moduleTemp (heat s 760).thermal ∧
      moduleTemp (heat s 760).thermal < (heat s 760).thermal.throttle ∧ (heat s 760).thermal.rearm ≤ moduleTemp (heat s 760).thermal ∧
      (heat s 760).thermal.shutdown > moduleTemp (heat s 760).thermal) ∧
    ((heat up 896).thermal.armed = true ∧ (heat up 896).thermal.shutdown ≤ moduleTemp (heat up 896).thermal ∧
      (heat up 896).thermal.rearm ≤ moduleTemp (heat up 896).thermal ∧ up.power.railsOn = true) ∧
    ((heat up 820).thermal.shutdown > moduleTemp (heat up 820).thermal ∧ (heat up 820).thermal.rearm ≤ moduleTemp (heat up 820).thermal ∧
      (heat up 820).thermal.inThrottle = false ∧ (heat up 820).thermal.throttle ≤ moduleTemp (heat up 820).thermal ∧
      (let s := { up with thermal := { up.thermal with inWarning := true } }
       (heat s 820).thermal.inWarning = true ∧ (heat s 820).thermal.warningClear ≤ moduleTemp (heat s 820).thermal)) ∧
    (let s := throttling 850 100 0
     s.thermal.inThrottle = true ∧ throttleValue s.thermal < s.thermal.thermalLevel ∧ throttleValue s.thermal < 100) ∧
    (let s := throttling 810 25 0
     s.thermal.thermalLevel < throttleValue s.thermal ∧ s.thermal.lastRiseAt + 10000000 ≤ s.now ∧ s.thermal.thermalLevel < 99) ∧
    (let s := throttling 700 100 0
     s.thermal.thermalLevel = 100 ∧ moduleTemp s.thermal < s.thermal.throttleClear ∧ throttleValue s.thermal = 100) ∧
    (let s := { up with thermal := { up.thermal with powerLevel := 99 } }
     s.lodge.powerLimit < 2401 ∧ s.thermal.powerLevel ≠ 100 ∧ up.thermal.powerLevel = 100 ∧ 2299 + 100 < s.lodge.powerLimit ∧ 2600 ≤ 2600) ∧
    (outputLevel (throttling 850 60 0).thermal ≠ (throttling 850 60 0).thermal.appliedLevel ∧ outputLevel up.thermal = up.thermal.appliedLevel) ∧
    (let s := { waitsForMain with power := { waitsForMain.power with offReason := 2 } }
     s.lodge.alive = true ∧ s.power.state = .standby ∧ s.power.offReason = 2 ∧ s.thermal.holdOff = false ∧ moduleTemp s.thermal < s.thermal.rearm) ∧
    (let s := { up with thermal := { up.thermal with holdOff := true } }; s.thermal.holdOff = true) ∧
    coolantBad (.temp 320) (.temp 480) = false ∧ coolantBad (.temp 321) (.temp 321) = true ∧ coolantBad (.temp 320) (.temp 481) = true ∧
    up.thermal.coolantRecordAt = none := by
  decide +kernel

/-! ### The pair and the fabric -/

theorem leNat_leBytes (n v : Nat) : leNat (leBytes n v) = v % 256 ^ n := by
  induction n generalizing v with
  | zero => simp [leBytes, leNat, Nat.mod_one]
  | succ k ih =>
    simp only [leBytes, leNat, ih, BitVec.toNat_ofNat]
    rw [show 256 ^ (k + 1) = 256 * 256 ^ k by rw [Nat.pow_succ, Nat.mul_comm], Nat.mod_mul]

/-- A flit whose last four bytes are the check of the rest passes (R475). -/
theorem flitOk_seal (b : Bytes) (h : b.length = 252) : flitOk (b ++ leBytes 4 (crc32c b).toNat) = true := by
  have hl : leAt (b ++ leBytes 4 (crc32c b).toNat) 252 4 = (crc32c b).toNat := by
    unfold leAt slice
    rw [List.drop_append_of_le_length (by omega), List.drop_of_length_le (by omega), List.nil_append, List.take_of_length_le (by simp [leBytes_length]),
      leNat_leBytes, Nat.mod_eq_of_lt (by have := (crc32c b).isLt; omega)]
  unfold flitOk
  rw [hl, List.take_append_of_le_length (by omega), List.take_of_length_le (by omega)]
  simp [h, leBytes_length]

theorem flitBytes_ok (kind vc seq ack : Nat) (credits : List Nat) (payload : Bytes) : flitOk (flitBytes kind vc seq ack credits payload) = true := by
  unfold flitBytes
  refine flitOk_seal _ ?_
  simp [leBytes_length, padTo, List.range_succ]
  omega

theorem flitBytes_length (kind vc seq ack : Nat) (credits : List Nat) (payload : Bytes) :
    (flitBytes kind vc seq ack credits payload).length = 256 := by
  have h := flitBytes_ok kind vc seq ack credits payload
  unfold flitOk at h
  simp only [Bool.and_eq_true, decide_eq_true_eq] at h
  exact h.1

theorem datagramFlits_one (hd f : Bytes) (h1 : hd.length = 16) (h2 : f.length = 256) : datagramFlits (hd ++ f) = [f] := by
  unfold datagramFlits slice
  simp [h1, h2, List.range_succ, List.take_of_length_le]

/-- A datagram with one flit of a known kind is well formed (R479). -/
theorem datagram_one (kind seq ack : Nat) (f : Bytes) (hk : kind < 256) (h2 : f.length = 256) (hf : flitOk f = true) :
    datagramForm (datagramBytes kind seq ack [f]) = true ∧ leAt (datagramBytes kind seq ack [f]) 1 1 = kind ∧
    leAt (datagramBytes kind seq ack [f]) 2 2 = 1 := by
  have e : datagramBytes kind seq ack [f]
      = (leBytes 1 1 ++ leBytes 1 kind ++ leBytes 2 1 ++ leBytes 4 seq ++ leBytes 4 ack ++ leBytes 4 0) ++ f := by
    simp [datagramBytes]
  have hl : ∀ off n, off + n ≤ 16 → leAt (datagramBytes kind seq ack [f]) off n
      = leAt (leBytes 1 1 ++ leBytes 1 kind ++ leBytes 2 1 ++ leBytes 4 seq ++ leBytes 4 ack ++ leBytes 4 0) off n := fun off n h => by
    rw [e, leAt_left _ _ _ _ (by simp [leBytes_length]; omega)]
  unfold datagramForm
  rw [hl 1 1 (by omega), hl 2 2 (by omega), hl 0 1 (by omega), hl 12 4 (by omega), e, datagramFlits_one _ _ (by simp [leBytes_length]) h2]
  refine ⟨by simp [hf, h2, leBytes, leAt, slice, leNat], ?_, by simp [leBytes, leAt, slice, leNat]⟩
  simp [leBytes, leAt, slice, leNat]; omega

theorem datagramOk_one (seq ack : Nat) (f : Bytes) (h2 : f.length = 256) (hf : flitOk f = true) :
    datagramOk (datagramBytes 2 seq ack [f]) = true := by
  obtain ⟨a, b, c⟩ := datagram_one 2 seq ack f (by omega) h2 hf
  simp [datagramOk, a, b, c]

theorem refusalOk_one (seq ack : Nat) (f : Bytes) (h2 : f.length = 256) (hf : flitOk f = true) :
    refusalOk (datagramBytes 5 seq ack [f]) = true := by
  obtain ⟨a, b, c⟩ := datagram_one 5 seq ack f (by omega) h2 hf
  simp [refusalOk, a, b, c]

def mirroredX : Request := { request with mirrored := true }

def paired : State := { up with pair := { configured := true, phase := .paired, okIn := true }, requests := [(3, mirroredX)] }

theorem test_PairEvents :
    (let s := { paired with ports := { mode := 1, state := 2 } :: up.ports.drop 1 }
     s.pair.configured = true ∧ (portGet s 0).mode = 1 ∧ portUp (portGet s 0) = true ∧ s.ports.length = 16 ∧
      0 < lgetD (portGet s 0).credits 1 0 ∧ (portGet s 0).retry.length < 1024) ∧
    up.pair.configured = false ∧
    (let s := { paired with now := 1000000 }; s.pair.phase = .paired ∧ heartbeatsSilent s = true ∧ s.pair.okIn = true) ∧
    heartbeatsSilent { paired with ports := List.replicate 16 { mode := 1, state := 2, lastHeartbeatIn := 0 } } = false ∧
    (let s := { paired with now := 1000000, pair := { paired.pair with okIn := false } }
     s.pair.phase = .paired ∧ heartbeatsSilent s = true ∧ s.pair.okIn = false) ∧
    (let s := { paired with pair := { paired.pair with phase := .partitioned } }; s.pair.okIn = true ∧ s.pair.phase = .partitioned) ∧
    (up.pair.phase ≠ .paired ∧ sget paired.requests 3 = some mirroredX ∧ mirroredX.mirrored = true) ∧
    (let s := { paired with requests := [(3, request)] }
     s.pair.phase = .paired ∧ sget s.requests 3 = some request ∧ request.mirrored = false ∧ sget s.requests 4 = none) ∧
    (let s := { paired with pair := { paired.pair with unacked := [63] } }; 63 ∈ s.pair.unacked ∧ 62 ∉ s.pair.unacked) ∧
    (let s := { up with pair := { phase := .establishing }, now := 60000000000,
                        jobs := [⟨{ fn := 0, queue := 1, ring := 1, opcode := 0x0802, tag := 0 }, .pair 0⟩] }
     s.pair.phase = .establishing ∧ pairJob s = true ∧ s.pair.startedAt + 60000000000 ≤ hostTime s ∧ s.pair.partner = none ∧
      hostTime { s with now := 59999999999 } < s.pair.startedAt + 60000000000) := by
  decide +kernel

def withPort (p : Port) : State := { up with ports := up.ports.set 15 p }

def flit : Bytes := flitBytes 1 1 5 4 [] []

/-- A datagram of kind 2 with one flit. -/
def gram : Bytes := datagramBytes 2 7 3 [dataFlit []]

def unackedX (attempts : Nat) : Unacked := { destination := 9, sequence := 3, payload := [], sentAt := 0, attempts := attempts }

/-- A block on its way to the peer of port 15. -/
def leavingX : Block := { location := .leaving, dest := .peer, port := 15, bytes := 4096 }

/-- A refusal of datagram 3, the seventh of its sender. -/
def refusalX : Bytes := datagramBytes 5 7 0 [dataFlit (refusalDescriptor 3 1)]

/-- No peer takes the block that was refused, and the swap area is empty (the refusal's premise). -/
theorem leavingX_goesToSwap (t : State) (hr : t.requests = [(3, { request with blocks := [leavingX] })]) (hp : t.kv.peers = [])
    (hs : t.kv.swap = some (0, 1048576)) : copyDestination t [leavingX.bytes] = some (.hostSwap, 0, [0]) := by
  have e : destPlaces t .hostSwap 0 [leavingX.bytes] = some [0] := by
    simp only [destPlaces, heldAt, destLimit, hr, hs]
    decide +kernel
  simp [copyDestination, hp, hs, e]

theorem test_FabricEvents :
    (flitOk flit = true ∧ datagramOk gram = true ∧ refusalOk refusalX = true) ∧
    ((let p : Port := { mode := 1, state := 1 }; let s := withPort p
      s.ports[15]? = some p ∧ p.state = 1 ∧ p.mode ≠ 2 ∧ s.pair.partner = none ∧ (1 : Fin 5) ≠ 0) ∧
    (let p : Port := { mode := 2, state := 1 }; (withPort p).ports[15]? = some p ∧ p.mode = 2 ∧ p.state = 1) ∧
    (let p : Port := { mode := 1, state := 3, lanes := 2 }; (withPort p).ports[15]? = some p ∧ portUp p = true ∧ p.mode = 1 ∧ 2 ≤ p.lanes) ∧
    (let p : Port := { mode := 1, state := 3, lanes := 1 }; (withPort p).ports[15]? = some p ∧ portUp p = true ∧ p.mode = 1 ∧ p.lanes < 2) ∧
    (let p : Port := { mode := 2, state := 2, lanes := 4 }; (withPort p).ports[15]? = some p ∧ portUp p = true ∧ p.mode = 2) ∧
    (let p : Port := { mode := 1, state := 1, retraining := true }
     (withPort p).ports[15]? = some p ∧ p.state = 1 ∧ p.retraining = true ∧ portUp p = false ∧ ({} : Port).retraining = false) ∧
    (let p : Port := { mode := 1, state := 2, rxNext := 5, retry := [(3, []), (4, []), (5, [])] }
     (withPort p).ports[15]? = some p ∧ portUp p = true ∧ p.mode = 1 ∧ leAt flit 0 1 / 4 = 1 ∧ leAt flit 1 3 = p.rxNext ∧
      leAt flit 4 3 = 4 ∧ flitOk [] = false ∧ p.failCount = 0) ∧
    (let p : Port := { mode := 1, state := 2, failSeq := 5, failCount := 7 }
     (withPort p).ports[15]? = some p ∧ portUp p = true ∧ p.failSeq = (5 : BitVec 24).toNat ∧ p.failCount = 7) ∧
    (let p : Port := { mode := 2, state := 2, dgRx := [(9, 6)], unacked := [unackedX 1] }
     (withPort p).ports[15]? = some p ∧ portUp p = true ∧ p.mode = 2 ∧ leAt gram 1 1 = 2 ∧
      leAt gram 4 4 = sgetD p.dgRx (9 : BitVec 128).toNat 0 + 1 ∧ datagramOk [] = false)) ∧
    (let p : Port := { mode := 2, state := 2, dgRx := [(9, 6)], asked := [⟨3, 9, .block 3 0⟩] }
     let r := { request with blocks := [leavingX] }
     let s := { withPort p with requests := [(3, r)], kv := { up.kv with swap := some (0, 1048576) } }
     s.ports[15]? = some p ∧ portUp p = true ∧ p.mode = 2 ∧ leAt refusalX 4 4 = sgetD p.dgRx (9 : BitVec 128).toNat 0 + 1 ∧ leAt refusalX 28 4 = 3 ∧
      (p.asked.find? (fun a => a.sequence = 3 ∧ a.destination = 9)).map (·.purpose) = some (.block 3 0) ∧
      p.asked.find? (fun a => a.sequence = 4 ∧ a.destination = 9) = none ∧ sget s.requests 3 = some r ∧ r.blocks[0]? = some leavingX) ∧
    (let p : Port := { mode := 2, state := 2, unacked := [unackedX 7] }; let s := { withPort p with now := 200000 }
     s.ports[15]? = some p ∧ p.queued = [] ∧ p.asked = [] ∧ refusalOk [] = false ∧
      (unackedX 7).fetch = none ∧ p.unacked.find? (fun y => y.sentAt + 200000 ≤ s.now) = some (unackedX 7) ∧
      (unackedX 7).attempts < 8 ∧ 8 ≤ (unackedX 8).attempts ∧ (0 : BitVec 64) ∉ p.networks) :=
  ⟨⟨flitBytes_ok .., datagramOk_one _ _ _ (flitBytes_length ..) (flitBytes_ok ..), refusalOk_one _ _ _ (flitBytes_length ..) (flitBytes_ok ..)⟩,
    by decide +kernel, by decide +kernel, by decide +kernel⟩

/-! ### The block as a whole -/

theorem test_StepRunsTheFrontCommand : State.reset.pending = [] ∧ (Runs (exec .throttle State.reset)) := ⟨rfl, _, rfl⟩

theorem reset_memory_wf : MemoryWf State.reset := ⟨by decide, by decide⟩

theorem test_EveryStepKeepsMemoryForm : MemoryWf State.reset ∧ ∃ t, step State.reset = .next t := ⟨reset_memory_wf, _, rfl⟩

theorem test_FuseBitsAreNeverCleared :
    ∃ s t, step s = .next t ∧ s.fuses.ownerKeyHash.getLsbD 1 = true ∧ s.fuses.securityVersion.getLsbD 63 = true ∧ s.fuses.ownerKeyHash ≠ 0 :=
  ⟨{ State.reset with fuses := { vendor with ownerKeyHash := 2, securityVersion := 2 ^ 63 } }, _, rfl, by decide +kernel, by decide +kernel, by decide +kernel⟩

/-- A packet of virtual function 1 as its meaning would get it. -/
def fromVf (opcode : Nat) (ch : Bytes) : Ctx :=
  { origin := { fn := 1, queue := 1025, ring := 64, opcode := opcode, tag := 0 }, session := hdrSession ch, chain := ch, data := {} }

/-- Function 1 holds session 5, whose last counter is `n`. -/
def vfSession (k : Option Bytes) (n : Nat) : State := { fn1 with sessions := [(5, { fn := 1, spdm := none, key := k, counter := n })] }

/-- CHIP_RESET with counter 1, its check computed with the session's key. -/
def resetChain : Bytes := critBody 0x0701 [] ++ leBytes 16 0xf73624fff047a54574d7314d57c9e23c

def rowIs (opcode : Nat) (f : OpRow → Bool) : Bool := match opRow opcode with | some row => f row | none => false

theorem test_PacketChecksInOrder :
    rowIs 0x0603 (fun row => decide (firstReserved row (unit false 5 [(1, 1, 9)]) = some 17)) = true ∧
    rowIs 0x0603 (fun row => decide (firstReserved row (unit true 5 []) = none ∧ hdrCritical (unit true 5 []) ≠ row.critical)) = true ∧
    rowIs 0x0603 (fun row => decide (firstReserved row (unit false 5 []) = none ∧ hdrCritical (unit false 5 []) = row.critical ∧
      sessionBad up (fromVf 0x0603 (unit false 5 [])) = true)) = true ∧
    rowIs 0x0603 (fun row => decide (sessionBad (vfSession none 0) (fromVf 0x0603 (unit false 5 [])) = false ∧ row.critical = false ∧
      row.pfOnly = true ∧ (fromVf 0x0603 (unit false 5 [])).fn ≠ 0 ∧ row.opcode ≠ 0x0505 ∧ row.opcode ≠ 0x0506)) = true ∧
    rowIs 0x0701 (fun row => decide (firstReserved row resetChain = none ∧ hdrCritical resetChain = row.critical ∧ row.critical = true ∧
      sessionBad (vfSession none 0) (fromVf 0x0701 resetChain) = false ∧ packetKey (vfSession none 0) (fromVf 0x0701 resetChain) = none)) = true ∧
    rowIs 0x0701 (fun row => decide (packetKey (vfSession (some key) 0) (fromVf 0x0701 resetChain) = some key ∧
      trailerOk key resetChain = true ∧ packetCounter (vfSession (some key) 0) (fromVf 0x0701 resetChain) < trailerCounter resetChain ∧
      row.pfOnly = true ∧ trailerCounter resetChain ≤ packetCounter (vfSession (some key) 1) (fromVf 0x0701 resetChain))) = true ∧
    trailerOk key (critBody 0x0701 [] ++ blank) = false ∧
    (let p := pkt 5 []
     opRow (hdrOpcode p.chain) = none ∧ sget up.queues p.queue.val = some { base := 4096, depth := 16, priority := 0, ring := 1, producer := 8 } ∧
      isRunning up = true ∧ up.boot.kioskHung = false ∧ dmaAllowed up (ownerOfQueue up p.queue.val) = true ∧
      hdrUnits (chainRead (hdrOpcode p.chain) p) ≤ 16 ∧
      hdrUnits (chainRead (hdrOpcode p.chain) p) ≤ covered { base := 4096, depth := 16, priority := 0, ring := 1, producer := 8 }) := by
  decide +kernel

/-! ### Results the manual works out -/

/-- The example of R4: array 0x10D1FD, its site's slice 3. -/
theorem test_uid_example : arrayUid 0x10D1FD = 0x80D1FD00#32 ∧ siteUid (0x10D1FD / 8) 3 = 0x88D1F803#32 := by decide

/-- The example of R516. -/
theorem test_record_example :
    let r : ErrorRecord := { kind := 0x17, severity := 4, stale := false, fn := 0, uid := hbmUid 1 2 5, lastMark := 0, elapsed := 0, op := some ⟨5, 17, 0x123456⟩, temperature := 676, count := 1,
                             voltage := 1100, detail := [] }
    let b := errorRecordBytes r
    leAt b 0 4 = 0x03178000 ∧ leAt b 4 4 = 0x78081005 ∧ leAt b 20 4 = 0x8A008AA4 ∧ leAt b 24 4 = 0x0001044C ∧ leAt b 28 4 = 0x12345600 := by
  decide +kernel

/-- The example of R55. -/
theorem test_nibbles_example : nibbles (-93) = (-5, -13) := by decide

/-- The example of R204. -/
theorem test_burst_example :
    burstDecode 3 0x7A 0x3E00 = 0x3E100000 ∧ burstDecode (-5) 0x7A 0x3E00 = 0xBE700000 ∧
    (burstElements 0x20 [0xB3] 0).take 2 = [3, -5] ∧ burstElements 0x22 [0xC9] 0 = [-1, 0, 0, 0, 1] := by decide +kernel

/-- The example of R212: 464 to E4M3, 65,510 and 65,520 to FP16. -/
theorem test_convert_example :
    toFormat 0x04 0x43E80000 = 0x7E ∧ toFormat 0x02 0x477FE600 = 0x7BFF ∧ toFormat 0x02 0x477FF000 = 0x7C00 := by decide +kernel

/-- The example of R218: 2^24, 1, 1 and −2^24 sum to 2. -/
theorem test_compensated_example : compValue (compSum [0x4B800000, one, one, 0xCB800000]) = 0x40000000 := by decide +kernel

/-- The example of R229: a top-6, a maximum and a minimum over eight scores. -/
theorem test_topK_example :
    let l : List (F32 × Nat) := [(0x3F000000, 2), (0x7FC00000, 3), (0x3F400000, 9), (0x3F400000, 17), (0xFF800000, 40), (0x80000000, 55), (0, 61),
      (0x7FC00000, 70)]
    topK false 6 l = [(0x3F400000, 9), (0x3F400000, 17), (0x3F000000, 2), (0x80000000, 55), (0, 61), (0xFF800000, 40)] ∧
    (topK false 8 l).drop 6 = List.replicate 2 (f32NaN, 0xFFFFFFFF) ∧ topK false 1 l = [(0x3F400000, 9)] ∧ topK true 1 l = [(0xFF800000, 40)] := by
  decide +kernel

/-- The example of R339: nine sequences in two rows of 512. -/
theorem test_packing_example : packAll 512 [96, 130, 70, 88, 41, 60, 80, 25, 1] (emptyRows 2) = some [(511, 8), (80, 1)] := by decide +kernel

/-- The example of R378 to R385: a prompt of 3,072 tokens is charged 192; level 150 reaches it at 42 ms. -/
theorem test_budget_example :
    admissionCharge 2 (List.replicate (4 * 3072) 0) = 192 ∧
    earliestBudget false 0 { rate := 1000, burst := 2000, limit := 4, level := 150 * 1024 } 192 = 42000000 ∧
    (updateBucket false 50000000 { rate := 1000, burst := 2000, limit := 4, level := 150 * 1024 }).level = 200 * 1024 := by decide +kernel

/-- The example of R579: 79 at 103.5 °C, with a budget of 66,269 sites. -/
theorem test_throttle_example :
    throttleValue { channels := List.replicate 18 { last := .temp 828 } } = 79 ∧ firingBudget 79 = 66269 := by decide +kernel

/-- The example of R467: the reply to CHECK_FRACTION_SET. -/
theorem test_reply_example :
    let b := statusReplyBytes .ok 0x0508 5 42 0xA1 0 (leBytes 4 1 ++ leBytes 4 0x115)
    leAt b 0 4 = 0x01000000 ∧ leAt b 4 4 = 0x05080005 ∧ leAt b 8 4 = 0x002A0000 ∧ leAt b 12 4 = 0xA1 ∧ leAt b 24 4 = 1 ∧ leAt b 28 4 = 0x115 := by
  decide +kernel

/-- The layer times that the planner's worked example gives at S, with D = 4,672 ns (R165, R180): SIGNED at 4 and 2 row phases, UNSIGNED
at 1. -/
theorem test_layer_times_example :
    let p : LayerPlan := { node := 0, arrays := [(8, 0, 0)], slots := 16, wideTime := 46720000 }
    layerNominal up 0 p = 23574000 ∧ layerWorst up 0 p = 104045000 ∧
    layerNominal up 0 { p with phases := 2 } = 15918000 ∧ layerWorst up 0 { p with phases := 2 } = 83196000 ∧
    layerNominal up 0 { p with mode := .unsigned, phases := 1 } = 10176000 ∧ layerWorst up 0 { p with mode := .unsigned, phases := 1 } = 71712000 := by
  decide +kernel

theorem test_no_word_spells_a_command : decodeTableWord 16 0 = none ∧ State.reset.withFetchWord 16 0 = State.reset := ⟨rfl, rfl⟩

/-- The command at the front of the queue runs, with the queue's rest. -/
theorem test_front_runs :
    step { up with pending := [.pairOkIn true, .throttle] } = .next { up with pending := [.throttle], pair := { up.pair with okIn := true } } := rfl

/-- Each size the manual fixes refuses a term that breaks it. -/
theorem test_wellFormed_refuses :
    Instr.wellFormed (.sessionOpen { queue := 0, chain := [] }) = false ∧ Instr.wellFormed (.sessionOpen { queue := 0, chain := List.replicate 129 0 }) = false ∧
    Instr.wellFormed (.sessionOpen { queue := 0, chain := List.replicate 4224 0 }) = false ∧
    Instr.wellFormed (.keyEx none 0 []) = false ∧ Instr.wellFormed (.doorbell 0 0 0 3) = false ∧ Instr.wellFormed (.registerWrite 0 0 16 0) = false ∧
    Instr.wellFormed (.bar4Access 0 0 0 none) = false ∧ Instr.wellFormed (.bar4Access 0 0 2 (some [1])) = false ∧ Instr.wellFormed (.vfEnable 0) = false ∧
    Instr.wellFormed (.linkTrained 7 8) = false ∧ Instr.wellFormed (.linkTrained 64 16) = false ∧ Instr.wellFormed (.sweepEnd 0 []) = false ∧
    Instr.wellFormed (.sliceCalibration 0 0 []) = false ∧ Instr.wellFormed (.calibrationRoundEnd 0 [] [] 0 4) = false ∧
    Instr.wellFormed (.remoteWrite (remote 0)) = false ∧
    Instr.wellFormed (.diodeSample []) = false ∧ Instr.wellFormed (.coolantSample (.temp 0) (.temp 0) []) = false ∧
    Instr.wellFormed (.hachateFlit 0 [] 0 false) = false ∧ Instr.wellFormed (.datagram 0 0 []) = false ∧ Instr.wellFormed (.refusal 0 0 (List.replicate 2065 0)) = false ∧
    Instr.wellFormed (.fabricPortUp 0 true 0) = false ∧ Instr.wellFormed (.sessionOpen { queue := 0, chain := List.replicate 128 0 }) = true := by
  decide +kernel

/-- Image sizes and message lengths past the manual's. -/
theorem test_wellFormed_refuses_long (b : Bytes) (h : b.length = 33554433) :
    Instr.wellFormed (.pldmFirmwareUpdate none b) = false ∧ Instr.wellFormed (.lodgeImageUpdate none b false) = false ∧
    Instr.wellFormed (.recoveryImage b) = false ∧ Instr.wellFormed (.bundleFetchEnd (some b)) = false := by
  simp [Instr.wellFormed, h]

theorem test_wellFormed_refuses_message (m : Mgmt) (h : m.payload.length = 4294967296) : Instr.wellFormed (.debugNonce m) = false := by
  simp [Instr.wellFormed, Mgmt.wf, h]

end Sys2Proof.Tests
end

section
/-! Host time after a mark (R396–R398), and TIME_MARK as a packet. -/

namespace Sys2Proof.Proofs
open Sys2Proof Sys2Proof.Machine Sys2Proof.Safety Sys2Proof.Laws

/-- The row of TIME_MARK (R459). -/
theorem exec_timeMark (p : Pkt) (s : State) : exec (.timeMark p) s = .next (packetRow 0x0004 p s id bodyTimeMark) := rfl

/-- Accepting a mark touches host time alone. -/
theorem acceptMark_frame (s : State) (m : Nat) : acceptMark s m = { s with time := (acceptMark s m).time } := rfl

/-- Once a mark is accepted, host time goes on from the mark at the fitted rate, and is held at what it read before (R397, R398). -/
theorem hostTime_acceptMark_after (s : State) (m d : Nat) :
    hostTime { acceptMark s m with now := s.now + d } =
      max (if s.time.set then hostTime s else 0) (m + (acceptMark s m).time.rate * d / 4294967296) := by
  change max _ (m + _ * (s.now + d - s.now) / 4294967296) = _
  rw [Nat.add_sub_cancel_left]
  rfl

/-- At the moment a mark is accepted host time reads the mark, or stays if the mark is behind it (R398). -/
theorem hostTime_acceptMark (s : State) (m : Nat) :
    hostTime (acceptMark s m) = max (if s.time.set then hostTime s else 0) m :=
  (hostTime_acceptMark_after s m 0).trans (by simp)

/-- The first mark, and every later one not more than 1 ms behind host time, is accepted (R398). -/
theorem bodyTimeMark_accepted {c : Ctx} {s : State} (h : s.time.set = false ∨ hostTime s ≤ c.par 0 8 + 1000000) :
    bodyTimeMark c s = replyOk c (acceptMark s (c.par 0 8)) [] := by
  refine if_neg fun ⟨hset, hlate⟩ => ?_
  obtain hunset | hnear := h
  · exact absurd hset (by simp [hunset])
  · omega

/-- A mark more than 1 ms behind host time is refused with a record (R398). -/
theorem bodyTimeMark_refused {c : Ctx} {s : State} (h : s.time.set = true ∧ c.par 0 8 + 1000000 < hostTime s) :
    bodyTimeMark c s = reply c (report s 0x32 2 kioskUid (leBytes 8 (c.par 0 8))) .invalid 16 [] :=
  if_pos h

/-- Settles O3: an accepted mark moves only the anchor of host time, whose floor is host time as it read before. -/
theorem timeMarkHoldsOrRefuses : Obligations.TimeMarkHoldsOrRefuses := by
  refine ⟨fun p s c t hacc hnear => ?_, carries_of exec_timeMark fun c t => bodyTimeMark_refused⟩
  have hexec : exec (.timeMark p) s = .next (replyOk c (acceptMark t (c.par 0 8)) []) := by
    rw [exec_timeMark, packetRow_accepted hacc id bodyTimeMark (fun _ => rfl) (fun _ => rfl) (fun _ _ => rfl)]
    exact congrArg _ (bodyTimeMark_accepted hnear)
  refine ⟨acceptMark t (c.par 0 8), hexec, acceptMark_frame t _, rfl, rfl, rfl, rfl, fun hset => ?_, fun hunset => ?_,
    fun hset d => ?_⟩
  · simp [hostTime_acceptMark, hset]
  · simp [hostTime_acceptMark, hunset]
  · simp [hostTime_acceptMark_after, hset]

end Sys2Proof.Proofs
end

section
/-! Reply rings made and destroyed by packets (R405, R432). -/

namespace Sys2Proof.Proofs
open Sys2Proof Sys2Proof.Machine Sys2Proof.Safety Sys2Proof.Laws

/-- The row of RING_CREATE (R459). -/
theorem exec_ringCreate (p : Pkt) (s : State) : exec (.ringCreate p) s = .next (packetRow 0x0013 p s id bodyRingCreate) := rfl

/-- The row of RING_DESTROY (R459). -/
theorem exec_ringDestroy (p : Pkt) (s : State) : exec (.ringDestroy p) s = .next (packetRow 0x0014 p s id bodyRingDestroy) := rfl

/-- The ring a RING_CREATE packet asks for, with nothing posted to it yet (R432). -/
def createdRing (c : Ctx) : ReplyRing :=
  { base := BitVec.ofNat 64 (c.par 8 8), depth := 2 ^ c.par 2 1, vector := c.par 6 2, modCount := c.par 3 1, modDelay := c.par 4 1 }

/-- A free ring of the issuing function, with fields in the ranges of R432, is made empty. -/
theorem bodyRingCreate_made {c : Ctx} {s : State} (hlt : c.par 0 2 < 4096) (hown : ownerOfRing s (c.par 0 2) = c.fn)
    (hboot : c.par 0 2 ≠ bootRing c.fn) (hdepth : 4 ≤ c.par 2 1 ∧ c.par 2 1 ≤ 12) (hcount : 1 ≤ c.par 3 1 ∧ c.par 3 1 ≤ 64)
    (hvec : c.par 6 2 ≠ 0 ∧ c.par 6 2 < vectorsOf c.fn) (hbase : c.par 8 8 % 4096 = 0)
    (hfree : shas s.rings (c.par 0 2) = false) :
    bodyRingCreate c s = replyOk c { s with rings := sput s.rings (c.par 0 2) (createdRing c) } [] := by
  unfold bodyRingCreate
  dsimp only
  rw [if_neg (by omega), if_neg (not_not.mpr hown), if_neg hboot, if_neg (by omega), if_neg (by omega), if_neg hvec.1,
    if_neg (by omega), if_neg (not_not.mpr hbase), if_neg (by simp [hfree])]
  rfl

/-- A ring of the issuing function that is there is BUSY while an open request names it or a submission queue of the function
posts to it, and is freed otherwise (R405). -/
theorem bodyRingDestroy_present {c : Ctx} {s : State} (hlt : c.par 0 2 < 4096) (hown : ownerOfRing s (c.par 0 2) = c.fn)
    (hboot : c.par 0 2 ≠ bootRing c.fn) (hhas : shas s.rings (c.par 0 2) = true) :
    bodyRingDestroy c s =
      if (∃ e ∈ s.requests, e.2.ring = c.par 0 2) ∨ ∃ e ∈ s.queues, e.2.ring = c.par 0 2 ∧ ownerOfQueue s e.1 = c.fn
      then reply c s .busy 0 [] else replyOk c { s with rings := sdel s.rings (c.par 0 2) } [] := by
  unfold bodyRingDestroy
  dsimp only
  rw [if_neg (by omega), if_neg (not_not.mpr hown), if_neg (by simp [hboot, hhas])]
  simp only [List.any_eq_true, Bool.and_eq_true, decide_eq_true_eq, replySt]

/-- Settles O5: creation passes every check of R432; destruction is decided by the two users of a ring that R405 names. -/
theorem ringPackets : Obligations.RingPackets := by
  refine ⟨carries_of exec_ringCreate ?made, carries_of exec_ringDestroy ?freed, carries_of exec_ringDestroy ?requested,
    carries_of exec_ringDestroy ?posted⟩
  case made =>
    rintro c t ⟨hlt, hown, hboot, hd, hd', hc, hc', hv, hv', hbase, hfree⟩
    exact bodyRingCreate_made hlt hown hboot ⟨hd, hd'⟩ ⟨hc, hc'⟩ ⟨hv, hv'⟩ hbase hfree
  case freed =>
    rintro c t ⟨hlt, hown, hboot, hhas, hreq, hqueue⟩
    rw [bodyRingDestroy_present hlt hown hboot hhas, if_neg]
    rintro (⟨e, he, hr⟩ | ⟨e, he, hr, ho⟩)
    · exact hreq e he hr
    · exact hqueue e he hr ho
  case requested =>
    rintro c t ⟨hlt, hown, hboot, hhas, hnamed⟩
    rw [bodyRingDestroy_present hlt hown hboot hhas, if_pos (.inl hnamed)]
  case posted =>
    rintro c t ⟨hlt, hown, hboot, hhas, hqueue⟩
    rw [bodyRingDestroy_present hlt hown hboot hhas, if_pos (.inr hqueue)]

end Sys2Proof.Proofs
end

section
/-! Doorbell writes (R413, R415, R427, R429). -/

namespace Sys2Proof.Proofs
open Sys2Proof Sys2Proof.Machine Sys2Proof.Safety Sys2Proof.Laws

/-- A doorbell write of a reachable function takes effect. -/
theorem exec_doorbell {fn : FnId} {s : State} (h : reachable s fn.val = true) (i : Fin 65536) (v : BitVec 64) (w : Nat) :
    exec (.doorbell fn i v w) s = .next (ringDoorbell fn.val i.val w v.toNat s) :=
  congrArg _ (if_pos h)

section
variable {fn index q : Nat} {s : State} (hq : q = if fn = 0 then index else 1024 * fn + index)
  (hseen : fn ≠ 0 → index < 1024)
include hq hseen

/-- At a doorbell that the function sees (R413), ownership of the queue is judged before the width of the write. -/
theorem ringDoorbell_seen (w v : Nat) :
    ringDoorbell fn index w v s =
      if ownerOfQueue s q ≠ fn then violation s fn
      else if w ≠ 8 then s
      else match sget s.queues q with
        | none => s
        | some x =>
          if x.depth < (v % 65536 + 65536 - x.consumed) % 65536 ∨ (v % 65536 + 65536 - x.consumed) % 65536 < covered x then
            reportOf s 0x31 2 pciePortUid (leBytes 2 q ++ leBytes 2 (v % 65536)) fn none
          else { s with queues := sput s.queues q { x with producer := v % 65536 } } := by
  subst hq
  exact if_neg fun ⟨hfn, hout⟩ => absurd (hseen hfn) (Nat.not_lt.mpr hout)

/-- A doorbell of a queue that another function owns is a violation, whatever its width (R415). -/
theorem ringDoorbell_foreign (hown : ownerOfQueue s q ≠ fn) (w v : Nat) : ringDoorbell fn index w v s = violation s fn := by
  rw [ringDoorbell_seen hq hseen, if_pos hown]

/-- A doorbell write of another width than 8 bytes is ignored (R427). -/
theorem ringDoorbell_narrow (hown : ownerOfQueue s q = fn) {w : Nat} (hw : w ≠ 8) (v : Nat) :
    ringDoorbell fn index w v s = s := by
  rw [ringDoorbell_seen hq hseen, if_neg (not_not.mpr hown), if_pos hw]

/-- The count of an owned queue's doorbell is refused with a record where it is too far ahead of the consumed count, or behind
the producer count, and is taken otherwise (R429). -/
theorem ringDoorbell_owned (hown : ownerOfQueue s q = fn) {x : SubQueue} (hx : sget s.queues q = some x) (v : Nat) :
    ringDoorbell fn index 8 v s =
      if x.depth < (v % 65536 + 65536 - x.consumed) % 65536 ∨ (v % 65536 + 65536 - x.consumed) % 65536 < covered x then
        reportOf s 0x31 2 pciePortUid (leBytes 2 q ++ leBytes 2 (v % 65536)) fn none
      else { s with queues := sput s.queues q { x with producer := v % 65536 } } := by
  rw [ringDoorbell_seen hq hseen, if_neg (not_not.mpr hown), if_neg (not_not.mpr rfl), hx]

end

/-- Settles O29: the count of an owned queue is decided by the two bounds of R429, once owner and width have passed. -/
theorem doorbellMovesTheProducer : Obligations.DoorbellMovesTheProducer := by
  intro fn i v s x q hreach hq hseen
  simp only [exec_doorbell hreach]
  refine ⟨fun hown hx hfar hback => ?taken, fun hown hx hbad => ?refused, fun hown w => ?foreign, fun hown w hw => ?narrow⟩
  case taken => rw [ringDoorbell_owned hq hseen hown hx, if_neg (by omega)]
  case refused => rw [ringDoorbell_owned hq hseen hown hx, if_pos hbad]
  case foreign => rw [ringDoorbell_foreign hq hseen hown]
  case narrow => rw [ringDoorbell_narrow hq hseen hown hw]

end Sys2Proof.Proofs
end

section
/-! SPDM sessions: measurements, key exchanges, key updates and ends (R450, R551–R553). -/

namespace Sys2Proof.Proofs
open Sys2Proof Sys2Proof.Machine Sys2Proof.Safety Sys2Proof.Laws

/-! ### Rows -/

/-- GET_MEASUREMENTS takes the measurements (R551). -/
theorem exec_getMeasurements (fn : Option FnId) (s : State) :
    exec (.getMeasurements fn) s = .next (measurementsTaken fn s) := rfl

/-- KEY_EX keys a session (R552). -/
theorem exec_keyEx (fn : Option FnId) (id : BitVec 32) (secret : Bytes) (s : State) :
    exec (.keyEx fn id secret) s = .next (sessionKeyed fn id secret s) := rfl

/-- KEY_UPDATE changes the data keys (R553). -/
theorem exec_keyUpdate (fn : Option FnId) (id : BitVec 32) (s : State) :
    exec (.keyUpdate fn id) s = .next (dataKeysUpdated fn id s) := rfl

/-- SPDM_SESSION_END ends a session (R450). -/
theorem exec_spdmSessionEnd (fn : Option FnId) (id : BitVec 32) (s : State) :
    exec (.spdmSessionEnd fn id) s = .next (spdmEnds fn id s) := rfl

/-! ### Measurements (R551) and key exchanges (R552) -/

section
variable {fn : Option FnId} {s : State}

/-- A responder that answers takes every measurement of the state as it stands (R551). -/
theorem measurementsTaken_there (h : responderThere s fn = true) :
    measurementsTaken fn s = { s with measured := measurements s } :=
  if_pos h

/-- While its responder has room, a new session is held (R552). -/
theorem sessionKeyed_room {id : BitVec 32} (hthere : responderThere s fn = true)
    (hroom : (s.spdm.filter (fun e => e.fn = spdmFn fn)).length < if fn.isSome then 8 else 4)
    (hnew : ∀ e ∈ s.spdm, e.fn = spdmFn fn → e.id ≠ id) (secret : Bytes) :
    sessionKeyed fn id secret s = { s with spdm := s.spdm ++ [{ fn := spdmFn fn, id := id, secret := secret }] } := by
  have hfresh : (!(s.spdm.filter (fun e => e.fn = spdmFn fn)).any (fun e => e.id = id)) = true := by
    simpa using hnew
  exact if_pos ⟨hthere, hroom, hfresh⟩

/-- A responder that holds its limit of sessions takes no further one (R552). -/
theorem sessionKeyed_full (hfull : (if fn.isSome then 8 else 4) ≤ (s.spdm.filter (fun e => e.fn = spdmFn fn)).length)
    (id : BitVec 32) (secret : Bytes) : sessionKeyed fn id secret s = s :=
  if_neg fun ⟨_, hroom, _⟩ => absurd hroom (Nat.not_lt.mpr hfull)

end

/-! ### The end of a session (R450) -/

section
variable (fn : Option FnId) (id : BitVec 32) (s : State)

/-- A host session as the end of an SPDM session leaves it: bound to that session it loses binding and key, else it stays. -/
def sessionAfterEnd (x : Session) : Session :=
  if some x.fn = spdmFn fn ∧ x.spdm = some id then { x with spdm := none, key := none } else x

variable {fn id} {x : Session}

/-- A host session bound to the SPDM session that ended has lost its binding and its key. -/
theorem sessionAfterEnd_bound (h : some x.fn = spdmFn fn ∧ x.spdm = some id) :
    sessionAfterEnd fn id x = { x with spdm := none, key := none } :=
  if_pos h

/-- Another host session is left as it is. -/
theorem sessionAfterEnd_other (h : ¬(some x.fn = spdmFn fn ∧ x.spdm = some id)) : sessionAfterEnd fn id x = x := if_neg h

/-- No host session of the function stays bound to the SPDM session that ended. -/
theorem sessionAfterEnd_unbound (hfn : some (sessionAfterEnd fn id x).fn = spdmFn fn) :
    (sessionAfterEnd fn id x).spdm ≠ some id := by
  by_cases h : some x.fn = spdmFn fn ∧ x.spdm = some id
  · rw [sessionAfterEnd_bound h]
    exact nofun
  · rw [sessionAfterEnd_other h] at hfn ⊢
    exact fun hid => h ⟨hfn, hid⟩

variable (fn id)

/-- The command counter of a host session outlasts its SPDM session. -/
@[simp] theorem sessionAfterEnd_counter : (sessionAfterEnd fn id x).counter = x.counter := by
  by_cases h : some x.fn = spdmFn fn ∧ x.spdm = some id
  · rw [sessionAfterEnd_bound h]
  · rw [sessionAfterEnd_other h]

/-- The end of an SPDM session changes the host sessions one by one. -/
theorem spdmEnds_sessions : (spdmEnds fn id s).sessions = s.sessions.map (fun e => (e.1, sessionAfterEnd fn id e.2)) := rfl

/-- A session is held after the end of one exactly if it was held and is another. -/
theorem mem_spdmEnds_spdm {e : Spdm} :
    e ∈ (spdmEnds fn id s).spdm ↔ e ∈ s.spdm ∧ ¬(e.fn = spdmFn fn ∧ e.id = id) := by
  simp only [spdmEnds, List.mem_filter, decide_eq_true_eq]

end

/-- Settles O27: room and a new number decide a key exchange, and the end of a session unbinds host sessions one by one. -/
theorem spdmSessions : Obligations.SpdmSessions := by
  intro fn s
  simp only [exec_getMeasurements, exec_keyEx, exec_keyUpdate, exec_spdmSessionEnd]
  refine ⟨fun hthere => ?measured, fun id secret hthere hroom hnew => ?held, fun id secret hfull => ?full,
    fun id => ?updated, fun id => ⟨spdmEnds fn id s, rfl, rfl, ?ended, ?unbound, ?counters⟩⟩
  case measured => rw [measurementsTaken_there hthere]
  case held => rw [sessionKeyed_room hthere hroom hnew]
  case full => rw [sessionKeyed_full hfull]
  case updated => rfl
  case ended => exact fun e he => ((mem_spdmEnds_spdm fn id s).mp he).2
  case unbound =>
    rw [spdmEnds_sessions]
    exact List.forall_mem_map.mpr fun _ _ => sessionAfterEnd_unbound
  case counters => simp [spdmEnds_sessions]

end Sys2Proof.Proofs
end

section
/-! What a step can do to memories, fuses, the boot state and elapsed time (R536, R541), and how such steps compose. -/

namespace Sys2Proof.Proofs
open Sys2Proof Sys2Proof.Machine Sys2Proof.Safety Sys2Proof.Laws

/-- How the fuses may differ later (R536): a set bit stays set, the owner key is fused once, the vendor's fuses stay. -/
structure FusesGrow (f g : Fuses) : Prop where
  ownerBits : ∀ i, f.ownerKeyHash.getLsbD i = true → g.ownerKeyHash.getLsbD i = true
  versionBits : ∀ i, f.securityVersion.getLsbD i = true → g.securityVersion.getLsbD i = true
  fusedOnce : f.ownerKeyHash ≠ 0 → g.ownerKeyHash = f.ownerKeyHash
  vendor : g = { f with ownerKeyHash := g.ownerKeyHash, securityVersion := g.securityVersion }

theorem FusesGrow.refl (f : Fuses) : FusesGrow f f :=
  ⟨fun _ => id, fun _ => id, fun _ => rfl, rfl⟩

theorem FusesGrow.trans {f g k : Fuses} (a : FusesGrow f g) (b : FusesGrow g k) : FusesGrow f k where
  ownerBits i h := b.ownerBits i (a.ownerBits i h)
  versionBits i h := b.versionBits i (a.versionBits i h)
  fusedOnce h := by
    have hg := a.fusedOnce h
    rw [b.fusedOnce (hg ▸ h), hg]
  vendor := by rw [b.vendor, a.vendor]

/-- Burning version bits sets further bits alone (R541). -/
theorem FusesGrow.burn (f : Fuses) (v : BitVec 64) : FusesGrow f { f with securityVersion := f.securityVersion ||| v } :=
  ⟨fun _ => id, fun i h => by simp [h], fun _ => rfl, rfl⟩

/-- An owner key that is not fused yet may take any value (R537). -/
theorem FusesGrow.fuse (f : Fuses) {k : BitVec 256} (h : f.ownerKeyHash = 0) : FusesGrow f { f with ownerKeyHash := k } :=
  ⟨fun i hi => by simp [h] at hi, fun _ => id, fun hset => absurd h hset, rfl⟩

/-- What every command but a cycle of the idle clock does to memories, fuses and elapsed time. -/
structure Kept (s t : State) : Prop where
  memory : MemoryWf s → MemoryWf t
  fuses : FusesGrow s.fuses t.fuses
  now : t.now = s.now

/-- What a command that resets nothing leaves beside that: the boot state and every fuse. -/
structure Steady (s t : State) : Prop where
  memory : MemoryWf s → MemoryWf t
  fuses : t.fuses = s.fuses
  boot : t.boot = s.boot
  now : t.now = s.now

theorem Steady.kept {s t : State} (h : Steady s t) : Kept s t :=
  ⟨h.memory, h.fuses ▸ .refl _, h.now⟩


theorem Steady.refl {s : State} : Steady s s := ⟨id, rfl, rfl, rfl⟩

theorem Steady.trans {s t u : State} (a : Steady s t) (b : Steady t u) : Steady s u :=
  ⟨b.memory ∘ a.memory, b.fuses.trans a.fuses, b.boot.trans a.boot, b.now.trans a.now⟩

/-- Setting any other field. -/
theorem Steady.update {s t : State}
    {pending freeIdx powered power thermal lodge counts link fns queues rings spdm sessions jobs dormantWait time accounts objects publisherKeys servers graphs lanes planner requests nextOrder kv arrays sites quartz layerSteps histories repairAdapters cores reliability probes ports pair erases measured} (h : Steady s t) :
        Steady s ⟨pending, t.now, freeIdx, powered, t.fuses, t.boot, power, thermal, lodge, counts, link, fns, queues,
      rings, spdm, sessions, jobs, dormantWait, time, accounts, objects, publisherKeys, servers, graphs, lanes,
      planner, requests, nextOrder, kv, arrays, sites, quartz, layerSteps, histories, repairAdapters, cores,
      reliability, probes, ports, pair, erases, measured, t.hostMem, t.debugMem⟩ :=
  ⟨fun w => ⟨(h.memory w).1, (h.memory w).2⟩, h.fuses, h.boot, h.now⟩

theorem Steady.after {s t u : State} (b : Steady t u) (a : Steady s t) : Steady s u :=
  a.trans b

theorem Steady.ite {s t u : State} {c : Prop} {_ : Decidable c} (a :
    Steady s t) (b : Steady s u) : Steady s (if c then t else u) := by
  split
  · exact a
  · exact b

theorem Steady.foldl {α : Type} {f : State → α → State} {l : List α} {s t : State} (h : ∀ u x, Steady u (f u x)) (ht :
    Steady s t) :
    Steady s (l.foldl f t) := by
  induction l generalizing t with
  | nil => exact ht
  | cons x l ih => exact ih (ht.trans (h t x))

theorem Steady.elim {α : Type} {o : Option α} {s t : State} {f : α → State} (h : ∀ x, Steady s (f x)) (ht : Steady s t) :
    Steady s (o.elim t f) := by
  cases o with
  | none => exact ht
  | some x => exact h x

theorem Kept.refl {s : State} : Kept s s := ⟨id, .refl _, rfl⟩

theorem Kept.trans {s t u : State} (a : Kept s t) (b : Kept t u) : Kept s u :=
  ⟨b.memory ∘ a.memory, a.fuses.trans b.fuses, b.now.trans a.now⟩

/-- Setting any other field. -/
theorem Kept.update {s t : State}
    {pending freeIdx powered boot power thermal lodge counts link fns queues rings spdm sessions jobs dormantWait time accounts objects publisherKeys servers graphs lanes planner requests nextOrder kv arrays sites quartz layerSteps histories repairAdapters cores reliability probes ports pair erases measured} (h : Kept s t) :
        Kept s ⟨pending, t.now, freeIdx, powered, t.fuses, boot, power, thermal, lodge, counts, link, fns, queues,
      rings, spdm, sessions, jobs, dormantWait, time, accounts, objects, publisherKeys, servers, graphs, lanes,
      planner, requests, nextOrder, kv, arrays, sites, quartz, layerSteps, histories, repairAdapters, cores,
      reliability, probes, ports, pair, erases, measured, t.hostMem, t.debugMem⟩ :=
  ⟨fun w => ⟨(h.memory w).1, (h.memory w).2⟩, h.fuses, h.now⟩

theorem Kept.after {s t u : State} (b : Kept t u) (a : Kept s t) : Kept s u :=
  a.trans b

theorem Kept.ite {s t u : State} {c : Prop} {_ : Decidable c} (a :
    Kept s t) (b : Kept s u) : Kept s (if c then t else u) := by
  split
  · exact a
  · exact b

theorem Kept.foldl {α : Type} {f : State → α → State} {l : List α} {s t : State} (h : ∀ u x, Kept u (f u x)) (ht :
    Kept s t) :
    Kept s (l.foldl f t) := by
  induction l generalizing t with
  | nil => exact ht
  | cons x l ih => exact ih (ht.trans (h t x))

theorem Kept.elim {α : Type} {o : Option α} {s t : State} {f : α → State} (h : ∀ x, Kept s (f x)) (ht : Kept s t) :
    Kept s (o.elim t f) := by
  cases o with
  | none => exact ht
  | some x => exact h x

theorem Steady.dite {s : State} {c : Prop} {_ : Decidable c} {f : c → State} {g : ¬c → State} (a : ∀ h, Steady s (f h))
    (b : ∀ h, Steady s (g h)) : Steady s (if h : c then f h else g h) := by
  split
  · exact a _
  · exact b _

theorem foldl_bind_none {α β : Type} {f : β → α → Option β} (l : List α) :
    l.foldl (fun o x => o.bind fun u => f u x) none = none := by
  induction l with
  | nil => rfl
  | cons x l ih => exact ih

/-- Steps that may each fail: where they all succeed, the last state is reached by steady steps. -/
theorem Steady.foldl_bind {α : Type} {f : State → α → Option State} {l : List α} {s t : State}
    (h : ∀ u x v, f u x = some v → Steady u v) (ht : l.foldl (fun o x => o.bind fun u => f u x) (some s) = some t)
      : Steady s t := by
  induction l generalizing s with
  | nil =>
    cases ht
    exact .refl
  | cons x l ih =>
    rw [List.foldl_cons, Option.bind_some] at ht
    cases hx : f s x with
    | none =>
      rw [hx, foldl_bind_none] at ht
      cases ht
    | some v =>
      rw [hx] at ht
      exact (h s x v hx).trans (ih ht)

end Sys2Proof.Proofs
end

section
/-! Every operation of the model, in the order of its files: memories keep their canonical form, fuses only grow, no time passes; and, where the
operation resets nothing, boot state and fuses stay as they were. At the end, the same of every command. -/

namespace Sys2Proof.Proofs
open Sys2Proof Sys2Proof.Machine Sys2Proof.Safety Sys2Proof.Laws

/-! ### Operations of Machine/Ops -/

theorem hostWrite_steady {s : State} {a : Nat} {b : Bytes} : Steady s (hostWrite s a b) :=
  ⟨fun h => ⟨hostWrite_wf h.1 a b, h.2⟩, rfl, rfl, rfl⟩

theorem ringWrite_steady {s : State} {n : Nat} {r : ReplyRing} {e : Bytes} : Steady s (ringWrite s n r e) :=
  .ite (.update (.update (hostWrite_steady.after hostWrite_steady))) (.update (hostWrite_steady.after hostWrite_steady))

theorem ringWriteEntry_steady {s : State} {n : Nat} {r : ReplyRing} {e : RingEntry} : Steady s (ringWriteEntry s n r e) :=
  ringWrite_steady.after (.ite .refl hostWrite_steady)

theorem ringPost_steady {s : State} {n : Nat} {e : RingEntry} : Steady s (ringPost s n e).1 := by
  unfold ringPost
  split
  · exact .refl
  · split
    · exact ringWriteEntry_steady
    · exact .update .refl

theorem eventWrite_steady {s : State} {fn : Nat} {r : ErrorRecord} : Steady s (eventWrite s fn r) :=
  .ite (.update (.update (hostWrite_steady.after hostWrite_steady))) (.update .refl)

theorem eventPost_steady {s : State} {fn : Nat} {r : ErrorRecord} : Steady s (eventPost s fn r) :=
  .ite (.update .refl) (.ite (.update .refl) eventWrite_steady)

theorem flushHeld_steady {s : State} {fn : Nat} : Steady s (flushHeld s fn) :=
  .foldl (fun _ _ => eventWrite_steady) (.update .refl)

theorem lodgeTake_steady {s : State} {r : ErrorRecord} : Steady s (lodgeTake s r) :=
  .ite (.update .refl) .refl

theorem emitRecord_steady {s : State} {r : ErrorRecord} : Steady s (emitRecord s r) :=
  lodgeTake_steady.after (.ite (.ite (eventPost_steady.after eventPost_steady) eventPost_steady) .refl)

theorem reportOf_steady {s : State} {kind severity : Nat} {uid : Word} {detail : Bytes} {fn : Nat} {op : Option OpInfo} :
    Steady s (reportOf s kind severity uid detail fn op) := by
  unfold reportOf
  dsimp only
  split
  · exact emitRecord_steady.after (.update .refl)
  · exact .ite (emitRecord_steady.after (.update .refl)) (.update .refl)

theorem report_steady {s : State} {kind severity : Nat} {uid : Word} {detail : Bytes} :
    Steady s (report s kind severity uid detail) :=
  reportOf_steady

theorem replyTo_steady {s : State} {o : Origin} {st : Status} {detail : Nat} {result : Bytes} :
    Steady s (replyTo s o st detail result) := by
  unfold replyTo
  split
  · exact .update .refl
  · exact ringPost_steady

theorem reply_steady {c : Ctx} {s : State} {st : Status} {detail : Nat} {result : Bytes} :
    Steady s (reply c s st detail result) :=
  replyTo_steady

theorem replyOk_steady {c : Ctx} {s : State} {result : Bytes} : Steady s (replyOk c s result) :=
  reply_steady

theorem replySt_steady {c : Ctx} {s : State} {st : Status} : Steady s (replySt c s st) :=
  reply_steady

theorem replyInvalid_steady {c : Ctx} {s : State} {detail : Nat} : Steady s (replyInvalid c s detail) :=
  reply_steady

theorem replyForeign_steady {c : Ctx} {s : State} {off : Nat} : Steady s (replyForeign c s off) :=
  replyInvalid_steady.after (.update .refl)

theorem replyBuffer_steady {c : Ctx} {s : State} {off : Nat} {records : Bytes} : Steady s (replyBuffer c s off records) :=
  .ite replyInvalid_steady (.ite reply_steady (replyOk_steady.after hostWrite_steady))

theorem finishJobs_steady {s : State} {answer : Job → Option (Status × Nat × Bytes)} : Steady s (finishJobs s answer) := by
  refine .foldl (fun _ _ => ?_) (.update .refl)
  split
  · exact replyTo_steady
  · exact .refl

theorem settleClosing_steady {s0 : State} : Steady s0 (settleClosing s0) :=
  finishJobs_steady.after (.update (.update .refl))

theorem dropRequest_steady {s : State} {h : Nat} : Steady s (dropRequest s h) := by
  unfold dropRequest
  split
  · exact .refl
  · exact settleClosing_steady.after (.update (.update (.ite .refl (.update .refl))))

theorem dropRequests_steady {s : State} {hs : List Nat} : Steady s (dropRequests s hs) :=
  .foldl (fun _ _ => dropRequest_steady) .refl

theorem recordWritten_steady {s : State} {e : RingEntry} : Steady s (recordWritten s e) := by
  unfold recordWritten
  split
  · exact .refl
  · refine .ite (dropRequest_steady.after (.ite ?_ .refl)) (.ite ?_ .refl)
    · split
      · exact .update .refl
      · exact .refl
    · split
      · exact .update .refl
      · exact .refl

theorem markEnded_steady {s : State} {h g : Nat} : Steady s (markEnded s h g) :=
  .update (.update .refl)

theorem pushRecord_steady {s : State} {h : Nat} {e : RingEntry} : Steady s (pushRecord s h e) := by
  unfold pushRecord
  split
  · exact .refl
  · exact .ite (recordWritten_steady.after ringPost_steady) (.ite (markEnded_steady.after ringPost_steady) ringPost_steady)

theorem postRecord_steady {s : State} {h : Nat} {e : RingEntry} : Steady s (postRecord s h e) := by
  unfold postRecord
  split
  · exact .refl
  · exact .ite pushRecord_steady (.ite (markEnded_steady.after (.update .refl)) (.update .refl))

theorem flushAwaiting_steady {s : State} {h : Nat} : Steady s (flushAwaiting s h) := by
  unfold flushAwaiting
  split
  · exact .refl
  · exact .foldl (fun _ _ => pushRecord_steady) (.update .refl)

theorem endRequest_steady {s : State} {h : Nat} {st : Status} : Steady s (endRequest s h st) := by
  unfold endRequest
  split
  · exact .refl
  · exact postRecord_steady

theorem closeRequests_steady {s : State} {p : Request → Bool} : Steady s (closeRequests s p) :=
  .update (dropRequests_steady.after (.update .refl))

theorem recomputeStep_steady {s : State} {lane : Nat} {sentinel : Bool} : Steady s (recomputeStep s lane sentinel) := by
  unfold recomputeStep
  split
  · exact .refl
  · exact .update (.update .refl)

/-! ### Operations of Machine/Resets -/

theorem enterFatal_kept {s : State} {cause : Nat} {uid : Word} : Kept s (enterFatal s cause uid) :=
  .update (.update (.ite .refl (.update .refl)))

theorem fatalBits_kept {s : State} {cause : Nat} {uid : Word} : Kept s (fatalBits s cause uid) :=
  .update (.update .refl)

theorem resetQueue_steady {s : State} {q : Nat} : Steady s (resetQueue s q) :=
  .update (.update .refl)

theorem flrOne_kept {s : State} {fn : Nat} : Kept s (flrOne s fn) :=
  .ite (.update (.update (.update closeRequests_steady.kept))) (.update (.update closeRequests_steady.kept))

theorem functionReset_kept {s : State} {fn : Nat} : Kept s (functionReset s fn) :=
  .ite (.update (flrOne_kept.after (.update (.foldl (fun _ _ => .ite flrOne_kept .refl) .refl)))) flrOne_kept

theorem hotReset_kept {s : State} : Kept s (hotReset s) :=
  .update functionReset_kept

theorem endAllRequests_kept {s : State} : Kept s (endAllRequests s) :=
  .update dropRequests_steady.kept

theorem chipReset_kept {s : State} {last cause : Nat} : Kept s (chipReset s last cause) :=
  .update (.update (.update (.update endAllRequests_kept)))

theorem flushCounts_steady {s : State} : Steady s (flushCounts s) := by
  refine .foldl (fun _ _ => ?_) .refl
  split
  · exact emitRecord_steady
  · exact .refl

theorem containmentReset_kept {s : State} {cause : Nat} : Kept s (containmentReset s cause) :=
  .update (chipReset_kept.after flushCounts_steady.kept)

theorem containAs_kept {s : State} {kind severity : Nat} {uid : Word} {detail : Bytes} {op : Option OpInfo} :
    Kept s (containAs s kind severity uid detail op) :=
  .ite (.ite (report_steady.kept.after (reportOf_steady.kept.after (enterFatal_kept.after (.update (.update .refl)))))
    (containmentReset_kept.after (reportOf_steady.kept.after (enterFatal_kept.after (.update .refl)))))
    (.ite reportOf_steady.kept .refl)

theorem contain_kept {s : State} {kind : Nat} {uid : Word} {detail : Bytes} {op : Option OpInfo} :
    Kept s (contain s kind uid detail op) :=
  containAs_kept

theorem defaultForModule_kept {s : State} : Kept s (defaultForModule s) :=
  ⟨fun h => ⟨h.1, empty_wf⟩, .refl _, rfl⟩

theorem moduleReset_kept {s : State} {last : Nat} : Kept s (moduleReset s last) :=
  .update (defaultForModule_kept.after flushCounts_steady.kept)

theorem powerUpReset_kept {s : State} : Kept s (powerUpReset s) :=
  .update (defaultForModule_kept.after flushCounts_steady.kept)

theorem railsOff_kept {s : State} {why : Nat} : Kept s (railsOff s why) :=
  .ite (.update (defaultForModule_kept.after flushCounts_steady.kept))
    (report_steady.kept.after (.update (defaultForModule_kept.after flushCounts_steady.kept)))

theorem powerOff_kept {s : State} : Kept s (powerOff s) :=
  ⟨fun h => ⟨h.1, empty_wf⟩, .refl _, rfl⟩

theorem coldPowerOn_kept {s : State} : Kept s (coldPowerOn s) :=
  .update .refl

/-! ### Operations of Machine/Packets -/

theorem setPacketCounter_steady {s : State} {c : Ctx} {n : Nat} : Steady s (setPacketCounter s c n) := by
  unfold setPacketCounter
  split
  · exact .update .refl
  · exact .update .refl

theorem judgePacket_steady {s : State} {row : OpRow} {c : Ctx} : Steady s (judgePacket s row c).1 := by
  unfold judgePacket
  split
  · exact .refl
  · split
    · exact .refl
    · split
      · exact .refl
      · split
        · split
          · exact .refl
          · split
            · exact .refl
            · split
              · exact .refl
              · exact setPacketCounter_steady
        · exact .refl

theorem admitPacket_kept {row : OpRow} {c : Ctx} {s : State} {body : Ctx → State → State} (h : ∀ c t, Kept t (body c t)) :
    Kept s (admitPacket row c s body) :=
  .ite replySt_steady.kept (.ite (.update .refl) (.ite replySt_steady.kept (h _ _)))

theorem carryPacket_kept {c : Ctx} {s : State} {body : Ctx → State → State} (h : ∀ c t, Kept t (body c t)) :
    Kept s (carryPacket c s body) := by
  unfold carryPacket
  split
  · exact replyInvalid_steady.kept
  · rename_i row _
    have hj := (judgePacket_steady (s := s) (row := row) (c := c)).kept
    split
    · rename_i s1 _ _ heq
      rw [heq] at hj
      exact hj.trans reply_steady.kept
    · rename_i s1 heq
      rw [heq] at hj
      exact hj.trans (admitPacket_kept h)

theorem packetRow_kept {opcode : Nat} {p : Pkt} {s : State} {mk : Ctx → Ctx} {body : Ctx → State → State}
    (h : ∀ c t, Kept t (body c t)) : Kept s (packetRow opcode p s mk body) := by
  unfold packetRow
  split
  · exact .refl
  · exact .ite .refl (.ite (replyInvalid_steady.kept.after (.update .refl))
      (.ite .refl ((carryPacket_kept h).after (.update .refl))))

/-! ### Operations of Machine/Datagrams -/

theorem sendMessage_steady {s : State} {port : Nat} {dest : BitVec 128} {kind : Nat} {payloads : List Bytes}
    {ask : Option Purpose} : Steady s (sendMessage s port dest kind payloads ask) :=
  .ite (.update .refl) (.update (.update .refl))

theorem readShard_steady {k : ObjKind} {h gen : Nat} {s : State} {e : Nat × Shard} : Steady s (readShard k h gen s e) := by
  refine .ite .refl ?_
  split
  · exact .refl
  · exact .foldl (fun _ _ => sendMessage_steady) .refl

theorem requestShard_steady {k : ObjKind} {h gen : Nat} {s : State} {e : Nat × Shard} :
    Steady s (requestShard k h gen s e) :=
  .ite .refl readShard_steady

theorem requestShards_steady {s : State} {k : ObjKind} {h : Nat} {g : Generation} : Steady s (requestShards s k h g) :=
  .foldl (fun _ _ => requestShard_steady) .refl

theorem sendUnit_steady {port : Nat} {dest : BitVec 128} {ask : Purpose} {unit : Nat} {s : State} {data : Bytes} :
    Steady s (sendUnit port dest ask unit s data) :=
  .foldl (fun _ _ => sendMessage_steady) .refl

theorem sendBlock_steady {port unit : Nat} {ask : Purpose} {image : Bytes} {s : State} :
    Steady s (sendBlock port unit ask image s) := by
  unfold sendBlock
  split
  · exact .refl
  · exact .foldl (fun _ _ => sendUnit_steady) .refl

theorem readBlock_steady {port unit len : Nat} {s : State} : Steady s (readBlock port unit len s) := by
  unfold readBlock
  split
  · exact .refl
  · exact .foldl (fun _ _ => sendMessage_steady) .refl

/-! ### Operations of Machine/Models -/

theorem freeObject_steady {s : State} {k : ObjKind} {h : Nat} : Steady s (freeObject s k h) := by
  unfold freeObject
  split
  · exact .refl
  · exact .update (.foldl (fun _ _ => .update .refl) .refl)

theorem freeGen_steady {s : State} {k : ObjKind} {h gen : Nat} : Steady s (freeGen s k h gen) :=
  .update (.update .refl)

theorem addReference_steady {c : Ctx} {s : State} {o : LoadedObject} {g : Generation} : Steady s (addReference c s o g) :=
  .ite replySt_steady (replyOk_steady.after (.update .refl))

theorem joinLoad_steady {c : Ctx} {s : State} {o : LoadedObject} : Steady s (joinLoad c s o) :=
  .ite replySt_steady (.update (.update .refl))

theorem loadObject_steady {kinds : List Nat} {c : Ctx} {s : State} : Steady s (loadObject kinds c s) := by
  refine .ite replySt_steady ?_
  split
  · split
    · exact addReference_steady
    · exact joinLoad_steady
  · split
    · exact reply_steady
    · split
      · exact replyInvalid_steady
      · split
        · exact replySt_steady
        · exact requestShards_steady.after (.update (.update .refl))

theorem bodyModelLoad_steady {c : Ctx} {s : State} : Steady s (bodyModelLoad c s) :=
  loadObject_steady

theorem bodyAdapterLoad_steady {c : Ctx} {s : State} : Steady s (bodyAdapterLoad c s) :=
  loadObject_steady

theorem startReplace_steady {c : Ctx} {s : State} {k : ObjKind} {o : LoadedObject} {whenPlaced : Bool} :
    Steady s (startReplace c s k o whenPlaced) :=
  requestShards_steady.after (.update (.update .refl))

theorem bodyModelReplace_steady {c : Ctx} {s : State} : Steady s (bodyModelReplace c s) := by
  refine .ite replyInvalid_steady ?_
  split
  · exact replySt_steady
  · refine .ite replySt_steady (.ite replySt_steady (.ite replySt_steady ?_))
    split
    · exact reply_steady
    · exact .ite replySt_steady startReplace_steady

theorem bodyAdapterReplace_steady {c : Ctx} {s : State} : Steady s (bodyAdapterReplace c s) := by
  refine .ite replyInvalid_steady ?_
  split
  · exact replySt_steady
  · refine .ite replySt_steady (.ite replySt_steady (.ite replySt_steady ?_))
    split
    · exact reply_steady
    · exact startReplace_steady.after (.update .refl)

theorem bodyModelRetire_steady {c : Ctx} {s : State} : Steady s (bodyModelRetire c s) := by
  refine .ite replyInvalid_steady ?_
  split
  · exact replySt_steady
  · exact .ite replySt_steady (.ite (replyOk_steady.after (.update .refl))
      (.ite replySt_steady (replyOk_steady.after (.update freeObject_steady))))

theorem bodyAdapterRetire_steady {c : Ctx} {s : State} : Steady s (bodyAdapterRetire c s) := by
  refine .ite replyInvalid_steady ?_
  split
  · exact replySt_steady
  · exact .ite replySt_steady (.ite (replyOk_steady.after (.update .refl)) (replyOk_steady.after (.update (.update .refl))))

theorem bodyModelStatusRead_steady {c : Ctx} {s : State} : Steady s (bodyModelStatusRead c s) := by
  unfold bodyModelStatusRead
  split
  · exact replyInvalid_steady
  · exact .ite replyInvalid_steady replyBuffer_steady

theorem bodyPublisherKeyRegister_steady {c : Ctx} {s : State} : Steady s (bodyPublisherKeyRegister c s) :=
  .ite replyInvalid_steady (.ite replyInvalid_steady (replyOk_steady.after (.update .refl)))

theorem bodyRehashPeriodSet_steady {c : Ctx} {s : State} : Steady s (bodyRehashPeriodSet c s) :=
  .ite replyInvalid_steady (replyOk_steady.after (.update .refl))

theorem answerLoad_steady {s : State} {k : ObjKind} {h gen : Nat} {st : Status} {detail : Nat} {result : Bytes} :
    Steady s (answerLoad s k h gen st detail result) :=
  finishJobs_steady

theorem abandonGen_steady {s : State} {k : ObjKind} {h gen : Nat} {st : Status} {detail : Nat} :
    Steady s (abandonGen s k h gen st detail) :=
  .update (answerLoad_steady.after (freeGen_steady.after (.update .refl)))

theorem useAdapter_steady {o : LoadedObject} {s : State} {g : Generation} : Steady s (useAdapter o s g) :=
  answerLoad_steady.after (.update .refl)

theorem adaptersUsable_steady {s : State} : Steady s (adaptersUsable s) :=
  .foldl (fun _ _ => .foldl (fun _ _ => useAdapter_steady) .refl) .refl

theorem adaptersAtRest_steady {s : State} : Steady s (adaptersAtRest s) :=
  .ite .refl adaptersUsable_steady

theorem generationVerified_steady {s : State} {k : ObjKind} {h : Nat} {g : Generation} :
    Steady s (generationVerified s k h g) := by
  refine .ite abandonGen_steady (.ite (.ite adaptersAtRest_steady (.update (.update .refl))) ?_)
  dsimp only
  split
  · exact .refl
  · exact .ite (.ite (answerLoad_steady.after (.update .refl)) (.update (answerLoad_steady.after (.update .refl))))
      (.ite (.update (.foldl (fun _ _ => freeGen_steady) (answerLoad_steady.after (.update .refl)))) (.update .refl))

theorem sourceReport_steady {s : State} {h index : Nat} {x : Shard} {st : Status} :
    Steady s (sourceReport s h index x st) :=
  report_steady

theorem shardArrive_steady {k : ObjKind} {h : Nat} {r : ShardRef} {bytes : Option Bytes} {s : State} :
    Steady s (shardArrive k h r bytes s) := by
  unfold shardArrive
  dsimp only
  split
  · exact .refl
  · split
    · exact .refl
    · split
      · exact .ite abandonGen_steady .refl
      · refine .ite ?_ (.ite (.ite abandonGen_steady sourceReport_steady)
          (requestShard_steady.after (.update (.update .refl))))
        split
        · exact .ite abandonGen_steady sourceReport_steady
        · exact .ite (generationVerified_steady.after (.ite (.update (.update (.update .refl))) (.update (.update .refl))))
            (.ite (.update (.update (.update .refl))) (.update (.update .refl)))

theorem shardRehashed_steady {s : State} {k : ObjKind} {h : Nat} {g0 : Generation} {index : Nat} {transient : Bool} :
    Steady s (shardRehashed s k h g0 index transient) := by
  unfold shardRehashed
  dsimp only
  split
  · exact .ite (.update .refl) (readShard_steady.after (.update .refl))
  · exact .update .refl

theorem rehashShard_kept {k : ObjKind} {h : Nat} {r : ShardRef} {loc : HbmLoc} {bytes again : Bytes} {s : State} :
    Kept s (rehashShard k h r loc bytes again s) := by
  unfold rehashShard
  dsimp only
  split
  · exact .refl
  · split
    · exact .refl
    · exact .ite .refl (.ite shardRehashed_steady.kept (.ite (report_steady.kept.after shardRehashed_steady.kept)
        (.ite contain_kept (sourceReport_steady.kept.after shardRehashed_steady.kept))))

/-! ### Operations of Machine/ArrayOps -/

theorem wideLayersOf_steady {s : State} {a : Nat} : Steady s (wideLayersOf s a) :=
  .foldl (fun _ _ => .update .refl) .refl

theorem wideLayersNext_steady {s : State} {a : Nat} : Steady s (wideLayersNext s a) :=
  .foldl (fun _ _ => .update .refl) .refl

theorem settleDiagnosis_steady {s : State} {n : Nat} : Steady s (settleDiagnosis s n) :=
  .ite (.update .refl) .refl

theorem siteReleased_steady {s : State} {n : Nat} : Steady s (siteReleased s n) :=
  settleDiagnosis_steady.after (.update .refl)

theorem reloadSite_steady {s : State} {n : Nat} : Steady s (reloadSite s n) :=
  settleDiagnosis_steady.after (.update .refl)

theorem startDiagnosis_steady {s : State} {n : Nat} : Steady s (startDiagnosis s n) :=
  settleDiagnosis_steady.after (.update .refl)

theorem settleCal_steady {s : State} {a : Nat} : Steady s (settleCal s a) :=
  .ite .refl (finishJobs_steady.after (.ite siteReleased_steady .refl))

theorem replaceContents_steady {s : State} {a : Nat} : Steady s (replaceContents s a) :=
  .ite (.update .refl) .refl

theorem retireArray_steady {s : State} {a : Nat} : Steady s (retireArray s a) :=
  replaceContents_steady.after (settleCal_steady.after (.update wideLayersNext_steady))

theorem retireReported_steady {s : State} {a cause : Nat} : Steady s (retireReported s a cause) :=
  report_steady.after retireArray_steady

theorem quarantineOnly_steady {s : State} {a : Nat} : Steady s (quarantineOnly s a) :=
  .ite .refl (replaceContents_steady.after (settleCal_steady.after (.update wideLayersOf_steady)))

theorem quarantineArray_steady {s : State} {a : Nat} : Steady s (quarantineArray s a) :=
  startDiagnosis_steady.after quarantineOnly_steady

theorem quarantineSite_steady {s : State} {n : Nat} : Steady s (quarantineSite s n) :=
  .foldl (fun _ _ => quarantineOnly_steady) .refl

theorem reportWear_steady {s : State} {a : Nat} : Steady s (reportWear s a) :=
  .ite report_steady .refl

theorem beginProgram_steady {s : State} {p : Programming} : Steady s (beginProgram s p) :=
  reportWear_steady.after (settleCal_steady.after (.update (.update (.update .refl))))

theorem startPrograms_steady {s : State} : Steady s (startPrograms s) := by
  unfold startPrograms
  split
  · exact .refl
  · exact .foldl (fun _ _ => .ite (.update retireArray_steady) (.ite (.update beginProgram_steady) .refl)) .refl

/-! ### Operations of Machine/LayerPlans -/

theorem historySet_steady {s : State} {h : LayerHistory} : Steady s (historySet s h) :=
  .ite (.update .refl) (.update .refl)

/-! ### Operations of Machine/Planner -/

theorem bodyGraphSubmit_steady {c : Ctx} {s : State} : Steady s (bodyGraphSubmit c s) :=
  .ite replySt_steady (.ite replySt_steady (.update (.update .refl)))

theorem bodyGraphRetire_steady {c : Ctx} {s : State} : Steady s (bodyGraphRetire c s) := by
  unfold bodyGraphRetire
  split
  · exact replySt_steady
  · exact .ite replySt_steady (.update (.update (.update .refl)))

theorem bodyPlanRead_steady {c : Ctx} {s : State} : Steady s (bodyPlanRead c s) :=
  replyBuffer_steady

theorem buildStarts_steady {c : BuildCause} {s : State} : Steady s (buildStarts c s) :=
  .ite (.update .refl) .refl

theorem replanStarts_steady {g : Nat} {s : State} : Steady s (replanStarts g s) := by
  unfold replanStarts
  split
  · exact .ite (.update .refl) .refl
  · exact .refl

theorem placeSubmission_steady {base : List LanePlan} {st : State × List LanePlan} {jp : Job × Placement} :
    Steady st.1 (placeSubmission base st jp).1 := by
  unfold placeSubmission
  dsimp only
  split
  · split
    · exact replyTo_steady.after (.update .refl)
    · exact .update .refl
  · exact .refl

theorem spreadChecks_steady {s : State} {code : Nat} {arrays : List Nat} : Steady s (spreadChecks s code arrays) := by
  unfold spreadChecks
  split
  · exact .refl
  · exact .foldl (fun _ _ => .update .refl) .refl

theorem reportPair_steady {s : State} {severity code : Nat} : Steady s (reportPair s severity code) :=
  report_steady

theorem settlePair_steady {s : State} {fresh : Bool} : Steady s (settlePair s fresh) :=
  .ite (reportPair_steady.after (.update .refl)) (.update .refl)

theorem settleGens_steady {s : State} : Steady s (settleGens s) := by
  refine .foldl (fun _ _ => ?_) .refl
  split
  · exact .refl
  · exact .ite freeGen_steady .refl
  · exact .refl

theorem unpairLane_steady {s : State} {g : Nat} : Steady s (unpairLane s g) :=
  settlePair_steady.after (.update .refl)

theorem switchLane_steady {s : State} {g : Nat} : Steady s (switchLane s g) := by
  unfold switchLane
  split
  · split
    · exact .refl
    · exact .ite .refl (settleGens_steady.after
        (.update (.ite (spreadChecks_steady.after
        (.update (.foldl (fun _ _ => .update .refl) (.ite .refl unpairLane_steady))))
        (.update (.foldl (fun _ _ => .update .refl) (.ite .refl unpairLane_steady))))))
  · exact .refl

theorem switchIdle_steady {s : State} : Steady s (switchIdle s) :=
  .foldl (fun _ _ => .ite switchLane_steady .refl) .refl

theorem planObject_steady {p : Plan} {s : State} {e : ObjKind × Nat × Nat} : Steady s (planObject p s e) := by
  obtain ⟨k, h, n⟩ := e
  unfold planObject
  dsimp only
  split
  · exact .refl
  · exact .ite (.ite (.update .refl) .refl) (.ite (.ite (.update (answerLoad_steady.after (.update .refl)))
      (.ite (answerLoad_steady.after (.update .refl)) (.update .refl))) (.ite (.update .refl) .refl))

theorem planObjects_steady {s : State} {p : Plan} : Steady s (planObjects s p) :=
  .foldl (fun _ _ => planObject_steady) .refl

theorem markMissed_steady {s : State} {p : Plan} : Steady s (markMissed s p) := by
  refine .ite (.foldl (fun _ _ => ?_) .refl) .refl
  split
  · exact .ite (.update .refl) (report_steady.after (.update .refl))
  · exact .refl

theorem pairPlanned_steady {s : State} {p : Plan} : Steady s (pairPlanned s p) :=
  .ite (finishJobs_steady.after (.update .refl)) .refl

theorem takeUpPlan_steady {epoch : Nat} {s : State} {l : LanePlan} : Steady s (takeUpPlan epoch s l) := by
  refine .ite .refl ?_
  split
  · exact .update (switchLane_steady.after (.update .refl))
  · exact .ite switchLane_steady .refl

theorem removeLane_steady {s : State} {g : Nat} : Steady s (removeLane s g) :=
  .update (.foldl (fun _ _ => .update .refl) .refl)

theorem makeReady_steady {s : State} {p : Plan} : Steady s (makeReady s p) :=
  finishJobs_steady.after
    (settlePair_steady.after
    (pairPlanned_steady.after
    (.update (.foldl (fun _ _ => .update .refl)
    (markMissed_steady.after
    (settleGens_steady.after
    (.foldl (fun _ _ => takeUpPlan_steady)
    (adaptersAtRest_steady.after (planObjects_steady.after (.foldl (fun _ _ => removeLane_steady) (.update .refl)))))))))))

theorem planBecomesReady_steady {s : State} : Steady s (planBecomesReady s) := by
  unfold planBecomesReady
  split
  · exact .refl
  · exact .ite makeReady_steady .refl

theorem dropUnplaced_steady {s : State} {ls : List LanePlan} : Steady s (dropUnplaced s ls) :=
  .foldl (fun _ _ => .foldl (fun _ _ => retireReported_steady) (.update .refl)) .refl

theorem buildDecides_steady {r : BuildResult} {b : Build} {s : State} : Steady s (buildDecides r b s).state := by
  have hplaced : ∀ (l : List (Job × Placement)) (st : State × List LanePlan),
      Steady st.1 (l.foldl (placeSubmission (standingLanes r b s)) st).1 := by
    intro l
    induction l with
    | nil => exact fun _ => .refl
    | cons jp l ih => exact fun st => placeSubmission_steady.trans (ih _)
  have hfold := hplaced ((takenSubmissions s).zip r.placements) (s, [])
  unfold buildDecides
  dsimp only
  split
  · exact hfold
  · exact .update hfold

theorem buildCompletes_steady {r : BuildResult} {s : State} : Steady s (buildCompletes r s) := by
  unfold buildCompletes
  split
  · exact .refl
  · exact .ite .refl (.ite (.update buildDecides_steady)
      (planBecomesReady_steady.after
      (startPrograms_steady.after (dropUnplaced_steady.after (.update (.update (.update buildDecides_steady)))))))

theorem installVariant_steady {s : State} {code : Nat} : Steady s (installVariant s code) :=
  switchIdle_steady.after (.update .refl)

theorem variantDown_steady {s : State} : Steady s (variantDown s) :=
  .ite installVariant_steady .refl

theorem variantRaises_steady {s : State} : Steady s (variantRaises s) := by
  unfold variantRaises
  split
  · exact installVariant_steady
  · exact .refl

theorem bodyCheckFractionSet_steady {c : Ctx} {s : State} : Steady s (bodyCheckFractionSet c s) :=
  .ite replyInvalid_steady (.update (.update (.update .refl)))

/-! ### Operations of Machine/Kv -/

theorem appendToken_steady {h g : Nat} {kv : List NewKv} {s : State} {i : Nat} : Steady s (appendToken h g kv s i) := by
  unfold appendToken
  split
  · exact .refl
  · split
    · exact .refl
    · exact .ite (.update .refl) (.update .refl)

theorem appendKv_steady {s : State} {h g n : Nat} {kv : List NewKv} : Steady s (appendKv s h g n kv) :=
  .foldl (fun _ _ => appendToken_steady) .refl

theorem bodyKvMapRead_steady {c : Ctx} {s : State} : Steady s (bodyKvMapRead c s) := by
  unfold bodyKvMapRead
  split
  · exact replySt_steady
  · exact .ite replySt_steady replyBuffer_steady

theorem copyBlock_steady {h : Nat} {s : State} {i : Nat} : Steady s (copyBlock h s i) := by
  unfold copyBlock
  split
  · exact .refl
  · exact .ite sendBlock_steady .refl

theorem copyBlocks_steady {s : State} {h : Nat} : Steady s (copyBlocks s h) :=
  .foldl (fun _ _ => copyBlock_steady) .refl

theorem leaveBatch_steady {s : State} {g h : Nat} : Steady s (leaveBatch s g h) :=
  .update (.update .refl)

theorem preempt_steady {s : State} {h : Nat} : Steady s (preempt s h) := by
  unfold preempt
  split
  · exact .refl
  · split
    · exact endRequest_steady
    · exact postRecord_steady.after (copyBlocks_steady.after (.update (.update leaveBatch_steady)))

theorem relocateBlocks_steady {s t : State} (h : relocateBlocks s = some t) : Steady s t := by
  refine Steady.foldl_bind (fun u h t ht => ?_) h
  split at ht
  · cases ht
    exact .refl
  · refine Steady.foldl_bind (fun w i t ht => ?_) ht
    dsimp only at ht
    split at ht
    · cases ht
      exact .refl
    · split at ht
      · cases ht
      · obtain ⟨a, -, rfl⟩ := Option.map_eq_some_iff.mp ht
        exact .update .refl

theorem preemptFor_steady {s : State} {starting : List Nat} : Steady s (preemptFor s starting) :=
  .foldl (fun _ _ => .ite preempt_steady .refl) .refl

theorem makeRoom_steady {s : State} {g need : Nat} {starting : List Nat} : Steady s (makeRoom s g need starting) :=
  .ite .refl (.ite (.foldl (fun _ _ => .ite preempt_steady .refl) .refl) .refl)

theorem settlePool_steady {s : State} : Steady s (settlePool s) := by
  unfold settlePool
  split
  · exact .refl
  · split
    · exact .refl
    · rename_i t heq
      split at heq
      · exact (relocateBlocks_steady heq).trans (finishJobs_steady.after (.update (.update .refl)))
      · cases heq

theorem copyLands_steady {s : State} {b : Block} : Steady s (copyLands s b) :=
  .ite hostWrite_steady .refl

theorem blockCopied_steady {h : Nat} {s : State} : Steady s (blockCopied h s) := by
  unfold blockCopied
  split
  · exact .refl
  · split
    · exact .refl
    · exact .ite .refl (settlePool_steady.after (.update (.update copyLands_steady)))

theorem blockReturned_steady {h : Nat} {s : State} : Steady s (blockReturned h s) := by
  unfold blockReturned
  split
  · exact .refl
  · split
    · exact .refl
    · exact .ite .refl (.ite (.update (.update .refl)) (.update .refl))

theorem returnBlocks_steady {s t : State} {h : Nat} {r : Request} (ht : returnBlocks s h r = some t) : Steady s t := by
  refine Steady.foldl_bind (fun u bi t ht => ?_) ht
  split at ht
  · cases ht
    exact .refl
  · obtain ⟨a, -, rfl⟩ := Option.map_eq_some_iff.mp ht
    exact .ite (readBlock_steady.after (.update .refl)) (.update .refl)

theorem bringBack_go_steady (l : List (Nat × Request)) (s : State) : Steady s (bringBack.go l s) := by
  induction l generalizing s with
  | nil => exact .refl
  | cons e es ih =>
    unfold bringBack.go
    split
    · rename_i u heq
      split at heq
      · exact (returnBlocks_steady heq).trans (ih u)
      · cases heq
    · exact .refl

theorem bringBack_steady {s : State} : Steady s (bringBack s) :=
  bringBack_go_steady _ s

theorem bodyKvPoolSet_steady {c : Ctx} {s : State} : Steady s (bodyKvPoolSet c s) :=
  .ite replyInvalid_steady (.ite replySt_steady (settlePool_steady.after (.update (.update .refl))))

theorem bodyKvSwapRegister_steady {c : Ctx} {s : State} : Steady s (bodyKvSwapRegister c s) :=
  .ite replyInvalid_steady (.ite replyInvalid_steady (.ite replySt_steady (replyOk_steady.after (.update .refl))))

/-! ### Operations of Machine/Drift -/

theorem boundaryArray_steady {s : State} {a : Nat} : Steady s (boundaryArray s a) :=
  .update (.update .refl)

theorem boundaryDelay_steady {s : State} {n : Nat} : Steady s (boundaryDelay s n) :=
  .ite .refl (.update .refl)

theorem programAgain_steady {s : State} {a : Nat} : Steady s (programAgain s a) := by
  refine .ite ?_ .refl
  split
  · exact .ite beginProgram_steady .refl
  · exact .refl

theorem startCalibration_steady {s : State} {a : Nat} : Steady s (startCalibration s a) :=
  .update (.update (.update .refl))

theorem calibrateSite_steady {may : Nat → Bool} {s : State} {n : Nat} : Steady s (calibrateSite may s n) := by
  refine .ite ?_ .refl
  split
  · exact startCalibration_steady
  · exact .refl

theorem adaptersTakeEffect_steady {s : State} {g : Nat} : Steady s (adaptersTakeEffect s g) :=
  .ite .refl (.update (.update .refl))

theorem adaptersJudged_steady {s : State} {g : Nat} : Steady s (adaptersJudged s g) :=
  .ite .refl (.update (.update .refl))

theorem loadTable_steady {l : Lane} {s : State} {n : Nat} : Steady s (loadTable l s n) := by
  unfold loadTable
  split
  · exact .refl
  · exact .update .refl

theorem boundaryArrays_steady {s : State} {g : Nat} : Steady s (boundaryArrays s g) := by
  unfold boundaryArrays
  split
  · exact .refl
  · exact .ite (.foldl (fun _ _ => calibrateSite_steady) (.foldl (fun _ _ => programAgain_steady)
      (.foldl (fun _ _ => loadTable_steady) (.foldl (fun _ _ => boundaryDelay_steady)
      (.foldl (fun _ _ => boundaryArray_steady)
      (adaptersJudged_steady.after (adaptersTakeEffect_steady.after (.update .refl))))))))
      (.foldl (fun _ _ => programAgain_steady)
      (.foldl (fun _ _ => loadTable_steady) (.foldl (fun _ _ => boundaryDelay_steady)
      (.foldl (fun _ _ => boundaryArray_steady)
      (adaptersJudged_steady.after (adaptersTakeEffect_steady.after (.update .refl)))))))

theorem resumeLane_steady {s : State} {g : Nat} : Steady s (resumeLane s g) :=
  .ite (.update .refl) .refl

/-! ### Operations of Machine/Calibrate -/

theorem calibrationFallsDue_steady {a : Nat} {s : State} : Steady s (calibrationFallsDue a s) :=
  .ite (.update .refl) .refl

theorem calibrationGap_steady {n : Nat} {s : State} : Steady s (calibrationGap n s) :=
  .ite .refl (calibrateSite_steady.after (.foldl (fun _ _ => programAgain_steady) startPrograms_steady))

theorem answerCal_steady {s : State} {a : Nat} {st : Status} {result : Bytes} : Steady s (answerCal s a st result) :=
  finishJobs_steady

theorem releaseCal_steady {s : State} {n a : Nat} : Steady s (releaseCal s n a) :=
  siteReleased_steady.after (.update .refl)

theorem raiseDelay_steady {s : State} {n delayNs : Nat} : Steady s (raiseDelay s n delayNs) :=
  .ite (.update .refl) (boundaryDelay_steady.after (.update .refl))

theorem calibrationDone_steady {s0 : State} {n a rounds sigma : Nat} {fit : List (Nat × Int)} {delayNs : Nat} :
    Steady s0 (calibrationDone s0 n a rounds sigma fit delayNs) :=
  answerCal_steady.after
    (.update (.ite (.update (releaseCal_steady.after raiseDelay_steady))
    (.update (.update (releaseCal_steady.after raiseDelay_steady)))))

theorem calibrationFails_steady {s : State} {n a rounds : Nat} : Steady s (calibrationFails s n a rounds) := by
  unfold calibrationFails
  dsimp only
  split
  · exact .update releaseCal_steady
  · exact report_steady.after (retireArray_steady.after (answerCal_steady.after (.update releaseCal_steady)))

theorem roundEnds_steady {n : Nat} {charges check : List (List Int)} {timerNs delayNs : Nat} {s : State} :
    Steady s (roundEnds n charges check timerNs delayNs s) := by
  unfold roundEnds
  split
  · exact .refl
  · exact .ite (calibrationDone_steady.after (.update .refl)) (.ite (.update (.update (.update .refl)))
      (calibrationFails_steady.after (.update .refl)))

theorem calibrationTimesOut_steady {n : Nat} {s : State} : Steady s (calibrationTimesOut n s) := by
  unfold calibrationTimesOut
  split
  · exact .ite calibrationFails_steady .refl
  · exact .refl

theorem rotateSpare_steady {n : Nat} {s : State} : Steady s (rotateSpare n s) :=
  .ite .refl (.update .refl)

theorem siteQuarantined_steady {s : State} {n cause : Nat} : Steady s (siteQuarantined s n cause) :=
  report_steady.after (startDiagnosis_steady.after quarantineSite_steady)

theorem fixSpare_steady {s : State} {n slice : Nat} : Steady s (fixSpare s n slice) :=
  .update (.update .refl)

theorem sliceFails_steady {s : State} {n slice : Nat} : Steady s (sliceFails s n slice) :=
  .ite .refl (.ite siteQuarantined_steady (report_steady.after fixSpare_steady))

theorem sliceEnds_steady {n slice : Nat} {trim : List (Int × Nat)} {s : State} : Steady s (sliceEnds n slice trim s) :=
  .ite .refl (.ite (.update .refl) (.ite (.update .refl) (.ite (.update .refl) (sliceFails_steady.after (.update .refl)))))

/-! ### Operations of Machine/LayerSteps -/

theorem countUnits_steady {s : State} {k : LayerKey} {p : LayerPlan} {i : Nat} : Steady s (countUnits s k p i) :=
  .foldl (fun _ _ => .update .refl) .refl

theorem dropSiteSteps_steady {s : State} {k : LayerKey} : Steady s (dropSiteSteps s k) :=
  .foldl (fun _ _ => settleDiagnosis_steady) (.update .refl)

theorem clearActive_steady {s : State} {p : LayerPlan} : Steady s (clearActive s p) :=
  .foldl (fun _ _ => .update .refl) .refl

theorem discardAttempt_steady {s : State} {k : LayerKey} {p : LayerPlan} : Steady s (discardAttempt s k p) :=
  .update (clearActive_steady.after dropSiteSteps_steady)

theorem goWide_steady {s : State} {k : LayerKey} {stage : Nat} : Steady s (goWide s k stage) := by
  unfold goWide
  split
  · exact .update (countUnits_steady.after (.update (discardAttempt_steady.after (.update .refl))))
  · exact .refl

theorem countOutliers_steady {s : State} {k : LayerKey} {l : List (Nat × Nat)} : Steady s (countOutliers s k l) :=
  .foldl (fun _ _ => .update .refl) .refl

theorem goWideAtOnce_steady {s : State} {k : LayerKey} {p : LayerPlan} {x : LayerStep} {stage : Nat} :
    Steady s (goWideAtOnce s k p x stage) :=
  goWide_steady.after countOutliers_steady

theorem replayStep_steady {s : State} {k : LayerKey} {cause : ReplayCause} : Steady s (replayStep s k cause) := by
  unfold replayStep
  split
  · refine .ite goWide_steady ?_
    dsimp only
    split
    · exact .ite (goWideAtOnce_steady.after
        (.update (countUnits_steady.after (.ite (historySet_steady.after (.update discardAttempt_steady))
        (.update discardAttempt_steady)))))
        (.update (countUnits_steady.after (.ite (historySet_steady.after (.update discardAttempt_steady))
        (.update discardAttempt_steady))))
    · exact .update (countUnits_steady.after (.ite (historySet_steady.after (.update discardAttempt_steady))
        (.update discardAttempt_steady)))
  · exact .refl

theorem openLayerStep_steady {s : State} {k : LayerKey} {replica : Nat} {p : LayerPlan} {xs : List F32} :
    Steady s (openLayerStep s k replica p xs) :=
  .ite (goWide_steady.after (.update .refl))
    (.ite (goWideAtOnce_steady.after (.update (historySet_steady.after (.update .refl))))
    (.update (historySet_steady.after (.update .refl))))

theorem rowArrives_steady {n row : Nat} {k : LayerKey} {s : State} : Steady s (rowArrives n row k s) := by
  unfold rowArrives
  split
  · exact .refl
  · split
    · exact .refl
    · exact .update .refl

theorem partialArrives_steady {k : LayerKey} {col idx : Nat} {unit : UnitNo} {s : State} :
    Steady s (partialArrives k col idx unit s) := by
  unfold partialArrives
  split
  · refine .ite .refl ?_
    split
    · exact .refl
    · exact .update (.update .refl)
  · exact .refl

theorem drainEnds_steady {u : Nat} {s : State} : Steady s (drainEnds u s) := by
  unfold drainEnds
  split
  · exact .refl
  · exact .update (.update .refl)

theorem drainLayer_steady {s : State} {k : LayerKey} {p : LayerPlan} {x : LayerStep} : Steady s (drainLayer s k p x) := by
  refine .foldl (fun _ _ => ?_) .refl
  split
  · exact .refl
  · exact .foldl (fun _ _ => .update .refl) .refl

theorem splitTaken_steady {s : State} {k : LayerKey} {p : LayerPlan} {x : LayerStep} : Steady s (splitTaken s k p x) :=
  .ite (.update (.update countUnits_steady)) .refl

theorem tailEnds_steady {k : LayerKey} {s : State} : Steady s (tailEnds k s) := by
  unfold tailEnds
  split
  · exact .ite .refl (.ite (replayStep_steady.after splitTaken_steady)
      (.update (drainLayer_steady.after (.ite splitTaken_steady (.update splitTaken_steady)))))
  · exact .refl

theorem wideCompletes_steady {g node : Nat} {s : State} : Steady s (wideCompletes g node s) := by
  unfold wideCompletes
  split
  · exact .foldl (fun _ _ => .update (.update .refl)) .refl
  · exact .refl

theorem settleMeans_steady {s : State} {h : Nat} : Steady s (settleMeans s h) := by
  unfold settleMeans
  split
  · exact .refl
  · exact .update .refl

/-! ### Operations of Machine/Convert -/

theorem deliverStale_steady {s : State} {l : LayerStep} {a : ArrayNo} : Steady s (deliverStale s l a) :=
  .update (.update countOutliers_steady)

theorem driveArray_steady {n : Nat} {p : LayerPlan} {l : LayerStep} {s : State} : Steady s (driveArray n p l s) := by
  unfold driveArray
  dsimp only
  split
  · exact .refl
  · exact .ite goWide_steady (.ite deliverStale_steady (.ite (countOutliers_steady.after (.update .refl)) .refl))

theorem driveFirst_steady {n : Nat} {i : LayerInput} {s : State} : Steady s (driveFirst n i s) := by
  unfold driveFirst
  dsimp only
  split
  · exact .refl
  · refine .ite .refl ?_
    split
    · exact .ite (.ite .refl openLayerStep_steady) (driveArray_steady.after (.ite .refl openLayerStep_steady))
    · exact .ite .refl openLayerStep_steady

theorem guardExpires_steady {n : Nat} {s : State} : Steady s (guardExpires n s) := by
  unfold guardExpires
  dsimp only
  split
  · exact .refl
  · exact .ite (reportOf_steady.after (quarantineArray_steady.after (.update .refl))) (.update .refl)

theorem sweepEnds_steady {n : Nat} {charges : List Int} {s : State} : Steady s (sweepEnds n charges s) :=
  .ite (.ite (reloadSite_steady.after (.update .refl)) (.update .refl)) (.ite (.update .refl) (.update .refl))

theorem takeStep_steady {s : State} {a : ArrayStep} {sat : Nat} : Steady s (takeStep s a sat) := by
  unfold takeStep
  dsimp only
  split
  · exact .ite (.ite .refl (.update .refl)) (.ite (replayStep_steady.after (.ite .refl (.update .refl)))
      (.ite (replayStep_steady.after (.ite .refl (.update .refl))) (.update (.update (.ite .refl (.update .refl))))))
  · exact .ite .refl (.update .refl)

theorem handsOver_steady {n : Nat} {s : State} : Steady s (handsOver n s) := by
  unfold handsOver
  split
  · exact .refl
  · exact .ite .refl (settleDiagnosis_steady.after (takeStep_steady.after (.update .refl)))

/-! ### Operations of Machine/Check -/

theorem recomputeSeq_steady {s : State} {k : LayerKey} : Steady s (recomputeSeq s k) := by
  unfold recomputeSeq
  split
  · exact .refl
  · exact .update (.update .refl)

theorem settleCheck_steady {s : State} {a : Nat} {k : LayerKey} {gain : Fin 4} {band : Nat} {es : List Int}
    {failed : Bool} :
    Steady s (settleCheck s a k gain band es failed) :=
  .ite (.ite (reportOf_steady.after (.update (.update (.update .refl)))) (.update (.update .refl)))
    (.ite (recomputeSeq_steady.after (.update (.update .refl)))
    (recomputeSeq_steady.after (reportOf_steady.after (quarantineArray_steady.after (.update (.update (.update .refl)))))))

theorem settleProbe_steady {s : State} {a : ArrayNo} {k : LayerKey} {p : LayerPlan} {q : Pattern} {packs : List ProbePack}
    {golden : List (List F32)} {charges : List (List Int)} : Steady s (settleProbe s a k p q packs golden charges) :=
  .ite (.update (.update (.update (.update .refl))))
    (.ite (report_steady.after
    (quarantineArray_steady.after (.update (report_steady.after (.update (.update (.update (.update .refl))))))))
    (report_steady.after (.update (.update (.update (.update .refl))))))

theorem checkCompletes_steady {a : ArrayNo} {k : LayerKey} {charges : List (List Int)} {s : State} :
    Steady s (checkCompletes a k charges s) := by
  unfold checkCompletes
  dsimp only
  split
  · exact .refl
  · split
    · exact .ite (settleProbe_steady.after (.update .refl)) .refl
    · exact settleCheck_steady.after (.update .refl)

theorem probeSummaries_steady {s : State} : Steady s (probeSummaries s) :=
  .ite (.foldl (fun _ _ => report_steady) .refl) .refl

/-! ### Operations of Machine/Repair -/

theorem programEnds_steady {s : State} {a : Nat} {p : Programming} {stuck : List CellReading} :
    Steady s (programEnds s a p stuck) :=
  siteReleased_steady.after (.update .refl)

theorem startAdapter_steady {a : ArrayNo} {s : State} {place : ArrayPlace} : Steady s (startAdapter a s place) :=
  .ite retireReported_steady (.ite (.update (.update .refl)) (.update .refl))

theorem startAdapters_steady {s : State} {a : Nat} : Steady s (startAdapters s a) := by
  refine .dite (fun _ => .foldl (fun _ _ => ?_) .refl) (fun _ => .refl)
  split
  · exact startAdapter_steady
  · exact .refl

theorem adapterTimesOut_steady {g node : Nat} {s : State} : Steady s (adapterTimesOut g node s) :=
  .foldl (fun _ _ => .foldl (fun _ _ => retireReported_steady) (.update .refl)) .refl

theorem absorbPair_steady {a : Nat} {offered : List (Nat × Nat × Nat × Nat)} {s : State} {cells : List CellReading} :
    Steady s (absorbPair a offered s cells) :=
  report_steady.after (.ite (.update .refl) (.ite (.update .refl) (.ite startAdapters_steady .refl)))

theorem absorbStuck_steady {s : State} {a : Nat} {new : List CellReading} {offered : List (Nat × Nat × Nat × Nat)}
    {refresh : Bool} : Steady s (absorbStuck s a new offered refresh) :=
  .ite retireReported_steady (programAgain_steady.after (.update (.foldl (fun _ _ => absorbPair_steady) .refl)))

theorem programCompletes_steady {a : Nat} {cells : List CellReading} {elapsed : Nat} {s : State} :
    Steady s (programCompletes a cells elapsed s) := by
  unfold programCompletes
  split
  · exact .refl
  · exact .ite (startPrograms_steady.after programEnds_steady) .refl

theorem programTimesOut_steady {a : Nat} {cells : List CellReading} {offered : List (Nat × Nat × Nat × Nat)} {elapsed : Nat}
    {s : State} : Steady s (programTimesOut a cells offered elapsed s) := by
  unfold programTimesOut
  split
  · exact .refl
  · exact startPrograms_steady.after (absorbStuck_steady.after programEnds_steady)

theorem verificationFails_steady {s : State} {a : Nat} {levels : Option (List (List Int))} :
    Steady s (verificationFails s a levels) :=
  .ite retireArray_steady (.ite (programAgain_steady.after (.update .refl)) (.update .refl))

theorem arrayScrubbed_steady {a : Nat} {cells : List CellReading} {offered : List (Nat × Nat × Nat × Nat)} {s : State} :
    Steady s (arrayScrubbed a cells offered s) := by
  unfold arrayScrubbed
  split
  · exact .refl
  · exact .ite verificationFails_steady (.update (absorbStuck_steady.after (.update .refl)))

/-! ### Operations of Machine/Windows -/

theorem openWindows_steady {s : State} {g : Nat} : Steady s (openWindows s g) := by
  unfold openWindows
  split
  · exact .refl
  · exact .foldl (fun _ _ => .update .refl) .refl

theorem exchangeWaited_steady {s : State} {w : Window} : Steady s (exchangeWaited s w) :=
  .ite (.update .refl) .refl

theorem closeWindow_steady {s : State} {c slot : Nat} : Steady s (closeWindow s c slot) :=
  .update exchangeWaited_steady

theorem settleWindow_steady {s : State} {c slot : Nat} : Steady s (settleWindow s c slot) :=
  .ite closeWindow_steady .refl

/-! ### Operations of Machine/UnitPackets -/

theorem coresNow_steady {s : State} {first n : Nat} : Steady s (coresNow s first n) :=
  .foldl (fun _ _ => .ite (.update .refl) .refl) .refl

theorem bodyCoreStatsRead_steady {c : Ctx} {s : State} : Steady s (bodyCoreStatsRead c s) := by
  unfold bodyCoreStatsRead
  dsimp only
  split
  · exact replyInvalid_steady
  · exact replyBuffer_steady.after coresNow_steady

theorem goldenRead_steady {s : State} {g : Generation} : Steady s (goldenRead s g) :=
  .ite .refl (.update .refl)

theorem bodyMemRead_steady {c : Ctx} {s : State} : Steady s (bodyMemRead c s) := by
  unfold bodyMemRead
  split
  · exact replyInvalid_steady
  · split
    · exact replyInvalid_steady
    · split
      · exact replySt_steady
      · exact replyBuffer_steady.after (.ite (.update goldenRead_steady) goldenRead_steady)

theorem bodyArrayStatusRead_steady {c : Ctx} {s : State} : Steady s (bodyArrayStatusRead c s) := by
  unfold bodyArrayStatusRead
  split
  · exact replyInvalid_steady
  · exact replyBuffer_steady

theorem bodyCalTableRead_steady {c : Ctx} {s : State} : Steady s (bodyCalTableRead c s) :=
  .ite replyInvalid_steady replyBuffer_steady

theorem bodyArrayCalRun_steady {c : Ctx} {s : State} : Steady s (bodyArrayCalRun c s) := by
  refine .ite replyInvalid_steady ?_
  split
  · exact replyInvalid_steady
  · exact replyInvalid_steady
  · exact replyInvalid_steady
  · exact replySt_steady
  · exact .update .refl

theorem bodySiteSeqRead_steady {c : Ctx} {s : State} : Steady s (bodySiteSeqRead c s) := by
  unfold bodySiteSeqRead
  split
  · exact replyInvalid_steady
  · exact replyBuffer_steady

theorem dropDiagnosis_steady {s : State} {n : Nat} : Steady s (dropDiagnosis s n) := by
  unfold dropDiagnosis
  split
  · exact .update .refl
  · exact .refl

theorem bodySiteSeqWrite_steady {c : Ctx} {s : State} : Steady s (bodySiteSeqWrite c s) := by
  unfold bodySiteSeqWrite
  split
  · exact replyInvalid_steady
  · split
    · exact replyInvalid_steady
    · exact .ite replySt_steady
        (.ite (replyOk_steady.after (.ite (.update dropDiagnosis_steady) (reloadSite_steady.after dropDiagnosis_steady)))
        (replyOk_steady.after (.update dropDiagnosis_steady)))

theorem bodySiteDiagRun_steady {c : Ctx} {s : State} : Steady s (bodySiteDiagRun c s) := by
  unfold bodySiteDiagRun
  split
  · exact replyInvalid_steady
  · exact .ite replySt_steady (startDiagnosis_steady.after (.update dropDiagnosis_steady))

theorem bodyQuartzStatsRead_steady {c : Ctx} {s : State} : Steady s (bodyQuartzStatsRead c s) :=
  .ite replyInvalid_steady (.ite replyInvalid_steady replyBuffer_steady)

theorem bodyProbeInstall_steady {c : Ctx} {s : State} : Steady s (bodyProbeInstall c s) := by
  refine .ite replySt_steady (.ite replyInvalid_steady ?_)
  split
  · exact replyInvalid_steady
  · refine .ite replySt_steady (.ite replySt_steady ?_)
    split
    · exact replySt_steady
    · exact replyOk_steady.after (.update .refl)

theorem bodyProbeRemove_steady {c : Ctx} {s : State} : Steady s (bodyProbeRemove c s) :=
  .ite (replyOk_steady.after (.update .refl)) replySt_steady

/-! ### Operations of Machine/Diagnosis -/

theorem actVerdict_steady {s : State} {n : Nat} {d : DiagReadings} {v : Nat} : Steady s (actVerdict s n d v) :=
  .ite (.elim (fun _ => sliceFails_steady) .refl) (.ite (report_steady.after quarantineSite_steady)
    (.ite (.foldl (fun _ _ => programAgain_steady.after (.foldl (fun _ _ => .update .refl) .refl)) .refl)
    (.ite (.foldl (fun _ _ => quarantineOnly_steady) .refl)
    (.ite quarantineSite_steady (.foldl (fun _ _ => .update .refl) .refl)))))

theorem diagnosisEnds_steady {n : Nat} {more : DiagReadings} {s : State} : Steady s (diagnosisEnds n more s) :=
  .ite (report_steady.after
    (.ite (reloadSite_steady.after (actVerdict_steady.after (finishJobs_steady.after (.update .refl))))
    (actVerdict_steady.after (finishJobs_steady.after (.update .refl))))) .refl

theorem controlTimesOut_steady {n : Nat} {s : State} : Steady s (controlTimesOut n s) := by
  unfold controlTimesOut
  split
  · exact .ite reloadSite_steady .refl
  · exact .refl

/-! ### Operations of Machine/Serving -/

theorem decideOpen_steady {s0 : State} {r : Request} : Steady s0 (decideOpen s0 r).1 := by
  unfold decideOpen
  extract_lets s b charge count s1 queue prompt s2
  have hs : Steady s0 s := .update .refl
  have h2 : Steady s0 s2 := .ite (makeRoom_steady.after (.update hs)) (.update hs)
  split
  · exact hs
  · split
    · exact hs
    · split
      · exact hs
      · split
        · exact .update h2
        · split
          · exact .update (.update h2)
          · exact .update h2

theorem answerDecision_steady {c : Ctx} {s : State} {sd : State × Decision} (h :
    Steady s sd.1) : Steady s (answerDecision c sd) := by
  unfold answerDecision
  split
  · exact h.trans replyOk_steady
  · exact h.trans reply_steady
  · exact h.trans reply_steady

theorem bodyRequestOpen_steady {c : Ctx} {s : State} : Steady s (bodyRequestOpen c s) := by
  refine .ite replySt_steady ?_
  split
  · exact replyInvalid_steady
  · exact .ite replyForeign_steady
      (.ite replyForeign_steady (.ite replySt_steady (answerDecision_steady decideOpen_steady)))

theorem bodyRequestCancel_steady {c : Ctx} {s : State} : Steady s (bodyRequestCancel c s) := by
  unfold bodyRequestCancel
  split
  · exact replySt_steady
  · exact .ite replySt_steady (.ite replyOk_steady (replyOk_steady.after (.update .refl)))

theorem bodyAccountSet_steady {c : Ctx} {s : State} : Steady s (bodyAccountSet c s) := by
  unfold bodyAccountSet
  dsimp only
  split
  · exact replyInvalid_steady
  · split
    · exact replyOk_steady.after (.update .refl)
    · exact .ite replySt_steady (replyOk_steady.after (.update .refl))

theorem bodyAccountClose_steady {c : Ctx} {s : State} : Steady s (bodyAccountClose c s) := by
  unfold bodyAccountClose
  split
  · exact replySt_steady
  · exact .ite replySt_steady (replyOk_steady.after (settleClosing_steady.after (.update .refl)))

theorem bodyAccountRead_steady {c : Ctx} {s : State} : Steady s (bodyAccountRead c s) := by
  unfold bodyAccountRead
  split
  · exact replySt_steady
  · exact .ite replyForeign_steady replyOk_steady

theorem endChain_steady {s : State} {h : Nat} {st : Status} : Steady s (endChain s h st) :=
  endRequest_steady

theorem chainHandsOff_steady {h : Nat} {s : State} : Steady s (chainHandsOff h s) := by
  unfold chainHandsOff
  split
  · exact .refl
  · split
    · exact .refl
    · refine .ite .refl ?_
      split
      · exact endChain_steady
      · rename_i q _
        have hd := decideOpen_steady (s0 := { s with requests := sdel s.requests h }) (r := q)
        split
        · exact endChain_steady
        · rename_i s1 _ _ heq
          rw [heq] at hd
          exact settleClosing_steady.after (hd.after (.update .refl))

/-! ### Operations of Machine/Lanes -/

theorem boundarySwitch_steady {s : State} {g : Nat} : Steady s (boundarySwitch s g) := by
  unfold boundarySwitch
  split
  · exact .refl
  · exact .ite switchLane_steady .refl

theorem boundaryAccounts_steady {s : State} {g : Nat} : Steady s (boundaryAccounts s g) :=
  .foldl (fun _ _ => .update .refl) .refl

theorem boundaryEnd_steady {g : Nat} {retired : Request → Bool} {s : State} {h : Nat} :
    Steady s (boundaryEnd g retired s h) := by
  unfold boundaryEnd
  split
  · exact .refl
  · exact .ite .refl (.ite dropRequest_steady
      (.ite endRequest_steady (.ite endRequest_steady (.ite endRequest_steady .refl))))

theorem boundaryEnds_steady {s : State} {g : Nat} {retired : Request → Bool} : Steady s (boundaryEnds s g retired) :=
  .foldl (fun _ _ => boundaryEnd_steady) .refl

theorem rejoin_steady {s : State} {g : Nat} : Steady s (rejoin s g) :=
  .foldl (fun _ _ => .ite (.update .refl) .refl) .refl

theorem fillDeferred_steady {g : Nat} {starting : List Nat} {n : Nat} {s : State} :
    Steady s (fillDeferred g starting n s) := by
  induction n generalizing s with
  | zero => exact .refl
  | succ n ih =>
    unfold fillDeferred
    split
    · exact .refl
    · split
      · exact ih.after (.update .refl)
      · refine .ite .refl ?_
        have hroom : ∀ need, Steady s
          (if cachedGraph s g then makeRoom s g need starting else s) := fun _ => .ite makeRoom_steady .refl
        exact .ite (hroom _) (ih.after (.update (.update (hroom _))))

theorem openFor_steady {g h : Nat} {r : Request} {s t : State} (ht : openFor g h r s = some t) : Steady s t := by
  unfold openFor at ht
  split at ht
  · cases ht
    exact .refl
  · obtain ⟨a, -, rfl⟩ := Option.map_eq_some_iff.mp ht
    exact .update .refl

theorem growFor_steady {g h n : Nat} {s t : State} (ht : growFor g h n s = some t) : Steady s t := by
  unfold growFor at ht
  split at ht
  · cases ht
  · split at ht
    · cases ht
      exact .refl
    · dsimp only at ht
      cases ho : openFor g h _ s with
      | none =>
        rw [ho, foldl_bind_none] at ht
        cases ht
      | some u =>
        rw [ho] at ht
        refine (openFor_steady ho).trans (Steady.foldl_bind (fun w _ t ht => ?_) ht)
        obtain ⟨a, -, rfl⟩ := Option.map_eq_some_iff.mp ht
        exact .update .refl

theorem mainBatch_steady {g : Nat} {l : List (Nat × Request)} {s : State} : Steady s (mainBatch g l s).1 := by
  induction l generalizing s with
  | nil => exact .refl
  | cons e es ih =>
    unfold mainBatch
    split
    · exact ih.after (.update .refl)
    · rename_i s1 heq
      exact (growFor_steady heq).trans ih

theorem prefillBatch_steady {g : Nat} {l : Lane} {es : List (Nat × Request)} {s : State} :
    Steady s (prefillBatch g l es s).1 := by
  induction es generalizing s with
  | nil => exact .refl
  | cons e es ih =>
    unfold prefillBatch
    split
    · exact ih.after (.update .refl)
    · rename_i s1 heq
      exact growFor_steady heq

theorem chooseStep_steady {s : State} {g : Nat} {l : Lane} {gr : Graph} : Steady s (chooseStep s g l gr).state := by
  simp only [chooseStep, apply_ite Chosen.state]
  exact .ite (.ite (mainBatch_steady.after prefillBatch_steady) prefillBatch_steady)
    (.ite (prefillBatch_steady.after mainBatch_steady) mainBatch_steady)

theorem startStep_steady {s0 : State} {g : Nat} : Steady s0 (startStep s0 g) := by
  unfold startStep
  split
  · exact .ite .refl (.ite chooseStep_steady
      (.ite (.update .refl) (.update (openWindows_steady.after (.update chooseStep_steady)))))
  · exact .refl

theorem stepBoundary_steady {g : Nat} {s0 : State} : Steady s0 (stepBoundary g s0) := by
  unfold stepBoundary
  split
  · exact .refl
  · exact .ite .refl (startStep_steady.after
      (.update (fillDeferred_steady.after
      (rejoin_steady.after (bringBack_steady.after
      (settlePool_steady.after
      (.ite (preemptFor_steady.after
      (.update (boundaryEnds_steady.after
      (boundaryAccounts_steady.after
      (resumeLane_steady.after
      (boundaryArrays_steady.after
      (.update (boundarySwitch_steady.after (variantDown_steady.after adaptersUsable_steady)))))))))
      (.update (boundaryEnds_steady.after
      (boundaryAccounts_steady.after
      (resumeLane_steady.after
      (boundaryArrays_steady.after
      (.update (boundarySwitch_steady.after (variantDown_steady.after adaptersUsable_steady)))))))))))))))

theorem takeOutputs_steady {g : Nat} {l : Lane} {st : LaneStep} {s : State} {o : StepOut} :
    Steady s (takeOutputs g l st s o) := by
  unfold takeOutputs
  split
  · exact .refl
  · exact .update appendKv_steady

theorem sendOutput_steady {s : State} {h : Nat} {l : Lane} {e : RingEntry} : Steady s (sendOutput s h l e) := by
  unfold sendOutput
  split
  · exact .refl
  · exact .ite (.ite (markEnded_steady.after (.update (.update .refl))) (.update (.update .refl))) postRecord_steady

theorem deliverToken_steady {s : State} {g h : Nat} {l : Lane} {st : LaneStep} {extras : Bool × Nat} {o : StepOut} :
    Steady s (deliverToken s g h l st extras o) := by
  unfold deliverToken
  split
  · exact .refl
  · exact sendOutput_steady.after (.update .refl)

theorem deliverResult_steady {s : State} {h : Nat} {l : Lane} {st : LaneStep} {extras : Bool × Nat} {o : StepOut} :
    Steady s (deliverResult s h l st extras o) := by
  unfold deliverResult
  split
  · exact .refl
  · exact .ite endRequest_steady (sendOutput_steady.after (.update (.ite .refl (.update .refl))))

theorem deliverOne_steady {g : Nat} {l : Lane} {st : LaneStep} {extras : Bool × Nat} {s : State} {o : StepOut} :
    Steady s (deliverOne g l st extras s o) := by
  unfold deliverOne
  split
  · exact .refl
  · exact .ite .refl (.ite deliverResult_steady
      (.ite (.ite (deliverToken_steady.after (.update .refl)) (.update .refl)) deliverToken_steady))

theorem settleIdle_steady {s : State} : Steady s (settleIdle s) :=
  .ite (.update .refl) .refl

theorem clearSets_steady {s : State} {l : Lane} : Steady s (clearSets s l) :=
  .foldl (fun _ _ => clearActive_steady) .refl

theorem stepEnds_steady {g : Nat} {outs : List StepOut} {slow : Bool} {s : State} : Steady s (stepEnds g outs slow s) := by
  unfold stepEnds
  split
  · exact .refl
  · split
    · exact .refl
    · exact .ite .refl (settleIdle_steady.after
        (.update (.update (.ite
        (.update (.update (.foldl (fun _ _ => deliverOne_steady)
        (.foldl (fun _ _ => takeOutputs_steady) (.ite (.foldl (fun _ _ => settleMeans_steady) .refl) .refl)))))
        (openWindows_steady.after
        (clearSets_steady.after
        (.update (.foldl (fun _ _ => deliverOne_steady)
        (.foldl (fun _ _ => takeOutputs_steady) (.ite (.foldl (fun _ _ => settleMeans_steady) .refl) .refl))))))))))

theorem writeHeld_steady {n : Nat} {s : State} : Steady s (writeHeld n s) := by
  unfold writeHeld
  split
  · exact .refl
  · split
    · exact .refl
    · exact .ite .refl (recordWritten_steady.after ringWriteEntry_steady)

theorem rereadConsumer_steady {q : RingName} {count : Nat} {s : State} : Steady s (rereadConsumer q count s) := by
  unfold rereadConsumer
  split
  · split
    · exact .refl
    · exact .ite (.update .refl) .refl
  · exact .ite (.update .refl) .refl

theorem moderate_steady {n : Nat} {s : State} : Steady s (moderate n s) := by
  unfold moderate
  split
  · exact .refl
  · exact .ite (.update (.update .refl)) .refl

theorem timeGoesStale_steady {s : State} : Steady s (timeGoesStale s) :=
  .ite (.update .refl) .refl

/-! ### Operations of Machine/Power -/

theorem bodyThermalRead_steady {c : Ctx} {s : State} : Steady s (bodyThermalRead c s) :=
  replyOk_steady

theorem bodyThermalSet_steady {c : Ctx} {s : State} : Steady s (bodyThermalSet c s) := by
  unfold bodyThermalSet
  dsimp only
  split
  · exact replyInvalid_steady
  · exact replyOk_steady.after (.update .refl)

theorem reportPower_steady {s : State} {old new : PowerState} : Steady s (reportPower s old new) :=
  report_steady

theorem enterDormant_steady {s : State} : Steady s (enterDormant s) :=
  reportPower_steady.after (.update (.update .refl))

theorem wakeDies_steady {s : State} : Steady s (wakeDies s) :=
  reportPower_steady.after (.update (startPrograms_steady.after (.update .refl)))

theorem bodyPowerDormant_steady {c : Ctx} {s : State} : Steady s (bodyPowerDormant c s) :=
  .ite replyOk_steady (.ite replySt_steady (replyOk_steady.after enterDormant_steady))

theorem sampleChannel_steady {s : State} {e : Nat × Reading} : Steady s (sampleChannel s e) := by
  unfold sampleChannel
  dsimp only
  split
  · exact report_steady.after (.update .refl)
  · exact .update .refl

theorem thermalShutdown_kept {s : State} {channel : Nat} {hard : Bool} : Kept s (thermalShutdown s channel hard) :=
  railsOff_kept.after (.update (.ite (enterFatal_kept.after (.update .refl))
    (report_steady.kept.after (enterFatal_kept.after (.update .refl)))))

theorem judgeTemperature_kept {s : State} : Kept s (judgeTemperature s) :=
  .ite (.ite (.update .refl) .refl) (.ite (thermalShutdown_kept.after (.ite (.update .refl) .refl))
    (.ite (report_steady.kept.after (.update (.ite (report_steady.kept.after (.update (.ite (.update .refl) .refl)))
    (.ite (.update (.ite (.update .refl) .refl)) (.ite (.update .refl) .refl)))))
    (.ite (report_steady.kept.after (.update (.ite (.update .refl) .refl))) (.ite (.update (.ite (.update .refl) .refl))
    (.ite (.update .refl) .refl)))))

theorem diodesSampled_kept {readings : List Reading} {s : State} : Kept s (diodesSampled readings s) :=
  .ite (judgeTemperature_kept.after (.update (.foldl (fun _ _ => sampleChannel_steady.kept) .refl))) .refl

theorem throttleMoves_steady {s : State} : Steady s (throttleMoves s) :=
  .ite .refl (.ite (report_steady.after (.update .refl)) (.update .refl))

theorem powerMoves_steady {mean1s mean10ms : Nat} {s : State} : Steady s (powerMoves mean1s mean10ms s) :=
  .ite .refl (.ite (.ite (report_steady.after (.update .refl)) (.update .refl)) (.update .refl))

theorem outputLevelMoves_steady {s : State} : Steady s (outputLevelMoves s) :=
  .ite .refl (.update .refl)

theorem thermalWritten_steady {s : State} : Steady s (thermalWritten s) :=
  .ite (.update .refl) .refl

theorem hardTrip_kept {channel : Nat} {s : State} : Kept s (hardTrip channel s) :=
  .ite thermalShutdown_kept .refl

theorem shutdownRearms_kept {s : State} : Kept s (shutdownRearms s) :=
  .ite (powerUpReset_kept.after (.update .refl)) .refl

theorem coolantSampled_steady {inlet outlet : Reading} {external : List Reading} {s : State} :
    Steady s (coolantSampled inlet outlet external s) :=
  .ite .refl (.ite (report_steady.after (.update .refl)) (.update .refl))

theorem mainFaults_kept {v : Supply} {s : State} : Kept s (mainFaults v s) :=
  .ite (fatalBits_kept.after (railsOff_kept.after (report_steady.kept.after (.update (.update .refl))))) (.update .refl)

theorem mainMarginal_steady {v : Supply} {s : State} : Steady s (mainMarginal v s) :=
  .ite (report_steady.after (.update .refl)) (.update .refl)

theorem mainRestored_kept {v : Supply} {s : State} : Kept s (mainRestored v s) :=
  .ite (powerUpReset_kept.after (.update .refl)) (.update .refl)

theorem standbyFaults_steady {v : Supply} {s : State} : Steady s (standbyFaults v s) :=
  .ite (report_steady.after (.update (.update .refl))) (.update .refl)

theorem standbyApplied_kept {s : State} : Kept s (standbyApplied s) :=
  .ite coldPowerOn_kept .refl

theorem standbyLost_kept {s : State} : Kept s (standbyLost s) :=
  .ite .refl powerOff_kept

/-! ### Operations of Machine/HostRegs -/

theorem flushIfEnabled_steady {s : State} {fn : Nat} : Steady s (flushIfEnabled s fn) :=
  .ite flushHeld_steady .refl

theorem flushAllHeld_steady {s : State} : Steady s (flushAllHeld s) :=
  .foldl (fun _ _ => flushIfEnabled_steady) .refl

theorem openBootQueue_steady {s : State} {fn : Nat} : Steady s (openBootQueue s fn) :=
  .ite (.update .refl) .refl

theorem openBootRing_steady {s : State} {fn : Nat} : Steady s (openBootRing s fn) :=
  .ite (.update .refl) .refl

theorem actOnRegisters_steady {s : State} : Steady s (actOnRegisters s) :=
  .foldl (fun _ _ => flushIfEnabled_steady.after (openBootQueue_steady.after openBootRing_steady)) .refl

theorem writeBsqCtl_steady {fn v : Nat} {s : State} : Steady s (writeBsqCtl fn v s) :=
  .ite (.ite .refl (openBootQueue_steady.after (.update .refl))) (.ite (.update (resetQueue_steady.after (.update .refl)))
    (.update .refl))

theorem writeBrplCtl_steady {fn v : Nat} {s : State} : Steady s (writeBrplCtl fn v s) :=
  .ite (.ite .refl (.ite (.update (.update .refl)) (openBootRing_steady.after (.update .refl))))
    (.ite (.update (.update (closeRequests_steady.after (.update .refl)))) (.update .refl))

theorem writeEqCtl_steady {fn v : Nat} {s : State} : Steady s (writeEqCtl fn v s) :=
  .ite (.ite (.update .refl) (.update .refl)) (.ite (flushIfEnabled_steady.after (.update .refl)) (.update .refl))

theorem writeResetCtl_kept {v : Nat} {s : State} : Kept s (writeResetCtl v s) :=
  .ite (chipReset_kept.after flushCounts_steady.kept) .refl

theorem fatalCauseSet_kept {s : State} {cause : Nat} : Kept s (fatalCauseSet s cause) :=
  enterFatal_kept

theorem writeMbxCtl_kept {v : Nat} {s : State} : Kept s (writeMbxCtl v s) :=
  .ite .refl (.ite (.update .refl) (.ite (.update (.update .refl)) (fatalCauseSet_kept.after (.update (.update .refl)))))

theorem writeReg32_kept {fn off v : Nat} {s : State} : Kept s (writeReg32 fn off v s) :=
  .ite (.update .refl) (.ite writeResetCtl_kept
    (.ite (.ite .refl (.update .refl))
    (.ite (.ite .refl (.update .refl))
    (.ite writeEqCtl_steady.kept
    (.ite (.ite .refl (.update .refl))
    (.ite (.ite .refl (.update .refl))
    (.ite writeBsqCtl_steady.kept
    (.ite (.ite .refl (.update .refl))
    (.ite (.ite .refl (.update .refl))
    (.ite writeBrplCtl_steady.kept
    (.ite (.update .refl)
    (.ite (.update .refl) (.ite (.update .refl) (.ite writeMbxCtl_kept (.ite .refl (.update .refl))))))))))))))))

theorem writeMsix_steady {fn n word v : Nat} {s : State} : Steady s (writeMsix fn n word v s) :=
  .ite (.update (.update (.update .refl))) (.update .refl)

theorem writeTable_steady {fn off v : Nat} {s : State} : Steady s (writeTable fn off v s) :=
  .ite (.update .refl) writeMsix_steady

theorem writeBar0_kept {fn off width v : Nat} {s : State} : Kept s (writeBar0 fn off width v s) :=
  .ite (.update .refl) (.ite (.update .refl)
    (.ite (.ite (writeReg32_kept.after (.ite writeReg32_kept (.ite .refl writeTable_steady.kept)))
    (.ite (.ite writeReg32_kept (.ite .refl writeTable_steady.kept))
    (writeTable_steady.kept.after (.ite writeReg32_kept (.ite .refl writeTable_steady.kept)))))
    (.ite writeReg32_kept (.ite .refl writeTable_steady.kept))))

theorem ringDoorbell_steady {fn index width v : Nat} {s : State} : Steady s (ringDoorbell fn index width v s) := by
  refine .ite .refl (.ite (.update .refl) (.ite .refl ?_))
  split
  · exact .refl
  · exact .ite reportOf_steady (.update .refl)

theorem bar4Write_wf {m : Memory} (h : m.wf = true) (a : Nat) (b : Bytes) : (bar4Write m a b).wf = true := by
  induction b generalizing m a with
  | nil => exact h
  | cons x r ih =>
    refine ih ?_ (a + 1)
    split
    · exact memWrite_wf h a x
    · exact h

theorem bar4Access_steady {fn off len : Nat} {data : Option Bytes} {s : State} :
    Steady s (bar4Access fn off len data s) := by
  refine .ite .refl ?_
  split
  · exact .ite ⟨fun h => ⟨h.1, bar4Write_wf h.2 _ _⟩, rfl, rfl, rfl⟩ (.update .refl)
  · exact .update .refl

theorem vfEnabled_steady {m : Nat} {s : State} : Steady s (vfEnabled m s) :=
  .ite .refl (.update (.foldl (fun _ _ => .update .refl) (.foldl (fun _ _ => .ite (.update .refl) .refl)
    (.foldl (fun _ _ => .ite (.update .refl) .refl) closeRequests_steady))))

theorem vfDisabled_kept {s : State} : Kept s (vfDisabled s) :=
  .ite .refl (.update (.foldl (fun _ _ => .ite flrOne_kept .refl) .refl))

theorem dStateChanges_steady {fn : Nat} {d3hot : Bool} {s : State} : Steady s (dStateChanges fn d3hot s) :=
  .ite (.update .refl) (flushIfEnabled_steady.after (.update .refl))

theorem reportLink_steady {s : State} {rate width : Nat} : Steady s (reportLink s rate width) :=
  report_steady

theorem linkTrains_kept {rate width : Nat} {s : State} : Kept s (linkTrains rate width s) :=
  .ite .refl (.ite (.update (.ite (reportLink_steady.kept.after (flushAllHeld_steady.kept.after (.update .refl)))
    (flushAllHeld_steady.kept.after (.update .refl))))
    (.ite (reportLink_steady.kept.after (flushAllHeld_steady.kept.after (.update .refl)))
    (flushAllHeld_steady.kept.after (.update .refl))))

theorem linkFalls_steady {s : State} : Steady s (linkFalls s) :=
  .ite (reportLink_steady.after (.update .refl)) .refl

theorem clockLost_steady {s : State} : Steady s (clockLost s) :=
  linkFalls_steady.after (.update .refl)

theorem hotResets_kept {s : State} : Kept s (hotResets s) :=
  .ite hotReset_kept .refl

theorem perstChanges_kept {asserted : Bool} {s : State} : Kept s (perstChanges asserted s) :=
  .ite (moduleReset_kept.after (.update .refl)) (.update .refl)

theorem modResets_kept {high : Bool} {lowNs : Nat} {s : State} : Kept s (modResets high lowNs s) :=
  .ite (moduleReset_kept.after (.update .refl)) (.update .refl)

/-! ### Operations of Machine/Fabric -/

theorem bodyPortModeSet_steady {c : Ctx} {s : State} : Steady s (bodyPortModeSet c s) :=
  .ite replyInvalid_steady (.ite replyInvalid_steady (.ite replySt_steady (replyOk_steady.after (.update .refl))))

theorem reportPort_steady {s : State} {n severity lanes : Nat} : Steady s (reportPort s n severity lanes) :=
  report_steady

theorem laneFails_steady {n : Nat} {s : State} : Steady s (laneFails n s) :=
  .ite .refl (.ite (.ite (reportPort_steady.after (.update .refl)) (reportPort_steady.after (.update .refl)))
    (reportPort_steady.after (.update .refl)))

theorem retrainTimesOut_steady {n : Nat} {s : State} : Steady s (retrainTimesOut n s) :=
  .ite (reportPort_steady.after (.update .refl)) .refl

theorem fetchFails_steady {s : State} {f : ObjKind × Nat × Nat × Nat} : Steady s (fetchFails s f) := by
  unfold fetchFails
  split
  · exact .ite abandonGen_steady (.update .refl)
  · exact .update .refl

theorem writeRefused_steady {n h i : Nat} {s : State} : Steady s (writeRefused n h i s) := by
  unfold writeRefused
  split
  · exact .refl
  · refine .ite .refl ?_
    dsimp only
    split
    · exact copyBlock_steady.after (.update (.update .refl))
    · exact endRequest_steady.after (.update .refl)

theorem refused_steady {n seq : Nat} {source : BitVec 128} {s : State} : Steady s (refused n seq source s) := by
  unfold refused
  split
  · exact .refl
  · split
    · exact fetchFails_steady
    · exact writeRefused_steady

theorem takeInTurn_steady {n : Nat} {source : BitVec 128} {b : Bytes} {act : State → State} {s : State}
    (h : ∀ t, Steady t (act t)) :
    Steady s (takeInTurn n source b act s) :=
  .ite ((h _).after (.update (.update .refl))) (.ite (.update .refl) .refl)

theorem refusalArrives_steady {n : Nat} {source : BitVec 128} {b : Bytes} {s : State} :
    Steady s (refusalArrives n source b s) :=
  .ite .refl (.ite (.ite .refl ((takeInTurn_steady (fun _ => refused_steady)).after (.update .refl)))
    (.ite (.update .refl) (refused_steady.after (.update .refl))))

theorem datagramArrives_steady {n : Nat} {source : BitVec 128} {b : Bytes} {s : State} :
    Steady s (datagramArrives n source b s) :=
  .ite .refl (.ite (.update .refl) ((takeInTurn_steady (fun _ => .ite .refl (.update .refl))).after (.update .refl)))

theorem datagramResends_steady {n : Nat} {s : State} : Steady s (datagramResends n s) := by
  unfold datagramResends
  dsimp only
  split
  · exact .refl
  · refine .ite (.update .refl) ?_
    split
    · exact fetchFails_steady.after (report_steady.after (.update .refl))
    · split
      · exact writeRefused_steady.after (report_steady.after (.update .refl))
      · exact report_steady.after (.update .refl)

theorem bodyWeightServerRegister_steady {c : Ctx} {s : State} : Steady s (bodyWeightServerRegister c s) :=
  .ite replyInvalid_steady
    (.ite replyInvalid_steady (.ite replyInvalid_steady (.ite replySt_steady (replyOk_steady.after (.update .refl)))))

theorem bodyKvPeerRegister_steady {c : Ctx} {s : State} : Steady s (bodyKvPeerRegister c s) :=
  .ite replyInvalid_steady
    (.ite replyInvalid_steady
    (.ite replyInvalid_steady
    (.ite replyInvalid_steady
    (.ite replySt_steady (.ite (replyOk_steady.after (.update .refl)) (replyOk_steady.after (.update .refl)))))))

theorem bodyFabricStatusRead_steady {c : Ctx} {s : State} : Steady s (bodyFabricStatusRead c s) :=
  replyBuffer_steady

/-! ### Operations of Machine/PairOps -/

theorem pairRefused_steady {s : State} {st : Status} : Steady s (pairRefused s st) :=
  finishJobs_steady.after (.update (.update .refl))

theorem tryPair_steady {s : State} : Steady s (tryPair s) := by
  unfold tryPair
  split
  · exact .refl
  · exact .ite .refl (.ite pairRefused_steady (.ite pairRefused_steady (.ite (.update (.update .refl)) .refl)))

theorem bodyPair_steady {c : Ctx} {s : State} : Steady s (bodyPair c s) :=
  .ite replySt_steady (tryPair_steady.after (.update (.update (.foldl (fun _ _ => .update .refl) .refl))))

theorem bodyUnpair_steady {c : Ctx} {s : State} : Steady s (bodyUnpair c s) :=
  .ite replyOk_steady (replyOk_steady.after
    (.update (.foldl (fun _ _ => flushAwaiting_steady) (.update pairRefused_steady))))

theorem pairTimesOut_steady {s : State} : Steady s (pairTimesOut s) :=
  .ite pairRefused_steady .refl

theorem pairPortRises_steady {n : Nat} {backplane : Bool} {lanes : Nat} {s : State} :
    Steady s (pairPortRises n backplane lanes s) :=
  tryPair_steady.after (.update .refl)

theorem takeOne_steady {s : State} {h : Nat} : Steady s (takeOne s h) := by
  unfold takeOne
  split
  · exact .refl
  · refine .ite .refl (.ite (endRequest_steady.after (.update .refl)) ?_)
    split
    · exact .update (.update .refl)
    · exact .update .refl
    · exact .update (.update .refl)

theorem takeOver_steady {s : State} : Steady s (takeOver s) :=
  reportPair_steady.after
    (.update (.foldl (fun _ _ => flushAwaiting_steady)
    (.foldl (fun _ _ => takeOne_steady) (.update (.foldl (fun _ _ => .update .refl) .refl)))))

theorem partition_steady {s : State} : Steady s (partition s) :=
  reportPair_steady.after (.update (.foldl (fun _ _ => flushAwaiting_steady) (.update .refl)))

theorem silenceFound_steady {s : State} : Steady s (silenceFound s) :=
  .ite (.ite partition_steady takeOver_steady) .refl

theorem okInChanges_steady {asserted : Bool} {s : State} : Steady s (okInChanges asserted s) := by
  refine .ite (.update .refl) ?_
  split
  · exact .ite (takeOver_steady.after (.update .refl)) (reportPair_steady.after (.update .refl))
  · exact takeOver_steady.after (.update .refl)
  · exact .update .refl

theorem heartbeatHeard_steady {s : State} : Steady s (heartbeatHeard s) := by
  refine .ite .refl ?_
  split
  · exact settlePair_steady.after (.update .refl)
  · exact tryPair_steady.after (.update .refl)
  · exact .refl

theorem flitTaken_steady {n : Nat} {f : Bytes} {corrected : Nat} {uncorrectable : Bool} {s : State} :
    Steady s (flitTaken n f corrected uncorrectable s) :=
  .ite (heartbeatHeard_steady.after (.update .refl)) (.update .refl)

theorem heartbeatGoes_steady {n : Nat} {s : State} : Steady s (heartbeatGoes n s) :=
  .ite (.update (.update .refl)) .refl

theorem mirrorRoom_steady {g h n : Nat} {s : State} : Steady s (mirrorRoom g h n s) := by
  unfold mirrorRoom
  split
  · exact .refl
  · exact .ite .refl (.foldl (fun _ _ => .update .refl) (.ite .refl (.update .refl)))

theorem mirrorStep_steady {h count : Nat} {token : Option (BitVec 32)} {result : Bytes} {kv : List NewKv}
    {carried : List (Nat × List F32)} {charge : Nat} {s : State} : Steady s
    (mirrorStep h count token result kv carried charge s) := by
  unfold mirrorStep
  split
  · exact .refl
  · exact .ite .refl (.update (.update (appendKv_steady.after mirrorRoom_steady)))

theorem mirrorOpened_steady {h : Nat} {p : Pkt} {deferred : Bool} {s : State} : Steady s (mirrorOpened h p deferred s) := by
  unfold mirrorOpened
  split
  · exact .ite (.update .refl) .refl
  · exact .update .refl

theorem mirrorChained_steady {before h : Nat} {deferred : Bool} {s : State} :
    Steady s (mirrorChained before h deferred s) := by
  unfold mirrorChained
  split
  · exact .refl
  · split
    · split
      · exact .refl
      · exact .update .refl
    · exact .refl

theorem mirrorTaken_steady {m : MirrorMsg} {s : State} : Steady s (mirrorTaken m s) := by
  refine .ite .refl ?_
  split
  · exact mirrorStep_steady
  · exact mirrorOpened_steady
  · exact mirrorChained_steady
  · split
    · exact .ite (.update .refl) .refl
    · exact .refl
  · split
    · exact .ite (.update .refl) .refl
    · exact .refl
  · exact .update .refl
  · exact settlePair_steady.after (.update .refl)
  · exact .ite (.foldl (fun _ _ => flushAwaiting_steady) (.update (.update (.update .refl)))) (.update (.update .refl))

theorem mirrorAcknowledged_steady {g : Nat} {s : State} : Steady s (mirrorAcknowledged g s) :=
  .ite (.foldl (fun _ _ => flushAwaiting_steady) (.update .refl)) .refl

/-! ### Operations of Machine/Firmware -/

theorem burnVersion_kept {s : State} {b : Bytes} : Kept s (burnVersion s b) :=
  .ite ⟨id, .burn _ _, rfl⟩ .refl

theorem reachRunning_kept {s : State} {b : Bytes} : Kept s (reachRunning s b) :=
  .update (actOnRegisters_steady.kept.after (burnVersion_kept.after (.update .refl)))

theorem bodyFirmwareLoad_kept {c : Ctx} {s : State} : Kept s (bodyFirmwareLoad c s) := by
  refine .ite replyInvalid_steady.kept (.ite replySt_steady.kept ?_)
  dsimp only
  split
  · exact .ite replyInvalid_steady.kept reply_steady.kept
  · exact .ite (chipReset_kept.after (flushCounts_steady.kept.after (replyOk_steady.kept.after (.update .refl))))
      (replyOk_steady.kept.after (.update .refl))

theorem bodyChipReset_kept {c : Ctx} {s : State} : Kept s (bodyChipReset c s) :=
  chipReset_kept.after (flushCounts_steady.kept.after replyOk_steady.kept)

theorem lodgeVerified_kept {s : State} : Kept s (lodgeVerified s) := by
  refine .ite .refl ?_
  split
  · exact .update .refl
  · exact .update .refl

theorem recoveryArrives_kept {image : Bytes} {s : State} : Kept s (recoveryArrives image s) :=
  .ite (.update (defaultForModule_kept.after flushCounts_steady.kept)) .refl

theorem railsPowerUp_kept {s : State} : Kept s (railsPowerUp s) := by
  refine .ite ?_ .refl
  dsimp only
  split
  · exact report_steady.kept.after (.update (.ite (reportPower_steady.kept.after (.update .refl)) (.update .refl)))
  · exact .ite (reportPower_steady.kept.after (.update .refl)) (.update .refl)

theorem gatehouseReleases_kept {s : State} : Kept s (gatehouseReleases s) :=
  .ite (enterFatal_kept.after (.update .refl)) .refl

theorem judgeDelivery_kept {s : State} {b : Bytes} : Kept s (judgeDelivery s b) := by
  unfold judgeDelivery
  split
  · exact .update .refl
  · exact enterFatal_kept.after (.update .refl)

theorem fetchEnds_kept {bundle : Option Bytes} {s : State} : Kept s (fetchEnds bundle s) := by
  refine .ite .refl ?_
  split
  · exact enterFatal_kept.after (.update .refl)
  · exact .ite judgeDelivery_kept (enterFatal_kept.after (.update .refl))

theorem lodgeDelivers_kept {spdm : Option Nat} {bundle : Bytes} {s : State} : Kept s (lodgeDelivers spdm bundle s) :=
  .ite (judgeDelivery_kept.after (.update .refl)) .refl

theorem lodgeImageWritten_steady {spdm : Option Nat} {image : Bytes} {interrupted : Bool} {s : State} :
    Steady s (lodgeImageWritten spdm image interrupted s) :=
  .ite (.update .refl) .refl

theorem bootRuns_kept {s : State} : Kept s (bootRuns s) := by
  unfold bootRuns
  split
  · exact .ite reachRunning_kept .refl
  · exact .refl

theorem kioskDogs_kept {s : State} : Kept s (kioskDogs s) :=
  .ite (.update (enterFatal_kept.after (.update .refl))) .refl

theorem watchdogResets_kept {s : State} : Kept s (watchdogResets s) := by
  unfold watchdogResets
  split
  · exact .refl
  · exact .ite (.ite (report_steady.kept.after (enterFatal_kept.after (.update (.update .refl)))) containmentReset_kept)
      .refl

theorem gatehouseFalls_kept {s : State} : Kept s (gatehouseFalls s) :=
  .ite (lodgeTake_steady.kept.after (.update (fatalBits_kept.after (.update (.update .refl))))) .refl

theorem lodgeFalls_kept {s : State} : Kept s (lodgeFalls s) :=
  .ite (report_steady.kept.after (enterFatal_kept.after (.update (.update .refl)))) .refl

theorem settleObject_steady {s : State} {o : LoadedObject} : Steady s (settleObject s o) :=
  .ite (freeObject_steady.after (.foldl (fun _ _ => .ite (report_steady.after (.update .refl)) (.update .refl)) .refl))
    (.update (.foldl (fun _ _ => .ite (report_steady.after (.update .refl)) (.update .refl)) .refl))

theorem reportRecovery_steady {s : State} : Steady s (reportRecovery s) :=
  report_steady

theorem afterChipReset_steady {s : State} {found : ResetFindings} : Steady s (afterChipReset s found) :=
  .ite (.update (.ite (.foldl (fun _ _ => .foldl (fun _ _ => requestShards_steady) .refl)
    (.update (.update (.foldl (fun _ _ => settleObject_steady) .refl))))
    (.update (.foldl (fun _ _ => .foldl (fun _ _ => requestShards_steady) .refl)
    (.update (.update (.foldl (fun _ _ => settleObject_steady) .refl)))))))
    (.ite (.foldl (fun _ _ => .foldl (fun _ _ => requestShards_steady) .refl)
    (.update (.update (.foldl (fun _ _ => settleObject_steady) .refl))))
    (.update (.foldl (fun _ _ => .foldl (fun _ _ => requestShards_steady) .refl)
    (.update (.update (.foldl (fun _ _ => settleObject_steady) .refl))))))

theorem chipResetEnds_kept {found : ResetFindings} {s : State} : Kept s (chipResetEnds found s) := by
  refine .ite .refl (.ite (report_steady.kept.after (enterFatal_kept.after (.update .refl))) ?_)
  dsimp only
  split
  · exact enterFatal_kept.after (.update (.update .refl))
  · exact tryPair_steady.kept.after
      (reportRecovery_steady.kept.after (afterChipReset_steady.kept.after (reachRunning_kept.after (.update .refl))))

/-! ### Operations of Machine/Lodge -/

theorem mgmtRow_kept {command : Nat} {m : Mgmt} {s : State} {work : Nat → State → State} (h : ∀ id t, Kept t (work id t)) :
    Kept s (mgmtRow command m s work) := by
  refine .ite .refl ?_
  split
  · exact .update .refl
  · exact .ite (.update .refl) (.ite .refl (.ite (.update .refl) (h _ _)))

theorem mgmtAnswer_kept {command : Nat} {m : Mgmt} {s : State} {work : State → State × Status × Bytes}
    (h : ∀ t, Kept t (work t).1) : Kept s (mgmtAnswer command m s work) :=
  mgmtRow_kept fun _ t => .update (h t)

theorem scrubPeriodWork_steady {m : Mgmt} {s : State} : Steady s (scrubPeriodWork m s).1 := by
  unfold scrubPeriodWork
  dsimp only
  split
  · exact .refl
  · exact .update .refl

theorem scrubReadWork_steady {s : State} : Steady s (scrubReadWork s).1 :=
  .refl

theorem setpointWork_steady {m : Mgmt} {s : State} : Steady s (setpointWork m s).1 := by
  unfold setpointWork
  dsimp only
  split
  · exact .refl
  · exact .update .refl

theorem powerLimitWork_steady {m : Mgmt} {s : State} : Steady s (powerLimitWork m s).1 := by
  unfold powerLimitWork
  dsimp only
  split
  · exact .refl
  · exact .update .refl

theorem collectorWork_steady {m : Mgmt} {s : State} : Steady s (collectorWork m s).1 := by
  unfold collectorWork
  dsimp only
  split
  · exact .update .refl
  · exact .update (.update .refl)

theorem recordAckWork_steady {m : Mgmt} {s : State} : Steady s (recordAckWork m s).1 :=
  .update .refl

theorem ownerKeyWork_kept {m : Mgmt} {s : State} : Kept s (ownerKeyWork m s).1 := by
  unfold ownerKeyWork
  dsimp only
  split
  · exact .refl
  · rename_i hbusy
    split
    · exact .refl
    · exact ⟨id, .fuse _ (not_not.mp fun hset => hbusy (.inr (.inr hset))), rfl⟩

theorem eraseWears_steady {s : State} : Steady s (eraseWears s) :=
  .foldl (fun _ _ => .update .refl) (.foldl (fun _ _ => reportWear_steady) .refl)

theorem eraseWork_steady {s : State} : Steady s (eraseWork s).1 := by
  unfold eraseWork
  dsimp only
  split
  · exact .refl
  · exact finishJobs_steady.after (eraseWears_steady.after (.update .refl))

theorem debugNonceWork_steady {s : State} : Steady s (debugNonceWork s).1 := by
  unfold debugNonceWork
  split
  · exact .update .refl
  · exact .refl

theorem debugUnlockWork_steady {m : Mgmt} {s : State} : Steady s (debugUnlockWork m s).1 := by
  unfold debugUnlockWork
  split
  · exact .refl
  · dsimp only
    split
    · exact .update (.update .refl)
    · exact .update .refl

theorem powerControl_kept {m : Mgmt} {s : State} {work : State → State} (h : ∀ t, Kept t (work t)) :
    Kept s (powerControl m s work) := by
  refine mgmtAnswer_kept fun t => ?_
  split
  · exact .refl
  · exact h t

theorem commandRailsOff_kept {s : State} : Kept s (commandRailsOff s) :=
  .ite railsOff_kept (.update .refl)

theorem commandPowerUp_kept {s : State} : Kept s (commandPowerUp s) :=
  .ite moduleReset_kept (.update powerUpReset_kept)

theorem platformAck_steady {n : Nat} {s : State} : Steady s (platformAck n s) :=
  .ite (.update .refl) .refl

theorem eventReceiverSet_steady {eid : BitVec 8} {s : State} : Steady s (eventReceiverSet eid s) :=
  .ite (.update (.update .refl)) .refl

theorem recordsResent_steady {s : State} : Steady s (recordsResent s) :=
  .ite (.update .refl) .refl

theorem messageDiscarded_steady {s : State} : Steady s (messageDiscarded s) :=
  .ite (.update .refl) .refl

theorem addressAssigned_steady {a : BitVec 7} {s : State} : Steady s (addressAssigned a s) :=
  .ite .refl (.update .refl)

theorem measurementsTaken_steady {fn : Option FnId} {s : State} : Steady s (measurementsTaken fn s) :=
  .ite (.update .refl) .refl

theorem sessionKeyed_steady {fn : Option FnId} {id : BitVec 32} {secret : Bytes} {s : State} :
    Steady s (sessionKeyed fn id secret s) :=
  .ite (.update .refl) .refl

/-! ### Operations of Machine/MemoryErrors -/

theorem stretchLanes_steady {s : State} {lanes : List LaneId} : Steady s (stretchLanes s lanes) := by
  refine .foldl (fun _ _ => ?_) .refl
  split
  · exact .foldl (fun _ _ => .update .refl) .refl
  · exact .refl

theorem loseStack_kept {s : State} {q k : Nat} : Kept s (loseStack s q k) :=
  .ite .refl (.update (containAs_kept.after (.update .refl)))

theorem repairRow_steady {s : State} {l : HbmLoc} : Steady s (repairRow s l) :=
  .ite (.ite .refl (.update (.update .refl))) (report_steady.after (.update .refl))

theorem hbmCorrected_kept {s : State} {l : HbmLoc} {symbol : Nat} {pass : Option Nat} :
    Kept s (hbmCorrected s l symbol pass) :=
  .ite (.ite (loseStack_kept.after (.ite (repairRow_steady.kept.after (report_steady.kept.after (.update .refl)))
    (report_steady.kept.after (.update .refl))))
    (report_steady.kept.after (.update (.ite (repairRow_steady.kept.after (report_steady.kept.after (.update .refl)))
    (report_steady.kept.after (.update .refl))))))
    (.ite (repairRow_steady.kept.after (report_steady.kept.after (.update .refl)))
    (report_steady.kept.after (.update .refl)))

theorem hbmUncorrected_kept {s : State} {l : HbmLoc} {transient : Bool} {source : Nat} {lanes : List LaneId} :
    Kept s (hbmUncorrected s l transient source lanes) :=
  .ite (report_steady.kept.after stretchLanes_steady.kept) contain_kept

theorem rebuildLine_kept {s : State} {e : SramErr} : Kept s (rebuildLine s e) := by
  unfold rebuildLine
  split
  · exact .foldl (fun _ _ => recomputeStep_steady.kept) .refl
  · exact .foldl (fun _ _ => recomputeStep_steady.kept) .refl
  · exact .foldl (fun _ _ => recomputeStep_steady.kept) .refl
  · exact .refl
  · exact .refl
  · exact contain_kept

theorem coreBankExhausted_kept {s : State} {e : SramErr} {c : CoreId} {bank : Nat} :
    Kept s (coreBankExhausted s e c bank) :=
  rebuildLine_kept.after (report_steady.kept.after (.update (.update .refl)))

theorem bankExhausted_kept {s : State} {e : SramErr} : Kept s (bankExhausted s e) := by
  unfold bankExhausted
  split
  · exact rebuildLine_kept.after (report_steady.kept.after (.update (.update .refl)))
  · exact coreBankExhausted_kept
  · exact coreBankExhausted_kept
  · exact coreBankExhausted_kept
  · exact .ite (.update (contain_kept.after (.update .refl))) (contain_kept.after (.update .refl))

theorem sramError_kept {e : SramErr} {plan : Bool} {s : State} : Kept s (sramError e plan s) :=
  .ite .refl (.ite (report_steady.kept.after (.ite stretchLanes_steady.kept .refl))
    (.ite bankExhausted_kept (rebuildLine_kept.after (report_steady.kept.after (.update .refl)))))

theorem scrubReads_kept {target : ScrubTarget} {pass : Nat} {f : ScrubFinding} {s : State} :
    Kept s (scrubReads target pass f s) := by
  unfold scrubReads
  dsimp only
  split
  · exact .update .refl
  · exact hbmCorrected_kept.after (.update .refl)
  · exact hbmUncorrected_kept.after (.update .refl)
  · exact sramError_kept.after (.update .refl)

theorem losesBlocks_steady {s : State} {h : Nat} : Steady s (losesBlocks s h) := by
  unfold losesBlocks
  split
  · exact .refl
  · exact .ite .refl (.ite (.update .refl) endRequest_steady)

theorem refetchQuarter_steady {q : Nat} {named : List (ObjKind × Fin 16384 × Nat)} {s : State} :
    Steady s (refetchQuarter q named s) :=
  .foldl (fun _ _ => readShard_steady) (.update .refl)

theorem loseQuarter_steady {q : Nat} {requests : List (BitVec 32)} {shards : List (ObjKind × Fin 16384 × Nat)} {s : State} :
    Steady s (loseQuarter q requests shards s) :=
  .ite .refl (settleIdle_steady.after
    (.update (refetchQuarter_steady.after
    (.foldl (fun _ _ => losesBlocks_steady)
    (.update (.foldl (fun _ _ => .update .refl) (.foldl (fun _ _ => dropSiteSteps_steady) report_steady)))))))

theorem holdEnds_steady {kind : Nat} {uid : Word} {s : State} : Steady s (holdEnds kind uid s) := by
  unfold holdEnds
  split
  · exact .refl
  · split
    · exact .ite (emitRecord_steady.after (.update .refl)) .refl
    · exact .refl

/-! ### Operations of Machine/PacketDispatch -/

theorem bodyCarried_steady {c : Ctx} {s : State} : Steady s (bodyCarried c s) :=
  .ite (.ite replyInvalid_steady bodyProbeInstall_steady) (.ite bodyProbeRemove_steady bodyThermalSet_steady)

theorem packetCarried_kept {m : Mgmt} {id : Nat} {s : State} : Kept s (packetCarried m id s) :=
  .ite (.update .refl) (.ite .refl (carryPacket_kept fun _ _ => bodyCarried_steady.kept))

theorem bodyWaited_kept {c : Ctx} {s : State} : Kept s (bodyWaited c s) := by
  unfold bodyWaited
  split
  · exact bodyModelLoad_steady.kept
  · exact bodyModelReplace_steady.kept
  · exact bodyModelRetire_steady.kept
  · exact bodyAdapterLoad_steady.kept
  · exact bodyAdapterReplace_steady.kept
  · exact bodyAdapterRetire_steady.kept
  · exact bodyGraphSubmit_steady.kept
  · exact bodyGraphRetire_steady.kept
  · exact bodyKvPoolSet_steady.kept
  · exact bodyArrayCalRun_steady.kept
  · exact bodySiteDiagRun_steady.kept
  · exact bodyCheckFractionSet_steady.kept
  · exact bodyFirmwareLoad_kept
  · exact .ite bodyPair_steady.kept bodyUnpair_steady.kept
  · exact .refl

theorem releaseWaiting_kept {s : State} : Kept s (releaseWaiting s) :=
  .foldl (fun _ _ => bodyWaited_kept) (.update .refl)

theorem bodyPowerActive_kept {c : Ctx} {s : State} : Kept s (bodyPowerActive c s) :=
  .ite replyInvalid_steady.kept
    (.ite (releaseWaiting_kept.after (replyOk_steady.kept.after wakeDies_steady.kept)) replyOk_steady.kept)

/-! ### Operations of Machine/Pergola -/

theorem diagnoseUnit_steady {s : State} {uid : Word} : Steady s (diagnoseUnit s uid) :=
  .ite startDiagnosis_steady (.ite (.foldl (fun _ _ => startDiagnosis_steady) .refl) .refl)

theorem lateAccess_steady {s : State} {r : Remote} {slot : Nat} {w : Window} {write : Bool} :
    Steady s (lateAccess s r slot w write) :=
  .ite (.update (.update .refl))
    (.ite (diagnoseUnit_steady.after (.update (reportOf_steady.after (.update (.update (.update .refl))))))
    (reportOf_steady.after (.update (.update (.update .refl)))))

theorem onCredit_steady {r : Remote} {take : State → State} {s : State} (h : ∀ t, Steady t (take t)) :
    Steady s (onCredit r take s) := by
  unfold onCredit
  refine .ite ?_ (h s)
  split
  · exact .refl
  · exact .update ((h _).after (.update .refl))

theorem writeRemote_steady {r : Remote} {s0 : State} : Steady s0 (writeRemote r s0) := by
  refine onCredit_steady (fun _ => ?_)
  dsimp only
  split
  · exact settleWindow_steady.after (.update (.update (.update .refl)))
  · exact lateAccess_steady.after (.update .refl)
  · exact .update (.update .refl)

theorem readRemote_steady {r : Remote} {s0 : State} : Steady s0 (readRemote r s0) := by
  refine onCredit_steady (fun _ => ?_)
  dsimp only
  split
  · exact .update (.update (.update (.update .refl)))
  · exact .update (lateAccess_steady.after (.update .refl))
  · exact .update (.update (.update .refl))

theorem markArrives_steady {owner : CoreId} {slot : Nat} {reader : Word} {s0 : State} :
    Steady s0 (markArrives owner slot reader s0) :=
  settleWindow_steady.after (.update (.update .refl))

theorem closePoint_steady {owner : CoreId} {slot : Nat} {s : State} : Steady s (closePoint owner slot s) :=
  .ite (closeWindow_steady.after (.update .refl)) (.update .refl)

theorem windowGuards_kept {owner : CoreId} {slot : Nat} {s : State} : Kept s (windowGuards owner slot s) :=
  .ite (contain_kept.after (.update .refl)) (.update .refl)

theorem flitFails_kept {quarter router port : Nat} {resent : Bool} {s : State} :
    Kept s (flitFails quarter router port resent s) :=
  .ite (contain_kept.after (.update .refl)) (.update .refl)

/-! ### Operations of Machine/Sessions -/

theorem bodySessionOpen_steady {c : Ctx} {s : State} : Steady s (bodySessionOpen c s) := by
  refine .ite replySt_steady ?_
  split
  · exact replySt_steady
  · exact replyOk_steady.after (.update .refl)

theorem bodySessionClose_steady {c : Ctx} {s : State} : Steady s (bodySessionClose c s) :=
  settleClosing_steady.after (closeRequests_steady.after (.update (.update .refl)))

theorem bodySessionKeyUpdate_steady {c : Ctx} {s : State} : Steady s (bodySessionKeyUpdate c s) := by
  unfold bodySessionKeyUpdate
  split
  · exact replySt_steady
  · exact replyOk_steady.after (.update .refl)

theorem bodyTimeMark_steady {c : Ctx} {s : State} : Steady s (bodyTimeMark c s) :=
  .ite (replyInvalid_steady.after report_steady) (replyOk_steady.after (.update .refl))

theorem bodyQueueCreate_steady {c : Ctx} {s : State} : Steady s (bodyQueueCreate c s) :=
  .ite replyForeign_steady
    (.ite replyInvalid_steady
    (.ite replyInvalid_steady
    (.ite replyInvalid_steady
    (.ite replyInvalid_steady
    (.ite replyForeign_steady
    (.ite replyInvalid_steady (.ite replySt_steady (.ite replySt_steady (replyOk_steady.after (.update .refl))))))))))

theorem bodyQueueDelete_steady {c : Ctx} {s : State} : Steady s (bodyQueueDelete c s) :=
  .ite replyForeign_steady (.ite replyInvalid_steady (replyOk_steady.after (.update resetQueue_steady)))

theorem bodyQueueReset_steady {c : Ctx} {s : State} : Steady s (bodyQueueReset c s) :=
  .ite (.ite replyForeign_steady (.ite replyInvalid_steady (replyOk_steady.after resetQueue_steady)))
    (.ite (.ite replyInvalid_steady
    (.ite replyForeign_steady
    (.ite replyInvalid_steady (.ite replySt_steady (replyOk_steady.after (.update .refl)))))) replyInvalid_steady)

theorem bodyRingCreate_steady {c : Ctx} {s : State} : Steady s (bodyRingCreate c s) :=
  .ite replyInvalid_steady
    (.ite replyForeign_steady
    (.ite replyInvalid_steady
    (.ite replyInvalid_steady
    (.ite replyInvalid_steady
    (.ite replyInvalid_steady
    (.ite replyForeign_steady (.ite replyInvalid_steady (.ite replySt_steady (replyOk_steady.after (.update .refl))))))))))

theorem bodyRingDestroy_steady {c : Ctx} {s : State} : Steady s (bodyRingDestroy c s) :=
  .ite replyInvalid_steady
    (.ite replyForeign_steady (.ite replyInvalid_steady (.ite replySt_steady (replyOk_steady.after (.update .refl)))))

/-- Whatever the command: it answers a next state, in which memories keep their form, fuses grow and no time has passed. -/
theorem exec_kept (c : Instr) (s : State) : ∃ t, exec c s = .next t ∧ Kept s t := by
  cases c with
  | sessionOpen _ => exact ⟨_, rfl, packetRow_kept (fun _ _ => bodySessionOpen_steady.kept)⟩
  | sessionClose _ => exact ⟨_, rfl, packetRow_kept (fun _ _ => bodySessionClose_steady.kept)⟩
  | sessionKeyUpdate _ => exact ⟨_, rfl, packetRow_kept (fun _ _ => bodySessionKeyUpdate_steady.kept)⟩
  | timeMark _ => exact ⟨_, rfl, packetRow_kept (fun _ _ => bodyTimeMark_steady.kept)⟩
  | queueCreate _ => exact ⟨_, rfl, packetRow_kept (fun _ _ => bodyQueueCreate_steady.kept)⟩
  | queueDelete _ => exact ⟨_, rfl, packetRow_kept (fun _ _ => bodyQueueDelete_steady.kept)⟩
  | queueReset _ => exact ⟨_, rfl, packetRow_kept (fun _ _ => bodyQueueReset_steady.kept)⟩
  | ringCreate _ => exact ⟨_, rfl, packetRow_kept (fun _ _ => bodyRingCreate_steady.kept)⟩
  | ringDestroy _ => exact ⟨_, rfl, packetRow_kept (fun _ _ => bodyRingDestroy_steady.kept)⟩
  | modelLoad _ => exact ⟨_, rfl, packetRow_kept (fun _ _ => bodyModelLoad_steady.kept)⟩
  | modelReplace _ _ => exact ⟨_, rfl, packetRow_kept (fun _ _ => bodyModelReplace_steady.kept)⟩
  | modelRetire _ => exact ⟨_, rfl, packetRow_kept (fun _ _ => bodyModelRetire_steady.kept)⟩
  | modelStatusRead _ => exact ⟨_, rfl, packetRow_kept (fun _ _ => bodyModelStatusRead_steady.kept)⟩
  | adapterLoad _ => exact ⟨_, rfl, packetRow_kept (fun _ _ => bodyAdapterLoad_steady.kept)⟩
  | adapterReplace _ => exact ⟨_, rfl, packetRow_kept (fun _ _ => bodyAdapterReplace_steady.kept)⟩
  | adapterRetire _ => exact ⟨_, rfl, packetRow_kept (fun _ _ => bodyAdapterRetire_steady.kept)⟩
  | publisherKeyRegister _ => exact ⟨_, rfl, packetRow_kept (fun _ _ => bodyPublisherKeyRegister_steady.kept)⟩
  | rehashPeriodSet _ => exact ⟨_, rfl, packetRow_kept (fun _ _ => bodyRehashPeriodSet_steady.kept)⟩
  | graphSubmit _ => exact ⟨_, rfl, packetRow_kept (fun _ _ => bodyGraphSubmit_steady.kept)⟩
  | graphRetire _ => exact ⟨_, rfl, packetRow_kept (fun _ _ => bodyGraphRetire_steady.kept)⟩
  | planRead _ => exact ⟨_, rfl, packetRow_kept (fun _ _ => bodyPlanRead_steady.kept)⟩
  | requestOpen _ => exact ⟨_, rfl, packetRow_kept (fun _ _ => bodyRequestOpen_steady.kept)⟩
  | requestCancel _ => exact ⟨_, rfl, packetRow_kept (fun _ _ => bodyRequestCancel_steady.kept)⟩
  | accountSet _ => exact ⟨_, rfl, packetRow_kept (fun _ _ => bodyAccountSet_steady.kept)⟩
  | accountClose _ => exact ⟨_, rfl, packetRow_kept (fun _ _ => bodyAccountClose_steady.kept)⟩
  | accountRead _ => exact ⟨_, rfl, packetRow_kept (fun _ _ => bodyAccountRead_steady.kept)⟩
  | kvPoolSet _ => exact ⟨_, rfl, packetRow_kept (fun _ _ => bodyKvPoolSet_steady.kept)⟩
  | kvSwapRegister _ => exact ⟨_, rfl, packetRow_kept (fun _ _ => bodyKvSwapRegister_steady.kept)⟩
  | kvMapRead _ => exact ⟨_, rfl, packetRow_kept (fun _ _ => bodyKvMapRead_steady.kept)⟩
  | coreStatsRead _ => exact ⟨_, rfl, packetRow_kept (fun _ _ => bodyCoreStatsRead_steady.kept)⟩
  | memRead _ => exact ⟨_, rfl, packetRow_kept (fun _ _ => bodyMemRead_steady.kept)⟩
  | arrayStatusRead _ => exact ⟨_, rfl, packetRow_kept (fun _ _ => bodyArrayStatusRead_steady.kept)⟩
  | calTableRead _ => exact ⟨_, rfl, packetRow_kept (fun _ _ => bodyCalTableRead_steady.kept)⟩
  | arrayCalRun _ => exact ⟨_, rfl, packetRow_kept (fun _ _ => bodyArrayCalRun_steady.kept)⟩
  | siteSeqRead _ => exact ⟨_, rfl, packetRow_kept (fun _ _ => bodySiteSeqRead_steady.kept)⟩
  | siteSeqWrite _ => exact ⟨_, rfl, packetRow_kept (fun _ _ => bodySiteSeqWrite_steady.kept)⟩
  | siteDiagRun _ => exact ⟨_, rfl, packetRow_kept (fun _ _ => bodySiteDiagRun_steady.kept)⟩
  | quartzStatsRead _ => exact ⟨_, rfl, packetRow_kept (fun _ _ => bodyQuartzStatsRead_steady.kept)⟩
  | checkFractionSet _ => exact ⟨_, rfl, packetRow_kept (fun _ _ => bodyCheckFractionSet_steady.kept)⟩
  | probeInstall _ => exact ⟨_, rfl, packetRow_kept (fun _ _ => bodyProbeInstall_steady.kept)⟩
  | probeRemove _ => exact ⟨_, rfl, packetRow_kept (fun _ _ => bodyProbeRemove_steady.kept)⟩
  | thermalRead _ => exact ⟨_, rfl, packetRow_kept (fun _ _ => bodyThermalRead_steady.kept)⟩
  | thermalSet _ => exact ⟨_, rfl, packetRow_kept (fun _ _ => bodyThermalSet_steady.kept)⟩
  | powerStateSetDormant _ => exact ⟨_, rfl, packetRow_kept (fun _ _ => bodyPowerDormant_steady.kept)⟩
  | powerStateSetActive _ => exact ⟨_, rfl, packetRow_kept (fun _ _ => bodyPowerActive_kept)⟩
  | chipReset _ => exact ⟨_, rfl, packetRow_kept (fun _ _ => bodyChipReset_kept)⟩
  | firmwareLoad _ => exact ⟨_, rfl, packetRow_kept (fun _ _ => bodyFirmwareLoad_kept)⟩
  | portModeSet _ => exact ⟨_, rfl, packetRow_kept (fun _ _ => bodyPortModeSet_steady.kept)⟩
  | pairConfigurePair _ _ => exact ⟨_, rfl, packetRow_kept (fun _ _ => bodyPair_steady.kept)⟩
  | pairConfigureUnpair _ => exact ⟨_, rfl, packetRow_kept (fun _ _ => bodyUnpair_steady.kept)⟩
  | weightServerRegister _ => exact ⟨_, rfl, packetRow_kept (fun _ _ => bodyWeightServerRegister_steady.kept)⟩
  | kvPeerRegister _ => exact ⟨_, rfl, packetRow_kept (fun _ _ => bodyKvPeerRegister_steady.kept)⟩
  | fabricStatusRead _ => exact ⟨_, rfl, packetRow_kept (fun _ _ => bodyFabricStatusRead_steady.kept)⟩
  | unknownOpcode _ => exact ⟨_, rfl, packetRow_kept (fun _ _ => .refl)⟩
  | scrubPeriodSet _ => exact ⟨_, rfl, mgmtAnswer_kept (fun _ => scrubPeriodWork_steady.kept)⟩
  | scrubPeriodRead _ => exact ⟨_, rfl, mgmtAnswer_kept (fun _ => scrubReadWork_steady.kept)⟩
  | setpointSet _ => exact ⟨_, rfl, mgmtAnswer_kept (fun _ => setpointWork_steady.kept)⟩
  | powerLimitSet _ => exact ⟨_, rfl, mgmtAnswer_kept (fun _ => powerLimitWork_steady.kept)⟩
  | collectorRegister _ => exact ⟨_, rfl, mgmtAnswer_kept (fun _ => collectorWork_steady.kept)⟩
  | recordAck _ => exact ⟨_, rfl, mgmtAnswer_kept (fun _ => recordAckWork_steady.kept)⟩
  | platformEventMessageResponse _ => exact ⟨_, rfl, platformAck_steady.kept⟩
  | setEventReceiver _ => exact ⟨_, rfl, eventReceiverSet_steady.kept⟩
  | ownerKeyFuse _ => exact ⟨_, rfl, mgmtAnswer_kept (fun _ => ownerKeyWork_kept)⟩
  | arrayEraseAll _ => exact ⟨_, rfl, mgmtAnswer_kept (fun _ => eraseWork_steady.kept)⟩
  | debugNonce _ => exact ⟨_, rfl, mgmtAnswer_kept (fun _ => debugNonceWork_steady.kept)⟩
  | debugUnlock _ => exact ⟨_, rfl, mgmtAnswer_kept (fun _ => debugUnlockWork_steady.kept)⟩
  | packet _ => exact ⟨_, rfl, mgmtRow_kept (fun _ _ => packetCarried_kept)⟩
  | powerControlRailsOff _ => exact ⟨_, rfl, powerControl_kept (fun _ => commandRailsOff_kept)⟩
  | powerControlPowerUp _ => exact ⟨_, rfl, powerControl_kept (fun _ => commandPowerUp_kept)⟩
  | powerControlModuleReset _ => exact ⟨_, rfl, powerControl_kept (fun _ => moduleReset_kept)⟩
  | getMeasurements _ => exact ⟨_, rfl, measurementsTaken_steady.kept⟩
  | keyEx _ _ _ => exact ⟨_, rfl, sessionKeyed_steady.kept⟩
  | keyUpdate _ _ => exact ⟨_, rfl, .update .refl⟩
  | spdmSessionEnd _ _ => exact ⟨_, rfl, .update .refl⟩
  | pldmFirmwareUpdate _ _ => exact ⟨_, rfl, lodgeDelivers_kept⟩
  | lodgeImageUpdate _ _ _ => exact ⟨_, rfl, lodgeImageWritten_steady.kept⟩
  | recoveryImage _ => exact ⟨_, rfl, recoveryArrives_kept⟩
  | managementMessageDiscarded => exact ⟨_, rfl, messageDiscarded_steady.kept⟩
  | doorbell _ _ _ _ => exact ⟨_, rfl, .ite ringDoorbell_steady.kept .refl⟩
  | resetCtl _ _ => exact ⟨_, rfl, .ite writeReg32_kept .refl⟩
  | bsqCtl _ _ => exact ⟨_, rfl, .ite writeReg32_kept .refl⟩
  | brplCtl _ _ => exact ⟨_, rfl, .ite writeReg32_kept .refl⟩
  | eqCtl _ _ => exact ⟨_, rfl, .ite writeReg32_kept .refl⟩
  | mbxCtlLoad _ _ => exact ⟨_, rfl, .ite writeReg32_kept .refl⟩
  | registerWrite _ _ _ _ => exact ⟨_, rfl, .ite writeBar0_kept .refl⟩
  | bar4Access _ _ _ _ => exact ⟨_, rfl, .ite bar4Access_steady.kept .refl⟩
  | vfEnable _ => exact ⟨_, rfl, .ite vfEnabled_steady.kept .refl⟩
  | vfEnableCleared => exact ⟨_, rfl, .ite vfDisabled_kept .refl⟩
  | functionLevelReset _ => exact ⟨_, rfl, .ite functionReset_kept .refl⟩
  | pcieHotReset => exact ⟨_, rfl, hotResets_kept⟩
  | perst _ => exact ⟨_, rfl, perstChanges_kept⟩
  | modResetL _ _ => exact ⟨_, rfl, modResets_kept⟩
  | dStateChange _ _ => exact ⟨_, rfl, .ite dStateChanges_steady.kept .refl⟩
  | linkTrained _ _ => exact ⟨_, rfl, linkTrains_kept⟩
  | linkDown => exact ⟨_, rfl, linkFalls_steady.kept⟩
  | referenceClockLost => exact ⟨_, rfl, clockLost_steady.kept⟩
  | referenceClockReturned => exact ⟨_, rfl, .update .refl⟩
  | mainInputFault _ => exact ⟨_, rfl, mainFaults_kept⟩
  | mainInputMarginal _ => exact ⟨_, rfl, mainMarginal_steady.kept⟩
  | mainInputRestored _ => exact ⟨_, rfl, mainRestored_kept⟩
  | standbyInputFault _ => exact ⟨_, rfl, standbyFaults_steady.kept⟩
  | standbyInputApplied => exact ⟨_, rfl, standbyApplied_kept⟩
  | standbyInputLost => exact ⟨_, rfl, standbyLost_kept⟩
  | lodgeImageVerified => exact ⟨_, rfl, lodgeVerified_kept⟩
  | mainRailsPowerUp => exact ⟨_, rfl, railsPowerUp_kept⟩
  | gatehouseReleased => exact ⟨_, rfl, gatehouseReleases_kept⟩
  | bundleFetchEnd _ => exact ⟨_, rfl, fetchEnds_kept⟩
  | bootRunning => exact ⟨_, rfl, bootRuns_kept⟩
  | kioskWatchdog => exact ⟨_, rfl, kioskDogs_kept⟩
  | watchdogChipReset => exact ⟨_, rfl, watchdogResets_kept⟩
  | gatehouseSilent => exact ⟨_, rfl, gatehouseFalls_kept⟩
  | lodgeSilent => exact ⟨_, rfl, lodgeFalls_kept⟩
  | chipResetComplete _ => exact ⟨_, rfl, chipResetEnds_kept⟩
  | timeStale => exact ⟨_, rfl, timeGoesStale_steady.kept⟩
  | stepBoundary _ => exact ⟨_, rfl, stepBoundary_steady.kept⟩
  | variantRaise => exact ⟨_, rfl, variantRaises_steady.kept⟩
  | stepEnd _ _ _ => exact ⟨_, rfl, stepEnds_steady.kept⟩
  | recordWrite _ => exact ⟨_, rfl, writeHeld_steady.kept⟩
  | consumerCountReread _ _ => exact ⟨_, rfl, rereadConsumer_steady.kept⟩
  | moderationDelay _ => exact ⟨_, rfl, moderate_steady.kept⟩
  | chainHandoff _ => exact ⟨_, rfl, chainHandsOff_steady.kept⟩
  | kvBlockCopyComplete _ => exact ⟨_, rfl, blockCopied_steady.kept⟩
  | kvBlockReturned _ => exact ⟨_, rfl, blockReturned_steady.kept⟩
  | buildStart _ => exact ⟨_, rfl, buildStarts_steady.kept⟩
  | replanInterval _ => exact ⟨_, rfl, replanStarts_steady.kept⟩
  | buildComplete _ => exact ⟨_, rfl, buildCompletes_steady.kept⟩
  | planReady => exact ⟨_, rfl, planBecomesReady_steady.kept⟩
  | shardArrival _ _ _ _ => exact ⟨_, rfl, .ite shardArrive_steady.kept .refl⟩
  | rehash _ _ _ _ _ _ => exact ⟨_, rfl, .ite rehashShard_kept .refl⟩
  | drive n i =>
    cases i with
    | none => exact ⟨_, rfl, Kept.update .refl⟩
    | some i => exact ⟨_, rfl, driveFirst_steady.kept⟩
  | driveEnd _ => exact ⟨_, rfl, .update .refl⟩
  | trigger _ => exact ⟨_, rfl, .update .refl⟩
  | guard _ => exact ⟨_, rfl, guardExpires_steady.kept⟩
  | sweepEnd _ _ => exact ⟨_, rfl, sweepEnds_steady.kept⟩
  | sweepLimit _ => exact ⟨_, rfl, .update .refl⟩
  | handover _ => exact ⟨_, rfl, handsOver_steady.kept⟩
  | wideRowFetch _ _ _ => exact ⟨_, rfl, rowArrives_steady.kept⟩
  | repairTailEnd _ => exact ⟨_, rfl, tailEnds_steady.kept⟩
  | widePathComplete _ _ _ => exact ⟨_, rfl, wideCompletes_steady.kept⟩
  | partialArrival _ _ _ _ => exact ⟨_, rfl, partialArrives_steady.kept⟩
  | drainEnd _ => exact ⟨_, rfl, drainEnds_steady.kept⟩
  | sentinelCheckComplete _ _ _ => exact ⟨_, rfl, checkCompletes_steady.kept⟩
  | probeSummary => exact ⟨_, rfl, probeSummaries_steady.kept⟩
  | calibrationDue _ => exact ⟨_, rfl, calibrationFallsDue_steady.kept⟩
  | calibrationGap _ => exact ⟨_, rfl, calibrationGap_steady.kept⟩
  | calibrationRoundEnd _ _ _ _ _ => exact ⟨_, rfl, roundEnds_steady.kept⟩
  | calibrationTimeout _ => exact ⟨_, rfl, calibrationTimesOut_steady.kept⟩
  | spareRotation _ => exact ⟨_, rfl, rotateSpare_steady.kept⟩
  | sliceCalibration _ _ _ => exact ⟨_, rfl, sliceEnds_steady.kept⟩
  | programmingComplete _ _ _ => exact ⟨_, rfl, programCompletes_steady.kept⟩
  | programmingMaximumTime _ _ _ _ => exact ⟨_, rfl, programTimesOut_steady.kept⟩
  | diagnosisComplete _ _ => exact ⟨_, rfl, diagnosisEnds_steady.kept⟩
  | siteControlTimeout _ => exact ⟨_, rfl, controlTimesOut_steady.kept⟩
  | scrubPass _ _ _ => exact ⟨_, rfl, scrubReads_kept⟩
  | arrayScrub _ _ _ => exact ⟨_, rfl, arrayScrubbed_steady.kept⟩
  | repairAdapterTrained _ _ => exact ⟨_, rfl, .update .refl⟩
  | repairAdapterTimeout _ _ => exact ⟨_, rfl, adapterTimesOut_steady.kept⟩
  | remoteWrite _ => exact ⟨_, rfl, writeRemote_steady.kept⟩
  | remoteRead _ => exact ⟨_, rfl, readRemote_steady.kept⟩
  | completionMark _ _ => exact ⟨_, rfl, markArrives_steady.kept⟩
  | windowClosePoint _ _ => exact ⟨_, rfl, closePoint_steady.kept⟩
  | windowGuard _ _ => exact ⟨_, rfl, windowGuards_kept⟩
  | flitCrcFail _ _ _ _ => exact ⟨_, rfl, flitFails_kept⟩
  | hbmReadError _ _ => exact ⟨_, rfl, hbmCorrected_kept⟩
  | uncorrectableMemoryError _ _ _ => exact ⟨_, rfl, hbmUncorrected_kept⟩
  | burstCheckFail _ _ _ => exact ⟨_, rfl, hbmUncorrected_kept⟩
  | sramParityError _ => exact ⟨_, rfl, sramError_kept⟩
  | stackLost _ _ => exact ⟨_, rfl, loseStack_kept⟩
  | quarterLost _ _ _ => exact ⟨_, rfl, loseQuarter_steady.kept⟩
  | recordHoldEnd _ _ => exact ⟨_, rfl, holdEnds_steady.kept⟩
  | recordResend => exact ⟨_, rfl, recordsResent_steady.kept⟩
  | diodeSample _ => exact ⟨_, rfl, diodesSampled_kept⟩
  | throttle => exact ⟨_, rfl, throttleMoves_steady.kept⟩
  | powerLevel _ _ => exact ⟨_, rfl, powerMoves_steady.kept⟩
  | outputLevelChange => exact ⟨_, rfl, outputLevelMoves_steady.kept⟩
  | thermalUpdate => exact ⟨_, rfl, thermalWritten_steady.kept⟩
  | hardThermalTrip _ => exact ⟨_, rfl, hardTrip_kept⟩
  | shutdownRearm => exact ⟨_, rfl, shutdownRearms_kept⟩
  | coolantSample _ _ _ => exact ⟨_, rfl, coolantSampled_steady.kept⟩
  | heartbeat _ => exact ⟨_, rfl, heartbeatGoes_steady.kept⟩
  | heartbeatSilent => exact ⟨_, rfl, silenceFound_steady.kept⟩
  | pairOkIn _ => exact ⟨_, rfl, okInChanges_steady.kept⟩
  | mirror _ => exact ⟨_, rfl, mirrorTaken_steady.kept⟩
  | mirrorAcknowledgement _ => exact ⟨_, rfl, mirrorAcknowledged_steady.kept⟩
  | pairConfigureTimeout => exact ⟨_, rfl, pairTimesOut_steady.kept⟩
  | portTrainingTimeout _ => exact ⟨_, rfl, .update .refl⟩
  | hachateFlit _ _ _ _ => exact ⟨_, rfl, flitTaken_steady.kept⟩
  | negativeAcknowledgement _ _ => exact ⟨_, rfl, .update .refl⟩
  | retrainTimeout _ => exact ⟨_, rfl, retrainTimesOut_steady.kept⟩
  | laneFailure _ => exact ⟨_, rfl, laneFails_steady.kept⟩
  | datagram _ _ _ => exact ⟨_, rfl, datagramArrives_steady.kept⟩
  | refusal _ _ _ => exact ⟨_, rfl, refusalArrives_steady.kept⟩
  | datagramResend _ => exact ⟨_, rfl, datagramResends_steady.kept⟩
  | fabricPortUp _ _ _ => exact ⟨_, rfl, pairPortRises_steady.kept⟩
  | neighbourDiscoveryMessage _ _ _ => exact ⟨_, rfl, .update .refl⟩
  | dynamicAddressAssignment _ => exact ⟨_, rfl, addressAssigned_steady.kept⟩

end Sys2Proof.Proofs
end

section
/-! What follows for a step of the block: form of the memories, fuses (R536), the front command, and the state after reset. -/

namespace Sys2Proof.Proofs
open Sys2Proof Sys2Proof.Machine Sys2Proof.Safety Sys2Proof.Laws

/-- A step on an empty queue is a cycle of the clock. -/
theorem step_nil {s : State} (h : s.pending = []) : step s = .next (tick s) := by
  unfold step
  rw [h]

/-- A step with a command at the front is that command on the state with the queue's rest. -/
theorem step_cons {s : State} {c : Instr} {rest : List Instr} (h : s.pending = c :: rest) :
    step s = exec c { s with pending := rest } := by
  unfold step
  rw [h]

/-- Every step but elapsed time keeps memories and lets fuses grow: the idle clock touches neither. -/
theorem step_keeps {s t : State} (h : step s = .next t) : (MemoryWf s → MemoryWf t) ∧ FusesGrow s.fuses t.fuses := by
  cases hq : s.pending with
  | nil =>
    rw [step_nil hq] at h
    cases h
    exact ⟨id, .refl _⟩
  | cons c rest =>
    rw [step_cons hq] at h
    obtain ⟨u, hu, hkept⟩ := exec_kept c { s with pending := rest }
    rw [hu] at h
    cases h
    exact ⟨hkept.memory, hkept.fuses⟩

/-- Settles O58: the only writes to the memories are hostWrite and the development aperture's, and both keep the form. -/
theorem everyStepKeepsMemoryForm : Obligations.EveryStepKeepsMemoryForm :=
  fun _ _ hwf hstep => (step_keeps hstep).1 hwf

/-- Settles O59: fuses change only where a version is burnt or an unfused owner key is fused. -/
theorem fuseBitsAreNeverCleared : Obligations.FuseBitsAreNeverCleared := by
  intro s t hstep
  obtain ⟨howner, hversion, honce, hvendor⟩ := (step_keeps hstep).2
  exact ⟨howner, hversion, honce, hvendor⟩

/-- Settles O56: by the two cases of a step, and because every command answers a next state. -/
theorem stepRunsTheFrontCommand : Obligations.StepRunsTheFrontCommand := by
  refine ⟨fun c rest s => step_cons rfl, fun c s => ?_, fun s hq => ⟨tick s, step_nil hq, rfl, rfl⟩⟩
  obtain ⟨t, ht, -⟩ := exec_kept c s
  exact ⟨t, ht⟩

/-- Settles O57: the values of State.reset, read off. -/
theorem resetValues : Obligations.ResetValues := by
  unfold Obligations.ResetValues
  exact ⟨rfl, rfl, rfl, rfl, rfl, rfl, rfl, rfl, rfl, rfl, rfl, rfl, rfl, rfl, rfl, rfl, rfl, rfl, rfl, rfl, rfl, rfl, rfl,
    empty_wf, empty_wf⟩

end Sys2Proof.Proofs
end

section
/-! Sessions opened, closed and given new keys (R404, R459, R553). -/

namespace Sys2Proof.Proofs
open Sys2Proof Sys2Proof.Machine Sys2Proof.Safety Sys2Proof.Laws

/-! ### Maps -/

section
variable {α : Type} {m : Store α} {n : Nat}

/-- An entry read from a map is one of its pairs. -/
theorem mem_of_sget {v : α} (h : sget m n = some v) : (n, v) ∈ m := by
  induction m with
  | nil => cases h
  | cons e r ih =>
    obtain ⟨k, w⟩ := e
    unfold sget at h
    split at h
    · rename_i hk
      cases h
      exact hk ▸ List.mem_cons_self
    · exact List.mem_cons_of_mem _ (ih h)

/-- A map without a pair of a key reads none there. -/
theorem sget_eq_none (h : ∀ e ∈ m, e.1 ≠ n) : sget m n = none :=
  Option.eq_none_iff_forall_ne_some.mpr fun _ hv => h _ (mem_of_sget hv) rfl

/-- The pairs of a changed map. -/
theorem mem_smod {f : α → α} {e : Nat × α} (h : e ∈ smod m n f) :
    (e.1 ≠ n ∧ e ∈ m) ∨ (e.1 = n ∧ ∃ v, (n, v) ∈ m ∧ e.2 = f v) := by
  obtain ⟨⟨k, v⟩, hmem, rfl⟩ := List.mem_map.mp h
  by_cases hk : k = n
  · exact .inr (by simpa [hk] using ⟨v, hk ▸ hmem, rfl⟩)
  · exact .inl (by simpa [hk] using hmem)

/-- The pairs of a map changed throughout. -/
theorem mem_smapAll {f : Nat → α → α} {e : Nat × α} (h : e ∈ smapAll m f) : ∃ v, (e.1, v) ∈ m ∧ e.2 = f e.1 v := by
  obtain ⟨⟨k, v⟩, hmem, rfl⟩ := List.mem_map.mp h
  exact ⟨v, hmem, rfl⟩

end

/-! ### Rows -/

/-- The row of SESSION_OPEN (R459). -/
theorem exec_sessionOpen (p : Pkt) (s : State) : exec (.sessionOpen p) s = .next (packetRow 0x0001 p s id bodySessionOpen) := rfl

/-- The row of SESSION_CLOSE (R459). -/
theorem exec_sessionClose (p : Pkt) (s : State) : exec (.sessionClose p) s = .next (packetRow 0x0002 p s id bodySessionClose) :=
  rfl

/-- The row of SESSION_KEY_UPDATE (R459). -/
theorem exec_sessionKeyUpdate (p : Pkt) (s : State) :
    exec (.sessionKeyUpdate p) s = .next (packetRow 0x0003 p s id bodySessionKeyUpdate) := rfl

/-- An accepted packet of a row without further operands answers what its work gives. -/
theorem exec_accepted {opcode : Nat} {row : Pkt → Instr} {body : Ctx → State → State} {p : Pkt} {s t : State} {c : Ctx}
    (he : ∀ p s, exec (row p) s = .next (packetRow opcode p s id body)) (h : Accepted opcode p s c t) :
    exec (row p) s = .next (body c t) := by
  rw [he, packetRow_accepted h id body (fun _ => rfl) (fun _ => rfl) (fun _ _ => rfl)]
  rfl

/-! ### Requests that end (R354, R374, R404) -/

/-- What ends of requests leave: arrays, graphs and fuses; sessions and requests are none but earlier ones, and an object is gone
only if it is an adapter that retires. -/
structure Ends (s t : State) : Prop where
  arrays : t.arrays = s.arrays
  graphs : t.graphs = s.graphs
  fuses : t.fuses = s.fuses
  sessions : ∀ e ∈ t.sessions, e ∈ s.sessions
  requests : ∀ e ∈ t.requests, ∃ r, (e.1, r) ∈ s.requests ∧ r.session = e.2.session ∧ r.mirrored = e.2.mirrored
  objects : ∀ o ∈ t.objects, o ∈ s.objects
  kept : ∀ o ∈ s.objects, ¬(o.kind = .adapter ∧ o.retiring = true) → o ∈ t.objects

theorem Ends.refl (s : State) : Ends s s :=
  ⟨rfl, rfl, rfl, fun _ => id, fun e he => ⟨e.2, he, rfl, rfl⟩, fun _ => id, fun _ ho _ => ho⟩

theorem Ends.trans {s t u : State} (a : Ends s t) (b : Ends t u) : Ends s u where
  arrays := b.arrays.trans a.arrays
  graphs := b.graphs.trans a.graphs
  fuses := b.fuses.trans a.fuses
  sessions e he := a.sessions e (b.sessions e he)
  requests e he := by
    obtain ⟨r, hr, hses, hmir⟩ := b.requests e he
    obtain ⟨q, hq, hses', hmir'⟩ := a.requests _ hr
    exact ⟨q, hq, hses'.trans hses, hmir'.trans hmir⟩
  objects o ho := a.objects o (b.objects o ho)
  kept o ho hstays := b.kept o (a.kept o ho hstays) hstays

/-- A step that changes none of these ends nothing. -/
theorem Ends.of_same {s t : State} (ha : t.arrays = s.arrays) (hg : t.graphs = s.graphs) (hf : t.fuses = s.fuses)
    (hses : t.sessions = s.sessions) (hreq : t.requests = s.requests) (hobj : t.objects = s.objects) : Ends s t :=
  ⟨ha, hg, hf, fun _ he => hses ▸ he, fun e he => ⟨e.2, hreq ▸ he, rfl, rfl⟩, fun _ ho => hobj ▸ ho, fun _ ho _ => hobj ▸ ho⟩

/-- A reply ends nothing. -/
theorem Ends.of_reply {s t : State} (h : SameButReply s t) : Ends s t := by
  unfold SameButReply at h
  rw [h]
  exact .of_same rfl rfl rfl rfl rfl rfl

/-- Answering jobs ends no request. -/
theorem finishJobs_ends (s : State) (answer : Job → Option (Status × Nat × Bytes)) : Ends s (finishJobs s answer) :=
  .trans (t := { s with jobs := s.jobs.filter (fun j => (answer j).isNone) }) (.of_same rfl rfl rfl rfl rfl rfl)
    (.of_reply (finishJobs_frame s answer))

/-- Sessions that remain after closing ones are settled were there, and if one closes, an open request names it (R404). -/
theorem mem_settleClosing_sessions {s : State} {e : Nat × Session} (h : e ∈ (settleClosing s).sessions) :
    e ∈ s.sessions ∧ (e.2.closing = true → ∃ x ∈ s.requests, x.2.session = e.1) := by
  unfold settleClosing at h
  rw [finishJobs_frame] at h
  obtain ⟨hmem, hopen⟩ := List.mem_filter.mp h
  refine ⟨hmem, fun hclosing => ?_⟩
  rw [hclosing, Bool.not_true, Bool.false_or] at hopen
  obtain ⟨x, hx, hnamed⟩ := List.any_eq_true.mp hopen
  rw [Bool.and_eq_true, decide_eq_true_eq] at hnamed
  exact ⟨x, hx, hnamed.1⟩

/-- Settling what closes ends no more than adapters that retire. -/
theorem settleClosing_ends (s : State) : Ends s (settleClosing s) := by
  refine .trans (t := settleAdapters s) ?adapters (.trans (t := { settleAdapters s with accounts := _, sessions := _ }) ?closed
    (finishJobs_ends _ _))
  case adapters =>
    refine ⟨rfl, rfl, rfl, fun _ => id, fun e he => ⟨e.2, he, rfl, rfl⟩, fun o ho => (List.mem_filter.mp ho).1, fun o ho hstays => ?_⟩
    exact List.mem_filter.mpr ⟨ho, decide_eq_true fun ⟨hk, hr, _⟩ => hstays ⟨hk, hr⟩⟩
  case closed =>
    exact ⟨rfl, rfl, rfl, fun e he => (List.mem_filter.mp he).1, fun e he => ⟨e.2, he, rfl, rfl⟩, fun _ => id, fun _ ho _ => ho⟩

/-- A request that ends leaves the others, and what they hold. -/
theorem dropRequest_ends (s : State) (h : Nat) : Ends s (dropRequest s h) := by
  unfold dropRequest
  split
  · exact .refl s
  · rename_i r _
    have hcharge : Ends s (if r.ran then s else addLevel s r.account r.cls (Int.ofNat (r.charge * 1024)) true) := by
      split
      · exact .refl s
      · exact .of_same rfl rfl rfl rfl rfl rfl
    refine hcharge.trans (.trans ?_ (settleClosing_ends _))
    exact ⟨rfl, rfl, rfl, fun _ => id, fun e he => ⟨e.2, (List.mem_filter.mp he).1, rfl, rfl⟩, fun _ => id, fun _ ho _ => ho⟩

theorem dropRequests_ends (s : State) (hs : List Nat) : Ends s (dropRequests s hs) := by
  induction hs generalizing s with
  | nil => exact .refl s
  | cons h hs ih => exact (dropRequest_ends s h).trans (ih _)

/-- Requests marked to end keep their session; those whose end record waited are gone (R404). -/
theorem closeRequests_ends (s : State) (p : Request → Bool) : Ends s (closeRequests s p) := by
  unfold closeRequests
  extract_lets gone s1
  refine .trans (t := s1) ?marked (.trans (dropRequests_ends s1 gone) ?orphaned)
  case marked =>
    refine ⟨rfl, rfl, rfl, fun _ => id, fun e he => ?_, fun _ => id, fun _ ho _ => ho⟩
    dsimp only [s1] at he
    obtain ⟨r, hr, hv⟩ := mem_smapAll he
    refine ⟨r, hr, ?_, ?_⟩ <;> rw [hv] <;> split <;> rfl
  case orphaned => exact .of_same rfl rfl rfl rfl rfl rfl

/-! ### SESSION_OPEN (R459, R553) -/

/-- The session that SESSION_OPEN makes under a handle: bound to no SPDM session, or to the one named, with its key (R553). -/
def openedSession (c : Ctx) (s : State) (n : Nat) : Session where
  fn := c.fn
  spdm := if c.par 0 4 = 0 then none else some (BitVec.ofNat 32 (c.par 0 4))
  key := if c.par 0 4 = 0 then none else (fnSpdm s c.fn (c.par 0 4)).map (fun e => sessionKey e.secret n)

/-- A packet that names no SPDM session, or a known one, gets the lowest free handle. -/
theorem bodySessionOpen_free {c : Ctx} {s : State} {n : Nat}
    (h : c.par 0 4 ≠ 0 → (fnSpdm s c.fn (c.par 0 4)).isNone = false) (hfree : firstFree s.sessions 0 4096 = some n) :
    bodySessionOpen c s = replyOk c { s with sessions := sput s.sessions n (openedSession c s n) } (leBytes 2 n) := by
  unfold bodySessionOpen
  rw [if_neg fun ⟨hid, hnone⟩ => absurd (h hid) (by rw [hnone]; decide), hfree]
  rfl

/-- Without a free handle it is refused. -/
theorem bodySessionOpen_full {c : Ctx} {s : State} (hid : c.par 0 4 = 0) (hfull : firstFree s.sessions 0 4096 = none) :
    bodySessionOpen c s = replySt c s .refusedCapacity := by
  refine (if_neg fun h => h.1 hid).trans ?_
  rw [hfull]

/-- An SPDM session that the function does not hold is NOT_FOUND. -/
theorem bodySessionOpen_unknown {c : Ctx} {s : State} (hid : c.par 0 4 ≠ 0) (h : fnSpdm s c.fn (c.par 0 4) = none) :
    bodySessionOpen c s = replySt c s .notFound :=
  if_pos ⟨hid, by rw [h]; rfl⟩

/-- Settles O1: the lowest free handle decides, once the SPDM session named is known. -/
theorem sessionOpenBindsAFreeHandle : Obligations.SessionOpenBindsAFreeHandle := by
  refine ⟨fun h => carries_of exec_sessionOpen ?plain, fun h e => carries_of exec_sessionOpen ?bound,
    carries_of exec_sessionOpen ?unknown, carries_of exec_sessionOpen ?full⟩
  case plain =>
    rintro c t ⟨hid, hfree⟩
    rw [bodySessionOpen_free (absurd hid) hfree]
    simp only [openedSession, hid, if_true]
  case bound =>
    rintro c t ⟨hid, hspdm, hfree⟩
    rw [bodySessionOpen_free (fun _ => by rw [hspdm]; rfl) hfree]
    simp only [openedSession, hid, if_false, hspdm, Option.map_some]
  case unknown =>
    rintro c t ⟨hid, hspdm⟩
    exact bodySessionOpen_unknown hid hspdm
  case full =>
    rintro c t ⟨hid, hfull⟩
    exact bodySessionOpen_full hid hfull

/-! ### SESSION_CLOSE (R404) and SESSION_KEY_UPDATE (R553) -/

/-- A session that closes: every entry under its handle is marked, and its requests end. -/
theorem bodySessionClose_ends (c : Ctx) (s : State) :
    ∃ u, bodySessionClose c s = settleClosing u ∧
      Ends { s with sessions := smod s.sessions c.session (fun x => { x with closing := true }) } u :=
  ⟨_, rfl, .trans (t := startJob c { s with sessions := smod s.sessions c.session (fun x => { x with closing := true }) }
    (.closeSession c.session)) (.of_same rfl rfl rfl rfl rfl rfl) (closeRequests_ends _ _)⟩

/-- Settles O2: no session under the handle is left but closing ones that an open request names; nothing but requests and what
waited for their end is gone. -/
theorem sessionCloseAndKeyUpdate : Obligations.SessionCloseAndKeyUpdate := by
  refine ⟨fun p s c t hacc => ?close, fun e => carries_of exec_sessionKeyUpdate fun c t he => ?bound,
    carries_of exec_sessionKeyUpdate fun c t he => ?unknown⟩
  case close =>
    obtain ⟨u, hbody, hends⟩ := bodySessionClose_ends c t
    have hall := hends.trans (settleClosing_ends u)
    have hclosing : ∀ x, (c.session, x) ∈ (settleClosing u).sessions → x.closing = true := by
      intro x hx
      have hmod := hall.sessions _ hx
      dsimp only at hmod
      obtain ⟨hne, -⟩ | ⟨-, v, -, hv⟩ := mem_smod hmod
      · exact absurd rfl hne
      · exact (congrArg Session.closing hv).trans rfl
    refine ⟨settleClosing u, by rw [exec_accepted exec_sessionClose hacc, hbody], fun x hx => hclosing x (mem_of_sget hx),
      fun hnone => sget_eq_none ?_, hall.arrays, hall.graphs, hall.fuses, hall.objects, hall.kept⟩
    rintro ⟨n, x⟩ he rfl
    obtain ⟨x, hx, hnamed⟩ := (mem_settleClosing_sessions he).2 (hclosing _ he)
    obtain ⟨r, hr, hses, _⟩ := hends.requests _ hx
    exact hnone _ hr (hses.trans hnamed)
  case bound =>
    unfold bodySessionKeyUpdate
    rw [he]
  case unknown =>
    unfold bodySessionKeyUpdate
    rw [he]
    rfl

end Sys2Proof.Proofs
end

section
/-! Submission queues made, deleted and reset by packets (R426, R444, R459). -/

namespace Sys2Proof.Proofs
open Sys2Proof Sys2Proof.Machine Sys2Proof.Safety Sys2Proof.Laws

/-- The row of QUEUE_CREATE (R459). -/
theorem exec_queueCreate (p : Pkt) (s : State) : exec (.queueCreate p) s = .next (packetRow 0x0010 p s id bodyQueueCreate) := rfl

/-- The row of QUEUE_DELETE (R459). -/
theorem exec_queueDelete (p : Pkt) (s : State) : exec (.queueDelete p) s = .next (packetRow 0x0011 p s id bodyQueueDelete) := rfl

/-- The row of QUEUE_RESET (R459). -/
theorem exec_queueReset (p : Pkt) (s : State) : exec (.queueReset p) s = .next (packetRow 0x0012 p s id bodyQueueReset) := rfl

/-- The queue a QUEUE_CREATE packet asks for, its counts 0 (R426). -/
def createdQueue (c : Ctx) : SubQueue :=
  { base := BitVec.ofNat 64 (c.par 8 8), depth := 2 ^ c.par 2 1, priority := c.par 3 1, ring := c.par 4 2 }

/-- A free queue of the issuing function, with fields in range and a ring that is there, is made (R426). -/
theorem bodyQueueCreate_made {c : Ctx} {s : State} (hown : ownerOfQueue s (c.par 0 2) = c.fn) (hboot : c.par 0 2 ≠ bootQueue c.fn)
    (hdepth : 4 ≤ c.par 2 1 ∧ c.par 2 1 ≤ 12) (hprio : c.par 3 1 ≤ 3) (hring : c.par 4 2 < 4096)
    (hringOwn : ownerOfRing s (c.par 4 2) = c.fn) (hbase : c.par 8 8 % 4096 = 0) (hfree : shas s.queues (c.par 0 2) = false)
    (hthere : shas s.rings (c.par 4 2) = true) :
    bodyQueueCreate c s = replyOk c { s with queues := sput s.queues (c.par 0 2) (createdQueue c) } [] := by
  unfold bodyQueueCreate
  dsimp only
  rw [if_neg (not_not.mpr hown), if_neg hboot, if_neg (by omega), if_neg (by omega), if_neg (by omega),
    if_neg (not_not.mpr hringOwn), if_neg (not_not.mpr hbase), if_neg (by simp [hfree]), if_neg (by simp [hthere])]
  rfl

/-- A queue reset empties the queue, and its requests end as cancelled ones (R444). -/
theorem resetQueue_eq (s : State) (q : Nat) : resetQueue s q = { s with
    queues := smod s.queues q (fun x => { x with producer := 0, consumed := 0 })
    requests := smapAll s.requests (fun _ r => if r.queue = q then { r with cancelled := true } else r) } := by
  simp only [resetQueue, cancelRequests, decide_eq_true_eq]

/-- A queue of the issuing function, neither its bootstrap queue nor the packet's own, is deleted (R459). -/
theorem bodyQueueDelete_deleted {c : Ctx} {s : State} (hown : ownerOfQueue s (c.par 0 2) = c.fn)
    (hboot : c.par 0 2 ≠ bootQueue c.fn) (hother : c.par 0 2 ≠ c.origin.queue) (hthere : shas s.queues (c.par 0 2) = true) :
    bodyQueueDelete c s = replyOk c { resetQueue s (c.par 0 2) with
      queues := sdel (resetQueue s (c.par 0 2)).queues (c.par 0 2) } [] := by
  unfold bodyQueueDelete
  dsimp only
  rw [if_neg (not_not.mpr hown), if_neg (by simp [hboot, hother, hthere])]

/-- A submission queue of the issuing function is reset (R444). -/
theorem bodyQueueReset_queue {c : Ctx} {s : State} (hkind : c.par 0 1 = 0) (hown : ownerOfQueue s (c.par 2 2) = c.fn)
    (hthere : shas s.queues (c.par 2 2) = true) : bodyQueueReset c s = replyOk c (resetQueue s (c.par 2 2)) [] := by
  unfold bodyQueueReset
  dsimp only
  rw [if_pos hkind, if_neg (not_not.mpr hown), if_neg (by simp [hthere])]

/-- A ring of the issuing function that no open request names is reset (R444). -/
theorem bodyQueueReset_ring {c : Ctx} {s : State} (hkind : c.par 0 1 = 1) (hlt : c.par 2 2 < 4096)
    (hown : ownerOfRing s (c.par 2 2) = c.fn) (hthere : shas s.rings (c.par 2 2) = true)
    (hunused : ∀ e ∈ s.requests, e.2.ring ≠ c.par 2 2) : bodyQueueReset c s = replyOk c (resetRing s (c.par 2 2)) [] := by
  unfold bodyQueueReset
  dsimp only
  rw [if_neg (by omega), if_pos hkind, if_neg (by omega), if_neg (not_not.mpr hown), if_neg (by simp [hthere]),
    if_neg (by simpa using fun k r hr => hunused (k, r) hr)]

/-- Settles O4: creation passes every check of R426; deletion and reset act once owner and existence are checked. -/
theorem queuePackets : Obligations.QueuePackets := by
  refine ⟨carries_of exec_queueCreate ?made, carries_of exec_queueCreate ?foreign, carries_of exec_queueDelete ?deleted,
    carries_of exec_queueReset ?queue, carries_of exec_queueReset ?ring⟩
  case made =>
    rintro c t ⟨hown, hboot, hd, hd', hprio, hring, hringOwn, hbase, hfree, hthere⟩
    exact bodyQueueCreate_made hown hboot ⟨hd, hd'⟩ hprio hring hringOwn hbase hfree hthere
  case foreign => exact fun c t hforeign => if_pos hforeign
  case deleted =>
    rintro c t ⟨hown, hboot, hother, hthere⟩
    rw [bodyQueueDelete_deleted hown hboot hother hthere, resetQueue_eq]
  case queue =>
    rintro c t ⟨hkind, hown, hthere⟩
    rw [bodyQueueReset_queue hkind hown hthere, resetQueue_eq]
  case ring =>
    rintro c t ⟨hkind, hlt, hown, hthere, hunused⟩
    exact bodyQueueReset_ring hkind hlt hown hthere hunused

end Sys2Proof.Proofs
end

section
/-! Objects loaded, replaced and retired by packets (R346, R352, R354, R359 to R361). -/

namespace Sys2Proof.Proofs
open Sys2Proof Sys2Proof.Machine Sys2Proof.Safety Sys2Proof.Laws

/-! ### Rows -/

/-- The row of MODEL_LOAD (R460). -/
theorem exec_modelLoad (p : Pkt) (s : State) : exec (.modelLoad p) s = .next (packetRow 0x0101 p s id bodyModelLoad) := rfl

/-- The row of ADAPTER_LOAD (R460). -/
theorem exec_adapterLoad (p : Pkt) (s : State) : exec (.adapterLoad p) s = .next (packetRow 0x0111 p s id bodyAdapterLoad) := rfl

/-- The row of MODEL_REPLACE (R460), which knows whether the arrays fit. -/
theorem exec_modelReplace (p : Pkt) (fit : Bool) (s : State) : exec (.modelReplace p fit) s =
    .next (packetRow 0x0102 p s (fun c => { c with arraysFit := fit }) bodyModelReplace) := rfl

/-- The row of ADAPTER_REPLACE (R460). -/
theorem exec_adapterReplace (p : Pkt) (s : State) :
    exec (.adapterReplace p) s = .next (packetRow 0x0112 p s id bodyAdapterReplace) := rfl

/-- The row of MODEL_RETIRE (R460). -/
theorem exec_modelRetire (p : Pkt) (s : State) :
    exec (.modelRetire p) s = .next (packetRow 0x0103 p s id bodyModelRetire) := rfl

/-- The row of ADAPTER_RETIRE (R460). -/
theorem exec_adapterRetire (p : Pkt) (s : State) :
    exec (.adapterRetire p) s = .next (packetRow 0x0113 p s id bodyAdapterRetire) := rfl

/-! ### Kinds, handles and objects -/

/-- A kind is read from its own code alone (R359). -/
theorem objKindOf_eq_some {n : Nat} {k : ObjKind} : objKindOf n = some k ↔ n = objCode k := by
  constructor
  · intro h
    unfold objKindOf at h
    split_ifs at h with h0 h1 h2 h3 <;> cases h <;> assumption
  · rintro rfl
    cases k <;> rfl

/-- The model packets take the kinds other than adapters. -/
theorem contains_objCode_models (k : ObjKind) : [0, 1, 3].contains (objCode k) = decide (k ≠ .adapter) := by cases k <;> rfl

/-- The adapter packets take adapters. -/
theorem contains_objCode_adapter (k : ObjKind) : [2].contains (objCode k) = decide (k = .adapter) := by cases k <;> rfl

/-- An object found by kind and handle is one of the loaded objects, of that kind and handle. -/
theorem objGet_some {s : State} {k : ObjKind} {h : Nat} {o : LoadedObject} (hget : objGet s k h = some o) :
    o.kind = k ∧ o.handle = h ∧ o ∈ s.objects :=
  have ⟨hkind, hhandle⟩ : o.kind = k ∧ o.handle = h := by simpa using List.find?_some hget
  ⟨hkind, hhandle, List.mem_of_find?_eq_some hget⟩

/-- The digest a load compares: of the generation that serves, or of the first one while it loads (R352). -/
abbrev loadDigest (o : LoadedObject) : Option (BitVec 256) := ((currentGen o).orElse (fun _ => o.gens.head?)).map (·.digest)

/-- The loaded object whose manifest a load names again (R352). -/
abbrev namesAgain (kinds : List Nat) (c : Ctx) (o : LoadedObject) : Bool :=
  decide (kinds.contains (objCode o.kind) ∧ !o.retiring ∧ c.par 8 4 = c.data.first.length) &&
    decide (loadDigest o = some (sha256 c.data.first))

theorem namesAgain_iff {kinds : List Nat} {c : Ctx} {o : LoadedObject} : namesAgain kinds c o = true ↔
    (kinds.contains (objCode o.kind) = true ∧ o.retiring = false ∧ c.par 8 4 = c.data.first.length) ∧
      loadDigest o = some (sha256 c.data.first) := by
  simp [namesAgain]

/-- A load of a named object adds a reference (R352), or waits for its first generation (log entry 114). -/
theorem loadObject_named {kinds : List Nat} {c : Ctx} {s : State} {o : LoadedObject} (hread : c.data.readable = true)
    (hmem : o ∈ s.objects) (hnamed : namesAgain kinds c o = true)
    (honly : ∀ x ∈ s.objects, namesAgain kinds c x = true → x = o) :
    loadObject kinds c s = (currentGen o).elim (joinLoad c s o) (addReference c s o) := by
  have hfind : s.objects.find? (namesAgain kinds c) = some o := by
    cases hf : s.objects.find? (namesAgain kinds c) with
    | none => exact absurd hnamed (List.find?_eq_none.mp hf o hmem)
    | some x => rw [honly x (List.mem_of_find?_eq_some hf) (List.find?_some hf)]
  unfold loadObject
  dsimp only
  rw [if_neg (by simp [hread]), hfind]
  dsimp only
  cases currentGen o <;> rfl

/-- A load of a new object takes the lowest free handle and asks for the shards (R346; log entry 17). -/
theorem loadObject_new {kinds : List Nat} {c : Ctx} {s : State} {k : ObjKind} {h : Nat} (hread : c.data.readable = true)
    (hnew : ∀ x ∈ s.objects, namesAgain kinds c x = false) (horder : manifestRefusal s c.data.first (c.par 8 4) kinds = none)
    (hkind : objKindOf (leAt c.data.first 2 1) = some k) (hlt : h < handlesOf k) (hfree : objGet s k h = none)
    (hlow : ∀ i < h, objGet s k i ≠ none) :
    loadObject kinds c s = requestShards (startJob c { s with
        objects := s.objects ++ [{ kind := k, handle := h, gens := [newGeneration c.data.first 1 (c.par 0 8) false] }] }
      (.load k h)) k h (newGeneration c.data.first 1 (c.par 0 8) false) := by
  have hfind : s.objects.find? (namesAgain kinds c) = none :=
    List.find?_eq_none.mpr fun x hx => by simp [hnew x hx]
  have hhandle : (List.range (handlesOf k)).find? (fun h => (objGet s k h).isNone) = some h :=
    List.find?_range_eq_some.mpr ⟨by simp [hfree], List.mem_range.mpr hlt, fun i hi => by
      simpa [Option.ne_none_iff_isSome] using hlow i hi⟩
  unfold loadObject
  dsimp only
  rw [if_neg (by simp [hread]), hfind]
  dsimp only
  rw [horder]
  dsimp only
  rw [hkind]
  dsimp only
  rw [hhandle]

/-- A load of a source that cannot be read is NOT_FOUND. -/
theorem loadObject_unreadable {kinds : List Nat} {c : Ctx} {s : State} (hread : c.data.readable = false) :
    loadObject kinds c s = reply c s .notFound 0 [] := by
  unfold loadObject
  exact if_pos (by simp [hread])

theorem firstBad_eq_none {l : List (Bool × Nat)} : firstBad l = none ↔ ∀ e ∈ l, e.1 = false := by
  simp [firstBad]

/-- A manifest in order for a packet is of one of the packet's kinds. -/
theorem mem_kinds_of_manifestRefusal {s : State} {m : Bytes} {len : Nat} {kinds : List Nat}
    (h : manifestRefusal s m len kinds = none) : leAt m 2 1 ∈ kinds := by
  unfold manifestRefusal at h
  split at h
  · cases h
  split at h
  · cases h
  · rename_i hgood
    have hkind := firstBad_eq_none.mp hgood (decide (leAt m 2 1 ∉ kinds), 2) (by simp [manifestChecks])
    simpa using hkind

/-- The kinds a load packet takes (R460). -/
def loadKinds (adapter : Bool) : List Nat := if adapter then [2] else [0, 1, 3]

theorem loadKinds_contains {adapter : Bool} {k : ObjKind} :
    (loadKinds adapter).contains (objCode k) = true ↔ (k = .adapter ↔ adapter = true) := by
  cases adapter
  · rw [show loadKinds false = [0, 1, 3] from rfl, contains_objCode_models]
    simp
  · rw [show loadKinds true = [2] from rfl, contains_objCode_adapter]
    simp

/-- The one loaded object a load packet of its kind names again. -/
structure Named (o : LoadedObject) (adapter : Bool) (c : Ctx) (t : State) : Prop where
  readable : c.data.readable = true
  length : c.par 8 4 = c.data.first.length
  mem : o ∈ t.objects
  kind : o.kind = .adapter ↔ adapter = true
  stays : o.retiring = false
  digest : loadDigest o = some (sha256 c.data.first)
  only : ∀ x ∈ t.objects, (x.kind = .adapter ↔ adapter = true) → x.retiring = false →
    loadDigest x = some (sha256 c.data.first) → x = o

/-- A load packet that names a loaded object joins it. -/
theorem Named.loadObject_eq {o : LoadedObject} {adapter : Bool} {c : Ctx} {t : State} (h : Named o adapter c t) :
    loadObject (loadKinds adapter) c t = (currentGen o).elim (joinLoad c t o) (addReference c t o) :=
  loadObject_named h.readable h.mem (namesAgain_iff.mpr ⟨⟨loadKinds_contains.mpr h.kind, h.stays, h.length⟩, h.digest⟩)
    fun x hx hx' =>
      have ⟨⟨hcode, hstays, _⟩, hdig⟩ := namesAgain_iff.mp hx'
      h.only x hx (loadKinds_contains.mp hcode) hstays hdig

/-- Settles O6: what the load finds by the digest decides between a reference, a wait and a new object. -/
theorem loadPackets : Obligations.LoadPackets := by
  refine ⟨fun k h hk => carries_of exec_modelLoad ?newModel, fun h => carries_of exec_adapterLoad ?newAdapter,
    fun o g adapter => ?again, fun o g adapter => ?joined, carries_of exec_modelLoad fun c t => loadObject_unreadable,
    carries_of exec_adapterLoad fun c t => loadObject_unreadable⟩
  case newModel =>
    rintro c t ⟨hread, horder, hnew, hkind, hlt, hfree, hlow⟩
    refine loadObject_new hread (fun x hx => ?_) horder hkind hlt hfree hlow
    rw [Bool.eq_false_iff]
    intro hx'
    obtain ⟨⟨hcode, hret, _⟩, hdig⟩ := namesAgain_iff.mp hx'
    rw [contains_objCode_models, decide_eq_true_eq] at hcode
    exact hnew x hx hcode hret hdig
  case newAdapter =>
    rintro c t ⟨hread, horder, hnew, hlt, hfree, hlow⟩
    have hcode : leAt c.data.first 2 1 = 2 := List.mem_singleton.mp (mem_kinds_of_manifestRefusal horder)
    refine loadObject_new hread (fun x hx => ?_) horder (by rw [hcode]; rfl) hlt hfree hlow
    rw [Bool.eq_false_iff]
    intro hx'
    obtain ⟨⟨hcode, hret, _⟩, hdig⟩ := namesAgain_iff.mp hx'
    rw [contains_objCode_adapter, decide_eq_true_eq] at hcode
    exact hnew x hx hcode hret hdig
  case again =>
    have hpost : ∀ c t, Named o adapter c t ∧ o.refs < 255 ∧ currentGen o = some g →
        loadObject (loadKinds adapter) c t = replyOk c (objMod t o.kind o.handle (fun x => { x with refs := x.refs + 1 }))
          (leBytes 2 o.handle ++ leBytes 2 g.number ++ leBytes 1 (o.refs + 1)) := by
      rintro c t ⟨hnamed, hrefs, hgen⟩
      rw [hnamed.loadObject_eq, hgen]
      exact if_neg (by omega)
    have hnamed : ∀ c t, (c.data.readable = true ∧ c.par 8 4 = c.data.first.length ∧ o ∈ t.objects ∧
        (o.kind = .adapter ↔ adapter = true) ∧ o.retiring = false ∧ o.refs < 255 ∧ currentGen o = some g ∧
        g.digest = sha256 c.data.first ∧ ∀ x ∈ t.objects, (x.kind = .adapter ↔ adapter = true) → x.retiring = false →
          loadDigest x = some (sha256 c.data.first) → x = o) →
        Named o adapter c t ∧ o.refs < 255 ∧ currentGen o = some g := by
      rintro c t ⟨hread, hlen, hmem, hkind, hret, hrefs, hgen, hdig, honly⟩
      exact ⟨⟨hread, hlen, hmem, hkind, hret, by simp [loadDigest, hgen, hdig], honly⟩, hrefs, hgen⟩
    cases adapter
    · exact carries_of exec_modelLoad fun c t h => hpost c t (hnamed c t h)
    · exact carries_of exec_adapterLoad fun c t h => hpost c t (hnamed c t h)
  case joined =>
    have hpost : ∀ c t, Named o adapter c t ∧ o.refs < 255 ∧ currentGen o = none →
        loadObject (loadKinds adapter) c t =
          startJob c (objMod t o.kind o.handle (fun x => { x with refs := x.refs + 1 })) (.load o.kind o.handle) := by
      rintro c t ⟨hnamed, hrefs, hgen⟩
      rw [hnamed.loadObject_eq, hgen]
      exact if_neg (by omega)
    have hnamed : ∀ c t, (c.data.readable = true ∧ c.par 8 4 = c.data.first.length ∧ o ∈ t.objects ∧
        (o.kind = .adapter ↔ adapter = true) ∧ o.retiring = false ∧ o.refs < 255 ∧ currentGen o = none ∧
        o.gens.head? = some g ∧ g.digest = sha256 c.data.first ∧
        ∀ x ∈ t.objects, (x.kind = .adapter ↔ adapter = true) → x.retiring = false →
          loadDigest x = some (sha256 c.data.first) → x = o) →
        Named o adapter c t ∧ o.refs < 255 ∧ currentGen o = none := by
      rintro c t ⟨hread, hlen, hmem, hkind, hret, hrefs, hgen, hhead, hdig, honly⟩
      exact ⟨⟨hread, hlen, hmem, hkind, hret, by simp [loadDigest, hgen, hhead, hdig], honly⟩, hrefs, hgen⟩
    cases adapter
    · exact carries_of exec_modelLoad fun c t h => hpost c t (hnamed c t h)
    · exact carries_of exec_adapterLoad fun c t h => hpost c t (hnamed c t h)

/-! ### Replacement (R360, R361, R371) -/

/-- The kind and handle a packet names, and the object under them. -/
theorem objGet_bind {s : State} {n h : Nat} {k : ObjKind} {o : LoadedObject} (hkind : objKindOf n = some k)
    (hget : objGet s k h = some o) : (objKindOf n).bind (fun kk => objGet s kk h) = some o := by
  rw [hkind, Option.bind_some, hget]

/-- A kind that is not an adapter's is one the model packets take. -/
theorem modelCode_of_objKindOf {n : Nat} {k : ObjKind} (hne : n ≠ 2) (hkind : objKindOf n = some k) :
    ¬(n ≠ 0 ∧ n ≠ 1 ∧ n ≠ 3) := by
  rw [objKindOf_eq_some] at hkind
  cases k <;> simp only [objCode] at hkind <;> omega

/-- A replacement in order of an object of one generation starts, if it need not be placed or the arrays fit (R360, R361). -/
theorem bodyModelReplace_started {c : Ctx} {s : State} {k : ObjKind} {o : LoadedObject} (hne : c.par 12 1 ≠ 2)
    (hkind : objKindOf (c.par 12 1) = some k) (hget : objGet s k (c.par 14 2) = some o) (hone : o.gens.length = 1)
    (hgen : currentGen o ≠ none) (hread : c.data.readable = true)
    (horder : manifestRefusal s c.data.first (c.par 8 4) [c.par 12 1] = none) :
    bodyModelReplace c s = if decide (c.par 16 1 % 2 = 1) && !c.arraysFit then reply c s .refusedCapacity 0 []
      else startReplace c s o.kind o (decide (c.par 16 1 % 2 = 1)) := by
  unfold bodyModelReplace
  dsimp only
  rw [if_neg (modelCode_of_objKindOf hne hkind), objGet_bind hkind hget]
  dsimp only
  rw [if_neg (by simpa using hgen), if_neg (by omega), if_neg (by simp [hread]), horder]
  rfl

/-- A replacement of an object of two generations is BUSY (R361). -/
theorem bodyModelReplace_busy {c : Ctx} {s : State} {o : LoadedObject} (hne : c.par 12 1 ≠ 2)
    (hget : (objKindOf (c.par 12 1)).bind (fun k => objGet s k (c.par 14 2)) = some o) (htwo : o.gens.length = 2)
    (hgen : currentGen o ≠ none) : bodyModelReplace c s = reply c s .busy 0 [] := by
  obtain ⟨k, hkind, _⟩ := Option.bind_eq_some_iff.mp hget
  unfold bodyModelReplace
  dsimp only
  rw [if_neg (modelCode_of_objKindOf hne hkind), hget]
  dsimp only
  rw [if_neg (by simpa using hgen), if_pos (by omega)]
  rfl

/-- Two changes of one object that keep its kind and handle are one. -/
theorem objMod_objMod {s : State} {k : ObjKind} {h : Nat} {f g : LoadedObject → LoadedObject}
    (hkind : ∀ o, (f o).kind = k) (hhandle : ∀ o, (f o).handle = h) :
    objMod (objMod s k h f) k h g = objMod s k h (fun o => g (f o)) := by
  unfold objMod
  dsimp only
  rw [List.map_map]
  congr 1
  refine List.map_congr_left fun o _ => ?_
  dsimp only [Function.comp]
  split <;> simp_all

/-- An adapter of one generation keeps it beside the next. -/
theorem adapterKept_single {s : State} {o : LoadedObject} {g : Generation} (h : o.gens = [g]) : adapterKept s o = [g] := by
  simp [adapterKept, h]

/-- A replacement in order of an adapter of one generation starts (R371). -/
theorem bodyAdapterReplace_started {c : Ctx} {s : State} {o : LoadedObject} {g0 : Generation} (htwo : c.par 12 1 = 2)
    (hget : objGet s .adapter (c.par 14 2) = some o) (hgens : o.gens = [g0]) (hserves : g0.state ≠ 1)
    (hstays : o.retiring = false) (hread : c.data.readable = true)
    (horder : manifestRefusal s c.data.first (c.par 8 4) [2] = none) :
    bodyAdapterReplace c s = startReplace c (objMod s .adapter (c.par 14 2) (fun _ => o)) .adapter o false := by
  have hsame : { o with gens := [g0] } = o := by rw [← hgens]
  unfold bodyAdapterReplace
  dsimp only
  rw [if_neg (not_not.mpr htwo), hget]
  dsimp only
  rw [if_neg (by simp [currentGen, hgens, hserves, hstays]), adapterKept_single hgens, if_neg (by simp), if_neg (by simp [hread]),
    horder, hsame]

/-- An accepted MODEL_REPLACE reaches its work with what the arrays allow. -/
theorem packetRow_modelReplace {p : Pkt} {s t : State} {c : Ctx} {fit : Bool} (h : Accepted 0x0102 p s c t) :
    packetRow 0x0102 p s (fun c => { c with arraysFit := fit }) bodyModelReplace = bodyModelReplace { c with arraysFit := fit } t :=
  packetRow_accepted h _ _ (fun _ => rfl) (fun _ => rfl) (fun _ _ => rfl)

/-- Settles O7: an object of one generation passes every check but that of the arrays. -/
theorem replacePackets : Obligations.ReplacePackets := by
  refine ⟨?started, ?capacity, fun o g0 => carries_of exec_adapterReplace ?adapter, fun o a b => ?busy⟩
  case started =>
    intro p s c t fit o k hacc hne hkind hget hone hgen hread horder hfit
    have hnot : ¬(decide (c.par 16 1 % 2 = 1) && !fit) = true := by simpa using hfit
    obtain ⟨rfl, hhandle, _⟩ := objGet_some hget
    rw [exec_modelReplace, packetRow_modelReplace hacc,
      bodyModelReplace_started (c := { c with arraysFit := fit }) hne hkind hget hone hgen hread horder]
    refine congrArg _ ((if_neg hnot).trans ?_)
    rw [← show o.handle = c.par 14 2 from hhandle]
    rfl
  case capacity =>
    intro p s c t o k hacc hne hkind hget hone hgen hread horder hplaced
    rw [exec_modelReplace, packetRow_modelReplace hacc,
      bodyModelReplace_started (c := { c with arraysFit := false }) hne hkind hget hone hgen hread horder]
    have hnot : (decide (c.par 16 1 % 2 = 1) && !false) = true := by simpa using hplaced
    exact congrArg _ (if_pos hnot)
  case adapter =>
    rintro c t ⟨htwo, hget, hgens, hserves, hstays, hread, horder⟩
    obtain ⟨hkind, hhandle, _⟩ := objGet_some hget
    rw [bodyAdapterReplace_started htwo hget hgens hserves hstays hread horder]
    rw [← hhandle]
    unfold startReplace
    dsimp only
    rw [objMod_objMod (fun _ => hkind) (fun _ => rfl), hgens]
    rfl
  case busy =>
    rintro p s c t hacc ⟨hne, hget, hgens, hgen⟩
    rw [exec_modelReplace, packetRow_modelReplace hacc]
    exact congrArg _ (bodyModelReplace_busy (c := { c with arraysFit := true }) hne hget (by rw [hgens]; rfl) hgen)

/-! ### Retirement (R352, R354) -/

/-- A model packet's retirement of a loaded object: a reference fewer, BUSY, or the object freed (R354). -/
theorem bodyModelRetire_found {c : Ctx} {s : State} {k : ObjKind} {o : LoadedObject} (hne : c.par 12 1 ≠ 2)
    (hkind : objKindOf (c.par 12 1) = some k) (hget : objGet s k (c.par 14 2) = some o) (hgen : currentGen o ≠ none) :
    bodyModelRetire c s = if 1 < o.refs then
        replyOk c (objMod s k (c.par 14 2) (fun x => { x with refs := x.refs - 1 })) (leBytes 1 (o.refs - 1))
      else if graphNames s k (c.par 14 2) ∨ 2 ≤ o.gens.length then reply c s .busy 0 []
      else replyOk c (forceBuild (freeObject s k (c.par 14 2)) .objects) (leBytes 1 0) := by
  obtain ⟨rfl, _, _⟩ := objGet_some hget
  unfold bodyModelRetire
  dsimp only
  rw [if_neg (modelCode_of_objKindOf hne hkind), objGet_bind hkind hget]
  dsimp only
  rw [if_neg (by simpa using hgen)]
  rfl

/-- The retirement of an adapter that is not retiring: a reference fewer, or it retires (R354). -/
theorem bodyAdapterRetire_found {c : Ctx} {s : State} {o : LoadedObject} (htwo : c.par 12 1 = 2)
    (hget : objGet s .adapter (c.par 14 2) = some o) (hgen : currentGen o ≠ none) (hstays : o.retiring = false) :
    bodyAdapterRetire c s = if 1 < o.refs then
        replyOk c (objMod s .adapter (c.par 14 2) (fun x => { x with refs := x.refs - 1 })) (leBytes 1 (o.refs - 1))
      else replyOk c (settleAdapters (objMod s .adapter (c.par 14 2) (fun x => { x with refs := 0, retiring := true })))
        (leBytes 1 0) := by
  unfold bodyAdapterRetire
  dsimp only
  rw [if_neg (not_not.mpr htwo), hget]
  dsimp only
  rw [if_neg (by simp [hstays, hgen])]

/-- Arrays freed of an object's generations are all that changes. -/
theorem freeArrays_foldl (s : State) (k : ObjKind) (h : Nat) (gens : List Generation) :
    ∃ a, gens.foldl (fun t g => freeArrays t k h g.number) s = { s with arrays := a } := by
  induction gens generalizing s with
  | nil => exact ⟨s.arrays, rfl⟩
  | cons g gens ih =>
    obtain ⟨a, ha⟩ := ih (freeArrays s k h g.number)
    exact ⟨a, ha⟩

/-- A freed object is gone, its arrays are free, and nothing else changes (R354). -/
theorem freeObject_eq {s : State} {k : ObjKind} {h : Nat} {o : LoadedObject} (hget : objGet s k h = some o) :
    ∃ a, freeObject s k h = { s with arrays := a, objects := s.objects.filter (fun x => ¬(x.kind = k ∧ x.handle = h)) } := by
  obtain ⟨a, ha⟩ := freeArrays_foldl s k h o.gens
  refine ⟨a, ?_⟩
  unfold freeObject
  rw [hget]
  dsimp only
  rw [ha]

/-- A build that is forced waits for its cause (R301). -/
theorem mem_forceBuild_queued (s : State) (cause : BuildCause) : cause ∈ (forceBuild s cause).planner.queued := by
  unfold forceBuild
  dsimp only
  split
  · rename_i h
    exact List.contains_iff_mem.mp h
  · exact List.mem_append_right _ (List.mem_singleton_self _)

/-- An adapter that is left after retiring ones are settled retires only while a request holds it (R354). -/
theorem objGet_settleAdapters {s : State} {h : Nat} {x : LoadedObject} (hget : objGet (settleAdapters s) .adapter h = some x) :
    x ∈ s.objects ∧ x.kind = .adapter ∧ x.handle = h ∧ (x.retiring = true → adapterHeld s h = true) := by
  obtain ⟨hkind, rfl, hmem⟩ := objGet_some hget
  obtain ⟨hmem, hleft⟩ := List.mem_filter.mp hmem
  have hheld : ¬(x.kind = .adapter ∧ x.retiring = true ∧ (!adapterHeld s x.handle) = true) := of_decide_eq_true hleft
  exact ⟨hmem, hkind, rfl, fun hret => by simpa [hkind, hret] using hheld⟩

/-- The objects of a changed kind and handle are changed ones. -/
theorem mem_objMod {s : State} {k : ObjKind} {h : Nat} {f : LoadedObject → LoadedObject} {x : LoadedObject}
    (hx : x ∈ (objMod s k h f).objects) : (∃ o, x = f o) ∨ ¬(x.kind = k ∧ x.handle = h) := by
  obtain ⟨o, _, rfl⟩ := List.mem_map.mp hx
  split
  · exact .inl ⟨o, rfl⟩
  · exact .inr ‹_›

/-- Settles O8: what the references, the graphs and the requests say decides each retirement. -/
theorem retirePackets : Obligations.RetirePackets := by
  refine ⟨fun k o => carries_of exec_modelRetire ?fewer, fun k o => carries_of exec_modelRetire ?busy, ?freed,
    fun o => carries_of exec_adapterRetire ?adapterFewer, ?adapterLast⟩
  case fewer =>
    rintro c t ⟨hne, hkind, hget, hgen, hrefs⟩
    rw [bodyModelRetire_found hne hkind hget hgen, if_pos hrefs]
    rfl
  case busy =>
    rintro c t ⟨hne, hkind, hget, hgen, hrefs, hnamed⟩
    rw [bodyModelRetire_found hne hkind hget hgen, if_neg (by omega), if_pos hnamed]
  case freed =>
    intro p s c t k o hacc hne hkind hget hgen hrefs hunnamed hone
    obtain ⟨a, ha⟩ := freeObject_eq hget
    refine ⟨forceBuild (freeObject t k (c.par 14 2)) .objects, ?_, ?_, ?_, ?_, mem_forceBuild_queued _ _⟩
    · rw [exec_accepted exec_modelRetire hacc, bodyModelRetire_found hne hkind hget hgen, if_neg (by omega),
        if_neg (by simp [hunnamed]; omega)]
    · rw [ha]
      exact List.find?_eq_none.mpr fun x hx => by
        rw [decide_eq_true_eq]
        exact of_decide_eq_true (List.mem_filter.mp hx).2
    · rw [ha]
      rfl
    · rw [ha]
      rfl
  case adapterFewer =>
    rintro c t ⟨htwo, hget, hgen, hstays, hrefs⟩
    rw [bodyAdapterRetire_found htwo hget hgen hstays, if_pos hrefs]
    rfl
  case adapterLast =>
    intro p s c t o hacc htwo hget hgen hstays hrefs
    have hret : ∀ x, objGet (settleAdapters (objMod t .adapter (c.par 14 2) (fun x => { x with refs := 0, retiring := true })))
        .adapter (c.par 14 2) = some x → x.retiring = true ∧ adapterHeld t (c.par 14 2) = true := by
      intro x hx
      obtain ⟨hmem, hkind, hhandle, hheld⟩ := objGet_settleAdapters hx
      have hretires : x.retiring = true := by
        rcases mem_objMod hmem with ⟨y, rfl⟩ | hother
        · rfl
        · exact absurd ⟨hkind, hhandle⟩ hother
      exact ⟨hretires, hheld hretires⟩
    refine ⟨_, by rw [exec_accepted exec_adapterRetire hacc, bodyAdapterRetire_found htwo hget hgen hstays,
      if_neg (by omega)], fun hfree => ?_, fun x hx => (hret x hx).1⟩
    exact Option.eq_none_iff_forall_ne_some.mpr fun x hx => by simpa [hfree] using (hret x hx).2

end Sys2Proof.Proofs
end

section
/-! The packets that read records, and the register of keys, periods and probe packs (R345, R350, R458, R528). -/

namespace Sys2Proof.Proofs
open Sys2Proof Sys2Proof.Machine Sys2Proof.Safety Sys2Proof.Laws

/-! ### Reading packets (R458) -/

/-- An aligned buffer that is long enough takes the records (R458). -/
theorem replyBuffer_written {c : Ctx} {s : State} {off : Nat} {b : Bytes} (haligned : c.par off 8 % 64 = 0)
    (hfits : b.length ≤ c.par (off + 8) 4) :
    replyBuffer c s off b = replyOk c { s with hostMem := memWriteBytes s.hostMem (c.par off 8) b } (leBytes 4 b.length) := by
  unfold replyBuffer
  rw [if_neg (not_not.mpr haligned), if_neg (by omega)]
  rfl

/-- A buffer too short for the records is refused with the length it needs (R458). -/
theorem replyBuffer_short {c : Ctx} {s : State} {off : Nat} {b : Bytes} (haligned : c.par off 8 % 64 = 0)
    (hshort : c.par (off + 8) 4 < b.length) :
    replyBuffer c s off b = reply c s .invalid (2 ^ 30 + (b.length + 63) / 64 % 2 ^ 30) [] := by
  unfold replyBuffer
  rw [if_neg (not_not.mpr haligned), if_pos hshort]
  rfl

/-- A die and a site of the packet name one converter site. -/
theorem siteOf_eq {c : Ctx} (h : c.par 0 1 ≤ 3) : siteOf c = some (c.par 0 1 * 65536 + c.par 2 2) :=
  if_neg (by omega)

/-- Settles O9: each body reaches the result buffer with the records of the units its operands name. -/
theorem readingPackets : Obligations.ReadingPackets := by
  refine ⟨⟨fun k => carries_of (body := bodyModelStatusRead) (fun _ _ => rfl) ?models,
    carries_of (body := bodyPlanRead) (fun _ _ => rfl) fun _ _ _ => rfl,
    fun r => carries_of (body := bodyKvMapRead) (fun _ _ => rfl) ?blocks,
    carries_of (body := bodyCoreStatsRead) (fun _ _ => rfl) ?cores,
    carries_of (body := bodyFabricStatusRead) (fun _ _ => rfl) fun _ _ _ => rfl,
    carries_of (body := bodyArrayStatusRead) (fun _ _ => rfl) ?arrays,
    carries_of (body := bodyCalTableRead) (fun _ _ => rfl) fun c t h => if_neg (by omega),
    carries_of (body := bodySiteSeqRead) (fun _ _ => rfl) ?site,
    carries_of (body := bodyQuartzStatsRead) (fun _ _ => rfl) ?quartz⟩,
    fun c s off b => ⟨replyBuffer_written, replyBuffer_short, fun h => if_pos h⟩⟩
  case models =>
    rintro c t ⟨hkind, hrange⟩
    unfold bodyModelStatusRead
    rw [hkind]
    exact if_neg (by omega)
  case blocks =>
    rintro c t ⟨hreq, hown, hfn⟩
    unfold bodyKvMapRead
    rw [hreq]
    exact if_neg (by simp [hown]; omega)
  case cores =>
    rintro c t ⟨hdie, hkind, hkind', hfirst, hcount⟩
    unfold bodyCoreStatsRead
    dsimp only
    rw [firstBad_eq_none.mpr (by simp; omega)]
  case arrays =>
    rintro c t ⟨hfirst, hcount, hcount', hrange⟩
    unfold bodyArrayStatusRead
    rw [firstBad_eq_none.mpr (by simp; omega)]
  case site =>
    intro c t hdie
    unfold bodySiteSeqRead
    rw [siteOf_eq hdie]
  case quartz =>
    rintro c t ⟨hdie, hunit⟩
    unfold bodyQuartzStatsRead
    rw [if_neg (by omega), if_neg (by omega)]

/-! ### Keys, periods and probe packs (R345, R350, R528) -/

/-- A pack read whole is the bytes the probe packets judge. -/
theorem padTo_whole {n m : Nat} {b : Bytes} (hmax : n ≤ m) (hlen : b.length = n) : padTo (min n m) b = b := by
  rw [min_eq_left hmax]
  subst hlen
  simp [padTo]

/-- The lowest free number of a probe pack, if one of eight is free (log entry 17). -/
theorem find?_free_probe {t : State} {i : Nat} (hlt : i < 8) (hfree : ∀ x ∈ t.probes, x.number ≠ i)
    (hlow : ∀ j < i, ∃ x ∈ t.probes, x.number = j) :
    (List.range 8).find? (fun i => !t.probes.any (fun p => p.number = i)) = some i :=
  List.find?_range_eq_some.mpr ⟨by simpa using hfree, List.mem_range.mpr hlt, fun j hj => by simpa using hlow j hj⟩

/-- A pack that can be read, of a length a pack may have and whole. -/
structure PackRead (c : Ctx) : Prop where
  readable : c.data.readable = true
  long : 768 ≤ c.par 8 4
  short : c.par 8 4 ≤ 4194304
  whole : c.data.first.length = c.par 8 4

/-- A pack read whole is judged by its layout, its signature and the free numbers (R528). -/
theorem bodyProbeInstall_read {c : Ctx} {t : State} (h : PackRead c) :
    bodyProbeInstall c t = (firstBad (packChecks c.data.first (c.par 8 4))).elim
      (if !packSigned t c.data.first then reply c t .authFail 0 []
        else if 8 ≤ t.probes.length then reply c t .refusedCapacity 0 []
        else ((List.range 8).find? (fun i => !t.probes.any (fun p => p.number = i))).elim (reply c t .refusedCapacity 0 [])
          (fun i => replyOk c { t with probes := t.probes ++
            [{ number := i, vendor := decide (leAt c.data.first 2 1 = 0), bytes := c.data.first }] } (leBytes 2 i)))
      (fun o => reply c t .invalid (imageDetail o) []) := by
  have ⟨hread, hlong, hshort, hwhole⟩ := h
  unfold bodyProbeInstall
  dsimp only
  rw [padTo_whole hshort hwhole, if_neg (by simp [hread]), if_neg (by omega)]
  cases firstBad (packChecks c.data.first (c.par 8 4)) with
  | some o => rfl
  | none => cases (List.range 8).find? (fun i => !t.probes.any (fun p => p.number = i)) <;> rfl

/-- Settles O10: slots, periods and packs are checked at their bounds before they are taken. -/
theorem keyRehashAndProbePackets : Obligations.KeyRehashAndProbePackets := by
  refine ⟨⟨carries_of (body := bodyPublisherKeyRegister) (fun _ _ => rfl) ?key,
      carries_of (body := bodyPublisherKeyRegister) (fun _ _ => rfl) ?point,
      carries_of (body := bodyPublisherKeyRegister) (fun _ _ => rfl) fun c t h => if_pos h,
      carries_of (body := bodyRehashPeriodSet) (fun _ _ => rfl) fun c t h => if_neg (by omega),
      carries_of (body := bodyRehashPeriodSet) (fun _ _ => rfl) fun c t h => if_pos h⟩,
    fun i => carries_of (body := bodyProbeInstall) (fun _ _ => rfl) ?installed,
    carries_of (body := bodyProbeInstall) (fun _ _ => rfl) ?unsigned,
    carries_of (body := bodyProbeInstall) (fun _ _ => rfl) ?ninth,
    fun o => carries_of (body := bodyProbeInstall) (fun _ _ => rfl) ?layout,
    carries_of (body := bodyProbeRemove) (fun _ _ => rfl) fun c t h => if_pos (by simpa using h),
    carries_of (body := bodyProbeRemove) (fun _ _ => rfl) fun c t h => if_neg (by simpa using h)⟩
  case key =>
    rintro c t ⟨hslot, hpoint⟩
    unfold bodyPublisherKeyRegister
    dsimp only
    rw [if_neg (by omega), if_neg (by simp [hpoint])]
  case point =>
    rintro c t ⟨hslot, hpoint⟩
    unfold bodyPublisherKeyRegister
    dsimp only
    rw [if_neg (by omega), if_pos (by simp [hpoint])]
    rfl
  case installed =>
    rintro c t ⟨hread, hlong, hshort, hwhole, hgood, hsigned, hroom, hlt, hfree, hlow⟩
    rw [bodyProbeInstall_read ⟨hread, hlong, hshort, hwhole⟩, hgood]
    dsimp only [Option.elim]
    rw [if_neg (by simp [hsigned]), if_neg (by omega), find?_free_probe hlt hfree hlow]
  case unsigned =>
    rintro c t ⟨hread, hlong, hshort, hwhole, hgood, hsigned⟩
    rw [bodyProbeInstall_read ⟨hread, hlong, hshort, hwhole⟩, hgood]
    exact if_pos (by simp [hsigned])
  case ninth =>
    rintro c t ⟨hread, hlong, hshort, hwhole, hgood, hsigned, hfull⟩
    rw [bodyProbeInstall_read ⟨hread, hlong, hshort, hwhole⟩, hgood]
    dsimp only [Option.elim]
    rw [if_neg (by simp [hsigned]), if_pos hfull]
  case layout =>
    rintro c t ⟨hread, hlong, hshort, hwhole, hbad⟩
    rw [bodyProbeInstall_read ⟨hread, hlong, hshort, hwhole⟩, hbad]
    rfl

end Sys2Proof.Proofs
end

section
/-! Graphs, requests and accounts named by packets (R268 to R271, R377, R384, R406, R407, R463). -/

namespace Sys2Proof.Proofs
open Sys2Proof Sys2Proof.Machine Sys2Proof.Safety Sys2Proof.Laws

/-! ### Packets that wait for a build (R268 to R271, R183) -/

/-- Settles O11: the submission limit, the graph's owner and the code are checked, and the work waits for a forced build. -/
theorem graphPacketsWaitForABuild : Obligations.GraphPacketsWaitForABuild := by
  refine ⟨carries_of (body := bodyGraphSubmit) (fun _ _ => rfl) ?submitted,
    carries_of (body := bodyGraphSubmit) (fun _ _ => rfl) fun c t h => if_pos h,
    fun g => carries_of (body := bodyGraphRetire) (fun _ _ => rfl) ?retired,
    fun g => carries_of (body := bodyGraphRetire) (fun _ _ => rfl) ?foreign,
    carries_of (body := bodyCheckFractionSet) (fun _ _ => rfl) fun c t h => if_neg (by omega),
    carries_of (body := bodyCheckFractionSet) (fun _ _ => rfl) fun c t h => if_pos h⟩
  case submitted =>
    rintro c t ⟨hroom, hread, hmax, hlen⟩
    unfold bodyGraphSubmit
    rw [if_neg (by omega), if_neg (by simp [hread]), padTo_whole hmax hlen]
    rfl
  case retired =>
    rintro c t ⟨hgraph, hown, hstays⟩
    unfold bodyGraphRetire
    rw [hgraph]
    exact if_neg (by simp [hown, hstays])
  case foreign =>
    rintro c t ⟨hgraph, hforeign⟩
    unfold bodyGraphRetire
    rw [hgraph]
    exact if_pos (.inl hforeign)

/-! ### Requests opened and cancelled (R384, R399, R406) -/

/-- A packet whose parameters stand and whose names exist is decided under R384. -/
theorem bodyRequestOpen_decided {c : Ctx} {t : State} {adapter : Option (Nat × Nat)} (hset : t.time.set = true)
    (hgood : firstBad (openChecks t c) = none) (hread : c.data.readable = true)
    (haccount : ∀ a, sget t.accounts (c.par 2 2) = some a → a.owner = c.fn) (hring : ownerOfRing t (c.par 6 2) = c.fn)
    (hgraphs : ∀ g ∈ (if fld (c.par 1 1) 3 3 = 1 then chainStages c else [c.par 0 1]), graphServes t g = true)
    (hserves : accountServes t (c.par 2 2) = true) (hthere : shas t.rings (c.par 6 2) = true)
    (hadapter : (if c.par 4 2 = 0xFFFF then none else adapterFor t (c.par 0 1) (c.par 4 2)) = adapter)
    (hfound : c.par 4 2 ≠ 0xFFFF → adapter ≠ none) :
    bodyRequestOpen c t = answerDecision c (decideOpen t (requestOf t c adapter)) := by
  have hown : ¬(match sget t.accounts (c.par 2 2) with | some a => decide (a.owner ≠ c.fn) | none => false) = true := by
    split
    · rename_i a ha
      simpa using haccount a ha
    · exact Bool.false_ne_true
  have hown' : (match sget t.accounts (c.par 2 2) with | some a => decide (a.owner ≠ c.fn) | none => false) = false :=
    Bool.eq_false_iff.mpr hown
  have hany : ¬(if fld (c.par 1 1) 3 3 = 1 then chainStages c else [c.par 0 1]).any (fun g => !graphServes t g) = true := by
    simpa using hgraphs
  unfold bodyRequestOpen
  dsimp only
  rw [if_neg (by simp [hset]), hgood]
  dsimp only
  refine (if_neg hown).trans ?_
  rw [if_neg (not_not.mpr hring), hadapter, if_neg]
  rintro (h | h | ⟨h, hnone⟩ | h | h)
  · exact hany h
  · simp [hserves] at h
  · exact hfound h (Option.isNone_iff_eq_none.mp hnone)
  · simp [hthere] at h
  · simp [hread] at h

/-- Settles O12: what stands is decided under R384; a cancel reaches the issuing function's open requests alone. -/
theorem requestPackets : Obligations.RequestPackets := by
  refine ⟨⟨fun adapter => carries_of (body := bodyRequestOpen) (fun _ _ => rfl) ?decided,
      carries_of (body := bodyRequestOpen) (fun _ _ => rfl) fun c t h => if_pos (by simp [h])⟩,
    fun r => carries_of (body := bodyRequestCancel) (fun _ _ => rfl) ?cancelled,
    fun r => carries_of (body := bodyRequestCancel) (fun _ _ => rfl) ?ended,
    carries_of (body := bodyRequestCancel) (fun _ _ => rfl) ?foreign⟩
  case decided =>
    rintro c t ⟨hset, hgood, hread, haccount, hring, hgraphs, hserves, hthere, hadapter⟩
    refine bodyRequestOpen_decided hset hgood hread haccount hring hgraphs hserves hthere ?_ ?_
    · rcases hadapter with ⟨hnone, rfl⟩ | ⟨hsome, _, hfor⟩
      · exact if_pos hnone
      · exact (if_neg hsome).trans hfor
    · rcases hadapter with ⟨hnone, _⟩ | ⟨_, hne, _⟩
      · exact fun h => absurd hnone h
      · exact fun _ => hne
  case cancelled =>
    rintro c t ⟨hreq, hown, hhere, hopen⟩
    unfold bodyRequestCancel
    rw [hreq]
    dsimp only
    rw [if_neg (by simp [hown, hhere]), if_neg (by simp [hopen])]
    rfl
  case ended =>
    rintro c t ⟨hreq, hown, hhere, hended⟩
    unfold bodyRequestCancel
    rw [hreq]
    dsimp only
    rw [if_neg (by simp [hown, hhere]), if_pos hended]
  case foreign =>
    intro c t hforeign
    unfold bodyRequestCancel
    split
    · rfl
    · rename_i r hreq
      exact if_pos (.inl (hforeign r hreq))

/-! ### Accounts (R377, R378, R407) -/

/-! ### A closing account beside a second entry of its number

`Store` is a list of pairs, and a statement over every state meets lists that hold one number twice. ACCOUNT_CLOSE marks the
first entry and drops it, and the second one, still open, is then what the number names. -/

/-- What the checks of R452 ask of a critical packet, in their order. -/
structure PassesCritical (s : State) (row : OpRow) (c : Ctx) (k : Bytes) : Prop where
  reserved : firstReserved row c.chain = none
  critical : hdrCritical c.chain = row.critical
  session : sessionBad s c = false
  keyed : row.critical = true
  key : packetKey s c = some k
  trailer : trailerOk k c.chain = true
  counter : packetCounter s c < trailerCounter c.chain
  issuer : judgeIssuer row c = none

/-- A critical packet that passes advances its counter (R451, R452). -/
theorem PassesCritical.judgePacket_eq {s : State} {row : OpRow} {c : Ctx} {k : Bytes} (h : PassesCritical s row c k) :
    judgePacket s row c = (setPacketCounter s c (trailerCounter c.chain), none) := by
  unfold judgePacket
  rw [h.reserved]
  dsimp only
  rw [if_neg (not_not.mpr h.critical), if_neg (by simp [h.session]), if_pos h.keyed, h.key]
  dsimp only
  rw [if_neg (by simp [h.trailer]), if_neg (Nat.not_le.mpr h.counter), h.issuer]

/-- An account that closes (R378). -/
def closingAccount (s : State) (a : Nat) (x : Account) : State :=
  { s with accounts := sput s.accounts a { x with closing := true } }

/-- A reply changes no account. -/
theorem replyOk_accounts (c : Ctx) (s : State) (r : Bytes) : (replyOk c s r).accounts = s.accounts := by
  rw [replyOk_frame]

/-- The key of the session that closes the account. -/
def closingKey : Bytes := [7]

/-- A module whose account 0 is listed twice, with a running engine, a queue and a session. -/
def accountTwice : State :=
  { boot := { sequence := .up, state := .running, dmaStopped := false }, link := { up := true }
    queues := [(1, { base := 4096, depth := 16, priority := 0, ring := 1, producer := 1 })]
    sessions := [(5, { fn := 0, spdm := none, key := some closingKey })]
    accounts := [(0, { owner := 0, buckets := [] }), (0, { owner := 0, buckets := [] })] }

/-- ACCOUNT_CLOSE of account 0 in session 5 with counter 1, before its check. -/
def closingBody : Bytes :=
  (stampOpcode 0x0304 (patch (padTo 128 (leBytes 2 1024 ++ leBytes 4 0 ++ leBytes 2 5)) 96 (leBytes 8 1))).take 112

/-- The packet with its check under the session's key (R449). -/
def closingPacket : Pkt := { queue := 1, chain := closingBody ++ (hmac closingKey closingBody).take 16 }

/-- The packet as its meaning gets it. -/
def closingCtx : Ctx :=
  ctxRead 0x0304 closingPacket accountTwice { base := 4096, depth := 16, priority := 0, ring := 1, producer := 1 }

/-- The state its meaning gets. -/
def closingState : State :=
  setPacketCounter (consumed accountTwice closingPacket { base := 4096, depth := 16, priority := 0, ring := 1, producer := 1 }
    (hdrUnits closingCtx.chain)) closingCtx (trailerCounter closingCtx.chain)

theorem closingPacket_read : Read 0x0304 closingPacket accountTwice
    { base := 4096, depth := 16, priority := 0, ring := 1, producer := 1 } := by
  refine ⟨rfl, rfl, rfl, rfl, ?_, ?_⟩ <;> decide +kernel

theorem closingPacket_passes : PassesCritical (consumed accountTwice closingPacket
      { base := 4096, depth := 16, priority := 0, ring := 1, producer := 1 } (hdrUnits closingCtx.chain))
    { opcode := 0x0304, critical := true, pfOnly := true, params := [(0, 2)] } closingCtx closingKey := by
  constructor <;> decide +kernel

theorem closingPacket_accepted : Accepted 0x0304 closingPacket accountTwice closingCtx closingState :=
  ⟨_, _, closingPacket_read, rfl, rfl, closingPacket_passes.judgePacket_eq, by decide, by decide⟩

/-- What ACCOUNT_CLOSE leaves of the accounts: the second entry, open. -/
theorem accounts_closed : sget (settleClosing (closingAccount closingState (closingCtx.par 0 2)
      { owner := 0, buckets := [] })).accounts (closingCtx.par 0 2) = some { owner := 0, buckets := [] } := by
  decide +kernel

/-- Refutes O14: in `accountTwice` no open request names account 0, and ACCOUNT_CLOSE leaves its second entry, which does not
close. -/
theorem not_accountPackets : ¬ Obligations.AccountPackets := by
  rintro ⟨_, _, hclose, _⟩
  have hthere : sget closingState.accounts (closingCtx.par 0 2) = some { owner := 0, buckets := [] } := by decide +kernel
  have hbody : bodyAccountClose closingCtx closingState = replyOk closingCtx
      (settleClosing (closingAccount closingState (closingCtx.par 0 2) { owner := 0, buckets := [] })) [] := by
    unfold bodyAccountClose
    rw [hthere]
    rfl
  obtain ⟨u, hexec, hclosing, _⟩ := hclose closingPacket accountTwice closingCtx closingState { owner := 0, buckets := [] }
    closingPacket_accepted hthere rfl
  rw [exec_accepted (body := bodyAccountClose) (fun _ _ => rfl) closingPacket_accepted] at hexec
  have haccounts := congrArg State.accounts (hbody.symm.trans (Host.Outcome.next.inj hexec))
  rw [replyOk_accounts, replyOk_accounts] at haccounts
  have hopen := hclosing _ (haccounts ▸ accounts_closed)
  exact Bool.false_ne_true hopen

end Sys2Proof.Proofs
end

section
/-! The decision of admission (R384, R385). -/

namespace Sys2Proof.Proofs
open Sys2Proof Sys2Proof.Machine Sys2Proof.Safety Sys2Proof.Laws

/-- A request as the decision takes it up (R379, R384). -/
def decidedRequest (u : State) (r : Request) (state : ReqState) : Request :=
  { r with charge := admissionCharge r.cls r.input, prompt := 0, order := u.nextOrder, lastStepEnd := hostTime u, state := state }

section
variable {s : State} {r : Request} {h : Nat}
  (hlevel : ¬(bucketOf (updateAccount s r.account) r.account r.cls).level < Int.ofNat (admissionCharge r.cls r.input * 1024))
  (hlimit : ¬(bucketOf (updateAccount s r.account) r.account r.cls).limit ≤ openInClass (updateAccount s r.account) r.account r.cls)
  (hcls : r.cls ≠ 2) (hroom : (updateAccount s r.account).requests.length < 262144)
  (hfree : freeHandle (updateAccount s r.account) = some h)
include hlevel hlimit hcls hroom hfree

/-- A request that needs no KV memory, within budget and limit, gets a slot, a place in the deferral queue, or neither (R384). -/
theorem decideOpen_within : decideOpen s r =
    let u := updateAccount s r.account
    let s1 := addLevel u r.account r.cls (-(Int.ofNat (admissionCharge r.cls r.input * 1024))) false
    let queue := ((sget u.lanes r.graph).map (·.deferral)).getD []
    if queue = [] ∧ 0 < slotsFree u r.graph then
      let blocks := if cachedGraph u r.graph then ((allocBlock s1 (openBytes s1 r.graph) true 0).map (fun b => [b])).getD [] else []
      ({ s1 with requests := sput u.requests h { decidedRequest u r .running with blocks := blocks }, nextOrder := u.nextOrder + 1 },
        .admitted h)
    else if queue.length < 4096 then
      (laneMod { s1 with requests := sput u.requests h (decidedRequest u r .deferred), nextOrder := u.nextOrder + 1 } r.graph
          (fun l => { l with deferral := l.deferral ++ [h] }),
        .deferred h (queue.length + 1) (earliestEstimate s1 r.graph (queue.length + 1)))
    else (addLevel s1 r.account r.cls (Int.ofNat (admissionCharge r.cls r.input * 1024)) true,
      .refused .refusedCapacity (leBytes 1 2)) := by
  unfold decideOpen
  dsimp only
  rw [if_neg hlevel, if_neg hlimit, if_neg (Nat.not_le.mpr hroom), hfree]
  simp only [hcls, false_and, if_false, ne_eq, not_false_eq_true, decide_true, Bool.true_or, and_true]
  rfl

end

/-- A changed lane is read as changed. -/
theorem sget_laneMod_same (s : State) (g : Nat) (f : Lane → Lane) : sget (laneMod s g f).lanes g = (sget s.lanes g).map f :=
  sget_smod_same _ _ _

/-- Settles O13: budget, then limit, then a slot of a lane without a queue, else the queue's end. -/
theorem admissionDecision : Obligations.AdmissionDecision := by
  intro s r
  refine ⟨fun hlevel => ?budget, fun hlevel hlimit => ?limit, fun hlevel hlimit hcls hroom h l hfree hlane =>
    ⟨fun hqueue hslot hcache => ?admitted, fun hshort hwaits => ?deferred⟩⟩
  case budget =>
    unfold decideOpen
    dsimp only
    rw [if_pos hlevel]
    exact ⟨rfl, _, rfl⟩
  case limit =>
    unfold decideOpen
    dsimp only
    rw [if_neg (Int.not_lt.mpr hlevel), if_pos hlimit]
    exact ⟨rfl, _, rfl⟩
  all_goals
    rw [decideOpen_within (Int.not_lt.mpr hlevel) (Nat.not_le.mpr hlimit) hcls hroom hfree]
    dsimp only
    rw [hlane]
    dsimp only [Option.map_some, Option.getD_some]
  case admitted =>
    rw [if_pos ⟨hqueue, hslot⟩, if_neg (by simpa using hcache)]
    exact ⟨rfl, sget_sput_same _ _ _, rfl⟩
  case deferred =>
    have hno : ¬(l.deferral = [] ∧ 0 < slotsFree (updateAccount s r.account) r.graph) := by
      rintro ⟨hq, hs⟩
      rcases hwaits with hwaits | hwaits
      · exact hwaits hq
      · omega
    rw [if_neg hno, if_pos hshort]
    refine ⟨⟨_, rfl⟩, ?_, sget_sput_same _ _ _⟩
    rw [sget_laneMod_same]
    exact congrArg (Option.map _) hlane

end Sys2Proof.Proofs
end

section
/-! The KV pool's size, the swap area and reads of the memory port (R250 to R253, R329, R466). -/

namespace Sys2Proof.Proofs
open Sys2Proof Sys2Proof.Machine Sys2Proof.Safety Sys2Proof.Laws

/-! ### Folds of steps that may fail -/

section
variable {α β : Type} {f : β → α → Option β} {l : List α}

/-- Steps that leave the state leave it. -/
theorem foldl_bind_same {s : β} (h : ∀ x ∈ l, f s x = some s) : l.foldl (fun o x => o.bind fun u => f u x) (some s) = some s := by
  induction l with
  | nil => rfl
  | cons x l ih =>
    rw [List.foldl_cons, Option.bind_some, h x List.mem_cons_self]
    exact ih fun y hy => h y (List.mem_cons_of_mem _ hy)

/-- Where every step keeps a property and one of them cannot be taken while it holds, the steps fail. -/
theorem foldl_bind_stuck {P : β → Prop} {x : α} (hkeep : ∀ u y v, P u → f u y = some v → P v) (hstuck : ∀ u, P u → f u x = none)
    (hx : x ∈ l) {s : β} (hs : P s) : l.foldl (fun o y => o.bind fun u => f u y) (some s) = none := by
  induction l generalizing s with
  | nil => cases hx
  | cons y l ih =>
    rw [List.foldl_cons, Option.bind_some]
    cases hf : f s y with
    | none => exact foldl_bind_none l
    | some v =>
      rcases List.mem_cons.mp hx with rfl | hx
      · rw [hstuck s hs] at hf
        cases hf
      · exact ih hx (hkeep s y v hs hf)

/-- A property every step keeps holds of where the steps end. -/
theorem foldl_bind_keeps {P : β → Prop} (hkeep : ∀ u y v, P u → f u y = some v → P v) {s t : β} (hs : P s)
    (ht : l.foldl (fun o y => o.bind fun u => f u y) (some s) = some t) : P t := by
  induction l generalizing s with
  | nil => exact Option.some.inj ht ▸ hs
  | cons y l ih =>
    rw [List.foldl_cons, Option.bind_some] at ht
    cases hf : f s y with
    | none =>
      rw [hf, foldl_bind_none] at ht
      cases ht
    | some v => exact ih (hkeep s y v hs hf) (hf ▸ ht)

end

/-! ### Blocks past the pool's end (R329; log entry 118) -/

/-- Gives the `i`th block of a request, sealed or open first and reserved next, another address. -/
def movedBlock (i a : Nat) (x : Request) : Request :=
  if i < x.blocks.length then { x with blocks := lmod x.blocks i (fun y => { y with address := a }) }
  else { x with reserved := lmod x.reserved (i - x.blocks.length) (fun y => { y with address := a }) }

/-- Moves one block of a request below the pool's end. -/
def relocateBlock (r : Request) (h : Nat) (w : State) (i : Nat) : Option State :=
  let q := (sget w.requests h).getD r
  let b := lgetD (q.blocks ++ q.reserved) i {}
  if !pastEnd (poolEnd w) b then some w
  else if b.location ≠ .memoryTier then none
  else (placeBlock w b.bytes).map (fun a => reqMod w h (movedBlock i a))

/-- Moves the blocks of a request below the pool's end. -/
def relocateRequest (u : State) (h : Nat) : Option State :=
  match sget u.requests h with
  | none => some u
  | some r => (List.range (r.blocks ++ r.reserved).length).foldl (fun v i => v.bind fun w => relocateBlock r h w i) (some u)

theorem relocateBlocks_eq (s : State) :
    relocateBlocks s = (s.requests.map (·.1)).foldl (fun t h => t.bind fun u => relocateRequest u h) (some s) := rfl

/-- Blocks that all lie below the pool's end stay where they are. -/
theorem relocateBlocks_same {s : State} (h : ∀ e ∈ s.requests, ∀ b ∈ e.2.blocks ++ e.2.reserved, pastEnd (poolEnd s) b = false) :
    relocateBlocks s = some s := by
  rw [relocateBlocks_eq]
  refine foldl_bind_same fun k _ => ?_
  unfold relocateRequest
  split
  · rfl
  · rename_i r hr
    refine foldl_bind_same fun i hi => ?_
    have hlt : i < (r.blocks ++ r.reserved).length := List.mem_range.mp hi
    unfold relocateBlock
    dsimp only
    rw [hr, Option.getD_some]
    refine if_pos ?_
    rw [lgetD, List.getElem?_eq_getElem hlt, Option.getD_some, h _ (mem_of_sget hr) _ (List.getElem_mem hlt)]
    rfl

/-- A block that is being copied lies past the pool's end. -/
structure Stuck (h j : Nat) (b : Block) (n : Nat) (w : State) : Prop where
  held : ∃ q, sget w.requests h = some q ∧ q.blocks[j]? = some b
  bound : poolEnd w = n

/-- Blocks in the memory tier alone are moved. -/
theorem Stuck.relocateBlock {h j n : Nat} {b : Block} {w v : State} {r : Request} {k i : Nat} (hb : b.location ≠ .memoryTier)
    (hw : Stuck h j b n w) (hv : relocateBlock r k w i = some v) : Stuck h j b n v := by
  obtain ⟨⟨q, hq, hj⟩, hbound⟩ := hw
  unfold Proofs.relocateBlock at hv
  dsimp only at hv
  split at hv
  · exact Option.some.inj hv ▸ ⟨⟨q, hq, hj⟩, hbound⟩
  split at hv
  · cases hv
  · rename_i hloc
    obtain ⟨a, _, rfl⟩ := Option.map_eq_some_iff.mp hv
    refine ⟨?_, hbound⟩
    by_cases hk : k = h
    · subst hk
      refine ⟨movedBlock i a q, ?_, ?_⟩
      · rw [show (reqMod w k (movedBlock i a)).requests = smod w.requests k (movedBlock i a) from rfl, sget_smod_same, hq]
        rfl
      · have hij : i ≠ j := by
          rintro rfl
          rw [hq, Option.getD_some] at hloc
          have hlt : i < q.blocks.length := (List.getElem?_eq_some_iff.mp hj).1
          refine hloc ?_
          rw [lgetD, List.getElem?_append_left hlt, hj]
          exact hb
        unfold movedBlock
        split
        · simpa [lmod, List.getElem?_modify, hij] using hj
        · exact hj
    · refine ⟨q, ?_, hj⟩
      rw [show (reqMod w k (movedBlock i a)).requests = smod w.requests k (movedBlock i a) from rfl,
        sget_smod_other _ _ (Ne.symm hk), hq]

/-- A block past the pool's end that is being copied keeps the blocks from moving. -/
theorem relocateBlocks_stuck {s : State} {h : Nat} {r : Request} {b : Block} (hr : sget s.requests h = some r) (hb : b ∈ r.blocks)
    (hend : pastEnd (poolEnd s) b = true) (hloc : b.location ≠ .memoryTier) : relocateBlocks s = none := by
  obtain ⟨j, hj⟩ := List.mem_iff_getElem?.mp hb
  have hkeep : ∀ u k v, Stuck h j b (poolEnd s) u → relocateRequest u k = some v → Stuck h j b (poolEnd s) v := by
    intro u k v hu hv
    unfold relocateRequest at hv
    split at hv
    · exact Option.some.inj hv ▸ hu
    · exact foldl_bind_keeps (fun _ _ _ hw hv => hw.relocateBlock hloc hv) hu hv
  have hstuck : ∀ u, Stuck h j b (poolEnd s) u → relocateRequest u h = none := by
    intro u hu
    obtain ⟨q, hq, hqj⟩ := hu.held
    unfold relocateRequest
    rw [hq]
    have hlt : j < q.blocks.length := (List.getElem?_eq_some_iff.mp hqj).1
    refine foldl_bind_stuck (x := j) (fun _ _ _ hw hv => hw.relocateBlock hloc hv) (fun w hw => ?_)
      (List.mem_range.mpr (by rw [List.length_append]; omega)) hu
    obtain ⟨⟨p, hp, hpj⟩, hbound⟩ := hw
    have hlt' : j < p.blocks.length := (List.getElem?_eq_some_iff.mp hpj).1
    have hread : lgetD (p.blocks ++ p.reserved) j {} = b := by rw [lgetD, List.getElem?_append_left hlt', hpj, Option.getD_some]
    unfold relocateBlock
    dsimp only
    rw [hp, Option.getD_some, hread, hbound, if_neg (by simp [hend]), if_pos hloc]
  rw [relocateBlocks_eq]
  exact foldl_bind_stuck hkeep hstuck (List.mem_map_of_mem (mem_of_sget hr)) ⟨⟨r, hr, hj⟩, rfl⟩

/-! ### KV_POOL_SET (R329) -/

/-- The pool's new size waits, and the packet for its answer (R329). -/
def poolAsked (c : Ctx) (t : State) (n : Nat) : State :=
  startJob c { t with kv := { t.kv with newPool := some n } } (.kvPool n)

/-- A pool size in range, with no other waiting, is settled or waits. -/
theorem bodyKvPoolSet_settle {c : Ctx} {t : State} (hmin : 64 ≤ c.par 0 2) (hmax : c.par 0 2 ≤ 1024)
    (hnone : ∀ j ∈ t.jobs, ∀ n, j.work ≠ .kvPool n) : bodyKvPoolSet c t =
      settlePool (poolAsked c t (c.par 0 2)) := by
  unfold bodyKvPoolSet
  rw [if_neg (by omega)]
  refine if_neg fun hany => ?_
  obtain ⟨j, hj, hwork⟩ := List.any_eq_true.mp hany
  split at hwork
  · rename_i n heq
    exact hnone j hj n heq
  · cases hwork

/-- Which jobs a settled pool answers, and how. -/
def poolAnswer (j : Job) : Option (Status × Nat × Bytes) :=
  match j.work with
  | .kvPool _ => some (.ok, 0, [])
  | _ => none

/-- One job's answer, if it has one. -/
def answerJob (answer : Job → Option (Status × Nat × Bytes)) (s : State) (j : Job) : State :=
  match answer j with
  | some (x, d, r) => replyTo s j.origin x d r
  | none => s

theorem finishJobs_eq (s : State) (answer : Job → Option (Status × Nat × Bytes)) :
    finishJobs s answer = s.jobs.foldl (answerJob answer) { s with jobs := s.jobs.filter (fun j => (answer j).isNone) } := rfl

/-- Jobs without an answer leave the state. -/
theorem foldl_answerJob_none {answer : Job → Option (Status × Nat × Bytes)} {l : List Job} (h : ∀ i ∈ l, answer i = none)
    (u : State) : l.foldl (answerJob answer) u = u := by
  induction l generalizing u with
  | nil => rfl
  | cons i l ih =>
    rw [List.foldl_cons, show answerJob answer u i = u by rw [answerJob, h i List.mem_cons_self]]
    exact ih (fun k hk => h k (List.mem_cons_of_mem _ hk)) u

/-- The one job that is answered last is taken off, and the others stay. -/
theorem finishJobs_last {s : State} {jobs : List Job} {j : Job} {answer : Job → Option (Status × Nat × Bytes)} {x : Status} {d : Nat}
    {r : Bytes} (hjobs : s.jobs = jobs ++ [j]) (hnone : ∀ i ∈ jobs, answer i = none) (hj : answer j = some (x, d, r)) :
    finishJobs s answer = replyTo { s with jobs := jobs } j.origin x d r := by
  have hfilter : s.jobs.filter (fun i => (answer i).isNone) = jobs := by
    rw [hjobs, List.filter_append, List.filter_eq_self.mpr fun i hi => by simp [hnone i hi]]
    simp [hj]
  rw [finishJobs_eq, hfilter, hjobs, List.foldl_append, foldl_answerJob_none hnone, List.foldl_cons, List.foldl_nil, answerJob, hj]

/-- A pool that is not halved holds the size that waits, or its own (R329). -/
theorem poolBytes_whole {s : State} {n : Nat} (h : pairHalves s = false) (hn : (s.kv.newPool).getD s.kv.poolGib = n) :
    poolBytes s = n * 1073741824 := by
  unfold poolBytes
  dsimp only
  rw [hn, if_neg (by simp [h])]

/-- A pool size that the blocks in use fit, none past its end, holds at once (R329). -/
theorem settlePool_fits {c : Ctx} {t : State} {n : Nat} (hnone : ∀ j ∈ t.jobs, ∀ n, j.work ≠ .kvPool n) (hwhole : pairHalves t = false)
    (hused : usedBytes t ≤ n * 1073741824)
    (hblocks : ∀ e ∈ t.requests, ∀ b ∈ e.2.blocks ++ e.2.reserved, pastEnd (min t.kv.poolGib n * 262144) b = false) :
    settlePool (poolAsked c t n) =
      replyOk c (settleTier false { t with kv := { t.kv with poolGib := n, newPool := none } } (planLanes t)) [] := by
  have hbytes : poolBytes (poolAsked c t n) = n * 1073741824 :=
    poolBytes_whole (s := poolAsked c t n) hwhole rfl
  have hfits : usedBytes (poolAsked c t n) ≤
      poolBytes (poolAsked c t n) := by
    rw [hbytes]
    exact hused
  have hanswers : ∀ i ∈ t.jobs, poolAnswer i = none := by
    intro i hi
    unfold poolAnswer
    split
    · rename_i m hm
      exact absurd hm (hnone i hi m)
    · rfl
  unfold settlePool
  rw [if_pos hfits, relocateBlocks_same (s := poolAsked c t n) hblocks]
  exact finishJobs_last (answer := poolAnswer) (j := ⟨c.origin, .kvPool n⟩) rfl hanswers rfl

/-- Blocks in use that a pool size cannot hold keep it waiting (R329). -/
theorem settlePool_waits {s : State} (h : usedBytes s ≤ poolBytes s → relocateBlocks s = none) : settlePool s = s := by
  unfold settlePool
  split
  · rfl
  · split_ifs with hfits
    · rw [h hfits]
    · rfl

/-! ### KV_SWAP_REGISTER (R466) -/

/-- Whether a block lies in the swap area, or is on its way there or back. -/
def inSwap (b : Block) : Bool :=
  decide (b.location = .hostSwap) || decide ((b.location = .leaving ∨ b.location = .returning) ∧ b.dest = .hostSwap)

/-- An aligned swap area of an allowed length is registered while no block lies there. -/
theorem bodyKvSwapRegister_taken {c : Ctx} {t : State} (halign : c.par 0 8 % 4096 = 0) (hlen : c.par 8 8 % 4096 = 0)
    (hmax : c.par 8 8 ≤ 1099511627776) (hfree : ∀ b ∈ ownBlocks t, b.location ≠ .hostSwap ∧ b.dest ≠ .hostSwap) :
    bodyKvSwapRegister c t = replyOk c { t with kv := { t.kv with
      swap := if c.par 8 8 = 0 then none else some (BitVec.ofNat 64 (c.par 0 8), c.par 8 8) } } [] := by
  have hany : ¬(ownBlocks t).any inSwap = true := by
    rw [List.any_eq_true]
    rintro ⟨b, hb, hin⟩
    simp [inSwap, hfree b hb] at hin
  unfold bodyKvSwapRegister
  dsimp only
  rw [if_neg (not_not.mpr halign), if_neg (by omega)]
  exact if_neg hany

/-- A read of an object, and the elements outside it counted, leave host memory. -/
theorem violations_goldenRead_hostMem (s : State) (g : Generation) (source n : Nat) :
    (violations (goldenRead s g) source n).hostMem = s.hostMem := by
  unfold violations goldenRead
  split <;> rfl

/-- Settles O15: the pool's conditions decide at once or keep the packet waiting; a read delivers through the buffer. -/
theorem memoryPackets : Obligations.MemoryPackets := by
  refine ⟨carries_of (body := bodyKvPoolSet) (fun _ _ => rfl) ?fits, carries_of (body := bodyKvPoolSet) (fun _ _ => rfl) ?large,
    fun h r b => carries_of (body := bodyKvPoolSet) (fun _ _ => rfl) ?copied,
    fun j n => carries_of (body := bodyKvPoolSet) (fun _ _ => rfl) ?busy,
    carries_of (body := bodyKvPoolSet) (fun _ _ => rfl) fun c t h => if_pos h,
    carries_of (body := bodyKvSwapRegister) (fun _ _ => rfl) ?swap, carries_of (body := bodyKvSwapRegister) (fun _ _ => rfl) ?given,
    carries_of (body := bodyKvSwapRegister) (fun _ _ => rfl) ?used,
    fun k g a start size out => carries_of (body := bodyMemRead) (fun _ _ => rfl) ?read,
    fun k => carries_of (body := bodyMemRead) (fun _ _ => rfl) ?unknown⟩
  case fits =>
    rintro c t ⟨hmin, hmax, hnone, hwhole, hused, hblocks⟩
    rw [bodyKvPoolSet_settle hmin hmax hnone, settlePool_fits hnone hwhole hused hblocks]
  case large =>
    rintro c t ⟨hmin, hmax, hnone, hwhole, hused⟩
    rw [bodyKvPoolSet_settle hmin hmax hnone]
    refine settlePool_waits fun hfits => absurd hfits (Nat.not_le.mpr ?_)
    rw [poolBytes_whole (s := poolAsked c t (c.par 0 2)) hwhole rfl]
    exact hused
  case copied =>
    rintro c t ⟨hmin, hmax, hnone, hr, hb, hend, hloc⟩
    rw [bodyKvPoolSet_settle hmin hmax hnone]
    exact settlePool_waits fun _ => relocateBlocks_stuck hr hb hend hloc
  case busy =>
    rintro c t ⟨hmin, hmax, hj, hwork⟩
    unfold bodyKvPoolSet
    rw [if_neg (by omega)]
    refine if_pos (List.any_eq_true.mpr ⟨j, hj, ?_⟩)
    rw [hwork]
  case swap =>
    rintro c t ⟨halign, hlen, hmax, hsome, hfree⟩
    rw [bodyKvSwapRegister_taken halign hlen hmax hfree, if_neg hsome]
  case given =>
    rintro c t ⟨halign, hzero, hfree⟩
    rw [bodyKvSwapRegister_taken halign (by omega) (by omega) hfree, if_pos hzero]
  case used =>
    rintro c t ⟨halign, hlen, hmax, b, hb, hloc⟩
    unfold bodyKvSwapRegister
    dsimp only
    rw [if_neg (not_not.mpr halign), if_neg (by omega)]
    exact if_pos (List.any_eq_true.mpr ⟨b, hb, by simp [hloc]⟩)
  case read =>
    rintro c t ⟨hkind, hgood, hgen, rfl, rfl, rfl, rfl, halign, hfits⟩
    unfold bodyMemRead
    rw [hkind]
    dsimp only
    rw [hgood]
    dsimp only
    rw [hgen]
    dsimp only
    rw [if_pos (Bool.and_eq_true_iff.mpr ⟨decide_eq_true halign, decide_eq_true hfits⟩), replyBuffer_written halign hfits]
    rw [violations_goldenRead_hostMem]
  case unknown =>
    rintro c t ⟨hkind, hgood, hgen⟩
    unfold bodyMemRead
    rw [hkind]
    dsimp only
    rw [hgood]
    dsimp only
    rw [hgen]
    rfl

end Sys2Proof.Proofs
end

section
/-! The rules of the maps of arrays and sites: what one reads after it or another changed, and what a change leaves. -/

namespace Sys2Proof.Proofs
open Sys2Proof Sys2Proof.Machine Sys2Proof.Safety Sys2Proof.Laws

section
variable {α : Type} {n : Nat}

/-- An entry set twice holds the last value. -/
theorem sput_sput (m : Store α) (v w : α) : sput (sput m n v) n w = sput m n w := by
  induction m with
  | nil => simp [sput]
  | cons e r ih =>
    obtain ⟨k, u⟩ := e
    rcases lt_trichotomy n k with h | rfl | h
    · simp [sput, h]
    · simp [sput]
    · simp [sput, ih, Nat.not_lt.mpr h.le, h.ne']

/-- What is kept of the other entries does not see one that is set. -/
theorem filter_sput {p : Nat × α → Bool} (h : ∀ v, p (n, v) = false) (m : Store α) (v : α) :
    (sput m n v).filter p = m.filter p := by
  induction m with
  | nil => simp [sput, h]
  | cons e r ih =>
    obtain ⟨k, u⟩ := e
    rcases lt_trichotomy n k with hk | rfl | hk
    · simp [sput, hk, h]
    · simp [sput, h]
    · simp [sput, Nat.not_lt.mpr hk.le, hk.ne', List.filter_cons, ih]

end

section
variable (s : State) (n : Nat)

/-- A site reads as it was set. -/
@[simp] theorem siteGet_siteSet (x : Site) : siteGet (siteSet s n x) n = x := sgetD_sput_same _ _ _ _

theorem siteGet_siteSet_other (x : Site) {k : Nat} (h : k ≠ n) : siteGet (siteSet s n x) k = siteGet s k :=
  sgetD_sput_other _ _ _ h

@[simp] theorem siteGet_siteMod (f : Site → Site) : siteGet (siteMod s n f) n = f (siteGet s n) := siteGet_siteSet _ _ _

theorem siteGet_siteMod_other (f : Site → Site) {k : Nat} (h : k ≠ n) : siteGet (siteMod s n f) k = siteGet s k :=
  siteGet_siteSet_other _ _ _ h

/-- A site set twice holds the last value. -/
theorem siteSet_siteSet (x y : Site) : siteSet (siteSet s n x) n y = siteSet s n y := by
  unfold siteSet
  dsimp only
  rw [sput_sput]

/-- Changes of one site are one change. -/
theorem siteMod_siteMod (f g : Site → Site) : siteMod (siteMod s n f) n g = siteMod s n (fun x => g (f x)) := by
  unfold siteMod
  rw [siteGet_siteSet, siteSet_siteSet]

/-- An array reads as it was set. -/
@[simp] theorem arrGet_arrSet (x : OrArray) : arrGet (arrSet s n x) n = x := sgetD_sput_same _ _ _ _

theorem arrGet_arrSet_other (x : OrArray) {k : Nat} (h : k ≠ n) : arrGet (arrSet s n x) k = arrGet s k :=
  sgetD_sput_other _ _ _ h

@[simp] theorem arrGet_arrMod (f : OrArray → OrArray) : arrGet (arrMod s n f) n = f (arrGet s n) := arrGet_arrSet _ _ _

theorem arrGet_arrMod_other (f : OrArray → OrArray) {k : Nat} (h : k ≠ n) : arrGet (arrMod s n f) k = arrGet s k :=
  arrGet_arrSet_other _ _ _ h

/-- An array set twice holds the last value. -/
theorem arrSet_arrSet (x y : OrArray) : arrSet (arrSet s n x) n y = arrSet s n y := by
  unfold arrSet
  dsimp only
  rw [sput_sput]

/-- Changes of one array are one change. -/
theorem arrMod_arrMod (f g : OrArray → OrArray) : arrMod (arrMod s n f) n g = arrMod s n (fun x => g (f x)) := by
  unfold arrMod
  rw [arrGet_arrSet, arrSet_arrSet]

/-- Whether a site may fire does not rest on that site (R20, R48). -/
theorem mayFire_siteSet (x : Site) (p : Nat) (steps : Bool) : mayFire (siteSet s n x) n p steps = mayFire s n p steps := by
  have hothers : (siteSet s n x).sites.filter (fun e => decide (e.1 ≠ n) && siteFires e.2) =
      s.sites.filter (fun e => decide (e.1 ≠ n) && siteFires e.2) := filter_sput (by simp) _ _
  unfold mayFire
  dsimp only
  rw [hothers]
  rfl

/-- Whether a site may begin work does not rest on that site. -/
theorem mayWork_siteMod (f : Site → Site) (w : Activity) : mayWork (siteMod s n f) n w = mayWork s n w := mayFire_siteSet _ _ _ _ _

end

end Sys2Proof.Proofs
end

section
/-! Calibrations, sequencers and diagnoses asked for by packets (R108, R110 to R112, R141). -/

namespace Sys2Proof.Proofs
open Sys2Proof Sys2Proof.Machine Sys2Proof.Safety Sys2Proof.Laws

/-- A diagnosis that does not run is not given up for a packet. -/
theorem dropDiagnosis_none {s : State} {n : Nat} (h : (siteGet s n).activity = .none) : dropDiagnosis s n = s := by
  unfold dropDiagnosis
  rw [h]

/-- Giving up a diagnosis changes its site alone. -/
theorem dropDiagnosis_sites (s : State) (n : Nat) : dropDiagnosis s n = { s with sites := (dropDiagnosis s n).sites } := by
  unfold dropDiagnosis
  split <;> rfl

/-- A site under nobody's control runs no sequence of the host's. -/
theorem hostRuns_none {x : Site} (h : x.activity = .none) : hostRuns x = false := by
  simp [hostRuns, h, isHost]

/-- A sequencer in order at a site that is free for it is steered, or returned to the engine (R110, R111). -/
theorem bodySiteSeqWrite_free {c : Ctx} {t : State} {n : Nat} (hdie : c.par 0 1 ≤ 3) (hn : n = c.par 0 1 * 65536 + c.par 2 2)
    (hgood : firstBad (seqChecks c) = none) (hfree : siteBusy t n = false) : bodySiteSeqWrite c t =
      if fld (c.par 4 4) 31 30 = 0 then
        replyOk c (if hostRuns (siteGet (dropDiagnosis t n) n) then
          siteMod (dropDiagnosis t n) n (fun y => { y with halting := true }) else reloadSite (dropDiagnosis t n) n) []
      else replyOk c (siteMod (dropDiagnosis t n) n (steerSite c (hostTime (dropDiagnosis t n) + 10000000000)
        (hostRuns (siteGet (dropDiagnosis t n) n) || mayWork (dropDiagnosis t n) n (.host 0)))) [] := by
  subst hn
  unfold bodySiteSeqWrite
  rw [siteOf_eq hdie]
  dsimp only
  rw [hgood]
  dsimp only
  rw [if_neg (by simp [hfree])]

/-- A diagnosis asked for at a site that is free for it waits there or starts (R108). -/
theorem bodySiteDiagRun_free {c : Ctx} {t : State} {n : Nat} (hdie : c.par 0 1 ≤ 3) (hn : n = c.par 0 1 * 65536 + c.par 2 2)
    (hfree : siteBusy t n = false) :
    bodySiteDiagRun c t = startDiagnosis (startJob c (dropDiagnosis t n) (.siteDiag n)) n := by
  subst hn
  unfold bodySiteDiagRun
  rw [siteOf_eq hdie]
  exact if_neg (by simp [hfree])

/-- The words of a diagnosis do not touch what the site is at work on. -/
theorem diagnosisStarts_activity (requested : Bool) (x : Site) : (diagnosisStarts requested x).activity = .diagnosing requested := by
  unfold diagnosisStarts setDiagWords
  split <;> rfl

/-- A diagnosis that waits changes its site alone; it starts there, or goes on waiting (R107). -/
theorem startDiagnosis_waits (s : State) (n : Nat) :
    (startDiagnosis s n).jobs = s.jobs ∧
    ((siteGet (startDiagnosis s n) n).diagnose = true ∨ ∃ r, (siteGet (startDiagnosis s n) n).activity = .diagnosing r) := by
  unfold startDiagnosis settleDiagnosis
  dsimp only
  split
  · exact ⟨rfl, .inr ⟨_, by rw [siteGet_siteMod, diagnosisStarts_activity]⟩⟩
  · exact ⟨rfl, .inl (by rw [siteGet_siteMod])⟩

/-- A diagnosis asked for at a site with nothing under way that may fire starts at once (R107, R20). -/
theorem startDiagnosis_starts {s : State} {n : Nat} (hidle : (siteGet s n).activity = .none) (hstep : (siteGet s n).step = none)
    (hnext : (siteGet s n).nextStep = none) (hmay : mayWork s n (.diagnosing false) = true) (hasked : ∃ j ∈ s.jobs, j.work = .siteDiag n) :
    startDiagnosis s n = siteSet s n (diagnosisStarts true (siteGet s n)) := by
  have hjobs : s.jobs.any (fun j => j.work = .siteDiag n) = true := by simpa using hasked
  unfold startDiagnosis settleDiagnosis
  dsimp only
  rw [siteGet_siteMod, mayWork_siteMod, if_pos (by simp [hidle, hstep, hnext, hmay]), siteMod_siteMod,
    show (siteMod s n _).jobs = s.jobs from rfl, hjobs]
  rfl

/-- Settles O16: what the arrays of the site are at decides whether the host may have it. -/
theorem unitControlPackets : Obligations.UnitControlPackets := by
  refine ⟨carries_of (body := bodyArrayCalRun) (fun _ _ => rfl) ?calRun, carries_of (body := bodyArrayCalRun) (fun _ _ => rfl) ?calBusy,
    carries_of (body := bodyArrayCalRun) (fun _ _ => rfl) ?calInvalid,
    fun n => carries_of (body := bodySiteSeqWrite) (fun _ _ => rfl) ?written,
    fun n => carries_of (body := bodySiteSeqWrite) (fun _ _ => rfl) ?returned, ?steered,
    fun o => carries_of (body := bodySiteSeqWrite) (fun _ _ => rfl) ?order,
    fun n => carries_of (body := bodySiteSeqWrite) (fun _ _ => rfl) ?seqBusy,
    fun n => carries_of (body := bodySiteDiagRun) (fun _ _ => rfl) ?diagnosis, ?waits,
    fun n => carries_of (body := bodySiteDiagRun) (fun _ _ => rfl) ?diagBusy⟩
  case calRun =>
    rintro c t ⟨hlt, hstate⟩
    unfold bodyArrayCalRun
    dsimp only
    rw [if_neg (by omega)]
    rcases hstate with h | h | h <;> rw [h] <;> rfl
  case calBusy =>
    rintro c t ⟨hlt, hstate⟩
    unfold bodyArrayCalRun
    dsimp only
    rw [if_neg (by omega), hstate]
    rfl
  case calInvalid =>
    intro c t h
    unfold bodyArrayCalRun
    dsimp only
    split
    · rfl
    · rename_i hlt
      rcases h with h | h | h | h
      · exact absurd h hlt
      all_goals
        rw [h]
        rfl
  case written =>
    rintro c t ⟨hdie, hn, hgood, hfree, hmode, hidle⟩
    rw [bodySiteSeqWrite_free hdie hn hgood hfree, dropDiagnosis_none hidle, hostRuns_none hidle, if_neg hmode, Bool.false_or]
    unfold siteMod steerSite
    rw [hostRuns_none hidle]
    rfl
  case returned =>
    rintro c t ⟨hdie, hn, hgood, hfree, hmode, hidle⟩
    rw [bodySiteSeqWrite_free hdie hn hgood hfree, dropDiagnosis_none hidle, hostRuns_none hidle, if_pos hmode,
      if_neg Bool.false_ne_true]
  case steered =>
    intro p s c t n hacc hdie hn hgood hfree hmode
    refine ⟨_, by rw [exec_accepted (body := bodySiteSeqWrite) (fun _ _ => rfl) hacc, bodySiteSeqWrite_free hdie hn hgood hfree,
      if_neg hmode], ?_, ?_⟩
    · rw [dropDiagnosis_sites]
      rfl
    · rw [siteGet_siteMod, dropDiagnosis_sites]
      exact ⟨rfl, rfl, rfl, rfl⟩
  case order =>
    rintro c t ⟨hdie, hbad⟩
    unfold bodySiteSeqWrite
    rw [siteOf_eq hdie]
    dsimp only
    rw [hbad]
    rfl
  case seqBusy =>
    rintro c t ⟨hdie, rfl, hgood, hbusy⟩
    unfold bodySiteSeqWrite
    rw [siteOf_eq hdie]
    dsimp only
    rw [hgood]
    exact if_pos hbusy
  case diagnosis =>
    rintro c t ⟨hdie, hn, hfree, hidle, hstep, hnext, hmay⟩
    rw [bodySiteDiagRun_free hdie hn hfree, dropDiagnosis_none hidle]
    exact startDiagnosis_starts (s := startJob c t (.siteDiag n)) hidle hstep hnext hmay
      ⟨_, List.mem_append_right _ (List.mem_singleton_self _), rfl⟩
  case waits =>
    intro p s c t n hacc hdie hn hfree
    obtain ⟨hjobs, hwaits⟩ := startDiagnosis_waits (startJob c (dropDiagnosis t n) (.siteDiag n)) n
    refine ⟨_, by rw [exec_accepted (body := bodySiteDiagRun) (fun _ _ => rfl) hacc, bodySiteDiagRun_free hdie hn hfree], ?_, hwaits⟩
    rw [hjobs, dropDiagnosis_sites]
    rfl
  case diagBusy =>
    rintro c t ⟨hdie, rfl, hbusy⟩
    unfold bodySiteDiagRun
    rw [siteOf_eq hdie]
    exact if_pos hbusy

end Sys2Proof.Proofs
end

section
/-! What requests that end, and work at arrays and sites, can change: said once for each, as the model's laws do for replies. -/

namespace Sys2Proof.Proofs
open Sys2Proof Sys2Proof.Machine Sys2Proof.Safety Sys2Proof.Laws

/-! ### Requests that end (R354, R374, R381) -/

/-- What ends of requests leave as it was. -/
def SameButEnds (s t : State) : Prop :=
  t = { s with requests := t.requests, accounts := t.accounts, sessions := t.sessions, objects := t.objects, jobs := t.jobs,
               lanes := t.lanes, rings := t.rings, hostMem := t.hostMem, fns := t.fns,
               lodge := { s.lodge with responses := t.lodge.responses } }

theorem SameButEnds.refl (s : State) : SameButEnds s s := rfl

theorem SameButEnds.trans {s t u : State} (h : SameButEnds s t) (k : SameButEnds t u) : SameButEnds s u := by
  unfold SameButEnds at *
  rw [k, h]

theorem SameButEnds.of_reply {s t : State} (h : SameButReply s t) : SameButEnds s t := by
  unfold SameButReply at h
  unfold SameButEnds
  rw [h]

/-- Answering jobs takes them off the list and replies. -/
theorem finishJobs_sameButEnds (s : State) (answer : Job → Option (Status × Nat × Bytes)) : SameButEnds s (finishJobs s answer) :=
  .trans (t := { s with jobs := s.jobs.filter (fun j => (answer j).isNone) }) rfl (.of_reply (finishJobs_frame s answer))

theorem settleClosing_frame (s : State) : SameButEnds s (settleClosing s) := by
  unfold settleClosing
  refine .trans ?_ (finishJobs_sameButEnds _ _)
  rfl

theorem dropRequest_frame (s : State) (h : Nat) : SameButEnds s (dropRequest s h) := by
  unfold dropRequest
  split
  · exact .refl s
  · rename_i r _
    have hcharge : SameButEnds s (if r.ran then s else addLevel s r.account r.cls (Int.ofNat (r.charge * 1024)) true) := by
      split
      · exact .refl s
      · rfl
    refine hcharge.trans (.trans ?_ (settleClosing_frame _))
    rfl

theorem dropRequests_frame (s : State) (hs : List Nat) : SameButEnds s (dropRequests s hs) := by
  induction hs generalizing s with
  | nil => exact .refl s
  | cons h hs ih => exact (dropRequest_frame s h).trans (ih _)

theorem closeRequests_frame (s : State) (p : Request → Bool) : SameButEnds s (closeRequests s p) := by
  unfold closeRequests
  extract_lets gone s1
  exact .trans (t := s1) rfl (.trans (dropRequests_frame s1 gone) rfl)

/-- Requests end: what they leave is as it was, and sessions, objects and requests are none but earlier ones. -/
structure Ending (s t : State) : Prop where
  same : SameButEnds s t
  ends : Ends s t

theorem Ending.refl (s : State) : Ending s s := ⟨.refl s, .refl s⟩

theorem Ending.trans {s t u : State} (a : Ending s t) (b : Ending t u) : Ending s u := ⟨a.same.trans b.same, a.ends.trans b.ends⟩

theorem Ending.of_reply {s t : State} (h : SameButReply s t) : Ending s t := ⟨.of_reply h, .of_reply h⟩

theorem Ending.foldl {α : Type} {f : State → α → State} (h : ∀ s x, Ending s (f s x)) (l : List α) (s : State) :
    Ending s (l.foldl f s) := by
  induction l generalizing s with
  | nil => exact .refl s
  | cons x l ih => exact (h s x).trans (ih _)

/-- A request that changes but keeps its session and side is the same request. -/
theorem smod_requests_ending (s : State) (h : Nat) {f : Request → Request} (hses : ∀ r, (f r).session = r.session)
    (hmir : ∀ r, (f r).mirrored = r.mirrored) : Ending s { s with requests := smod s.requests h f } := by
  refine ⟨rfl, rfl, rfl, rfl, fun _ => id, fun e he => ?_, fun _ => id, fun _ ho _ => ho⟩
  rcases mem_smod (m := s.requests) he with ⟨_, hmem⟩ | ⟨rfl, r, hr, hv⟩
  · exact ⟨e.2, hmem, rfl, rfl⟩
  · exact ⟨r, hr, by rw [hv, hses], by rw [hv, hmir]⟩

theorem dropRequest_ending (s : State) (h : Nat) : Ending s (dropRequest s h) := ⟨dropRequest_frame s h, dropRequest_ends s h⟩

theorem addLevel_ending (s : State) (a cls : Nat) (d : Int) (top : Bool) : Ending s (addLevel s a cls d top) :=
  ⟨rfl, .of_same rfl rfl rfl rfl rfl rfl⟩

theorem unlane_ending (s : State) (g h : Nat) : Ending s (unlane s g h) := ⟨rfl, .of_same rfl rfl rfl rfl rfl rfl⟩

theorem markEnded_ending (s : State) (h g : Nat) : Ending s (markEnded s h g) :=
  (unlane_ending s g h).trans (smod_requests_ending _ h (fun _ => rfl) fun _ => rfl)

theorem ringPost_ending (s : State) (n : Nat) (e : RingEntry) : Ending s (ringPost s n e).1 := by
  refine .of_reply ?_
  unfold SameButReply
  rw [ringPost_lodge]
  exact ringPost_frame s n e

theorem recordWritten_ending (s : State) (e : RingEntry) : Ending s (recordWritten s e) := by
  unfold recordWritten
  split
  · exact .refl s
  · rename_i h _
    extract_lets s1
    have hcharge : Ending s s1 := by
      dsimp only [s1]
      split
      · split
        · exact addLevel_ending s _ _ _ _
        · exact .refl s
      · exact .refl s
    split
    · exact hcharge.trans (dropRequest_ending s1 h)
    · exact hcharge

theorem pushRecord_ending (s : State) (h : Nat) (e : RingEntry) : Ending s (pushRecord s h e) := by
  unfold pushRecord
  split
  · exact .refl s
  · rename_i r _
    have hpost := ringPost_ending s r.ring e
    split
    rename_i s1 written heq
    rw [heq] at hpost
    split
    · exact hpost.trans (recordWritten_ending s1 e)
    · split
      · exact hpost.trans (markEnded_ending s1 h r.graph)
      · exact hpost

/-- A request's record, written or kept, ends no other request (R400, R491). -/
theorem postRecord_ending (s : State) (h : Nat) (e : RingEntry) : Ending s (postRecord s h e) := by
  unfold postRecord
  split
  · exact .refl s
  · rename_i r _
    extract_lets s1
    split
    · exact pushRecord_ending s h e
    · have hwait : Ending s s1 := smod_requests_ending s h (fun _ => rfl) fun _ => rfl
      split
      · exact hwait.trans (markEnded_ending s1 h r.graph)
      · exact hwait

theorem flushAwaiting_ending (s : State) (h : Nat) : Ending s (flushAwaiting s h) := by
  unfold flushAwaiting
  split
  · exact .refl s
  · refine .trans ?_ (.foldl (fun t e => pushRecord_ending t h e) _ _)
    exact smod_requests_ending s h (fun _ => rfl) fun _ => rfl

theorem endRequest_ending (s : State) (h : Nat) (st : Status) : Ending s (endRequest s h st) := by
  unfold endRequest
  split
  · exact .refl s
  · exact postRecord_ending s h _

/-! ### Work at arrays and sites -/

/-- What work at arrays and sites leaves as it was. -/
def SameButArrays (s t : State) : Prop :=
  t = { s with arrays := t.arrays, sites := t.sites, lanes := t.lanes, planner := t.planner, jobs := t.jobs, counts := t.counts,
               hostMem := t.hostMem, rings := t.rings, fns := t.fns, lodge := t.lodge }

theorem SameButArrays.refl (s : State) : SameButArrays s s := rfl

theorem SameButArrays.trans {s t u : State} (h : SameButArrays s t) (k : SameButArrays t u) : SameButArrays s u := by
  unfold SameButArrays at *
  rw [k, h]

theorem SameButArrays.of_reply {s t : State} (h : SameButReply s t) : SameButArrays s t := by
  unfold SameButReply at h
  unfold SameButArrays
  rw [h]

theorem SameButArrays.of_record {s t : State} (h : SameButRecord s t) : SameButArrays s t := by
  unfold SameButRecord at h
  unfold SameButArrays
  rw [h]

/-- Work at arrays and sites: an array that changes is programmed, retired or quarantined; a lane keeps what it sits out. -/
structure Worked (s t : State) : Prop where
  same : SameButArrays s t
  arrays : ∀ e ∈ t.arrays, e ∈ s.arrays ∨ e.2.state = .programming ∨ e.2.state = .retired ∨ e.2.state = .quarantined
  lanes : ∀ e ∈ t.lanes, ∃ l, (e.1, l) ∈ s.lanes ∧ l.sitsOut = e.2.sitsOut

theorem Worked.refl (s : State) : Worked s s := ⟨.refl s, fun _ => .inl, fun e he => ⟨e.2, he, rfl⟩⟩

theorem Worked.trans {s t u : State} (a : Worked s t) (b : Worked t u) : Worked s u where
  same := a.same.trans b.same
  arrays e he := (b.arrays e he).elim (a.arrays e) .inr
  lanes e he := by
    obtain ⟨l, hl, hsits⟩ := b.lanes e he
    obtain ⟨l', hl', hsits'⟩ := a.lanes _ hl
    exact ⟨l', hl', hsits'.trans hsits⟩

/-- What leaves arrays and lanes is work. -/
theorem Worked.of_same {s t : State} (h : SameButArrays s t) (ha : t.arrays = s.arrays) (hl : t.lanes = s.lanes) : Worked s t :=
  ⟨h, fun _ he => .inl (ha ▸ he), fun e he => ⟨e.2, hl ▸ he, rfl⟩⟩

theorem Worked.of_reply {s t : State} (h : SameButReply s t) : Worked s t := by
  refine .of_same (.of_reply h) ?_ ?_ <;> rw [h]

theorem Worked.of_record {s t : State} (h : SameButRecord s t) : Worked s t := by
  refine .of_same (.of_record h) ?_ ?_ <;> rw [h]

theorem Worked.foldl {α : Type} {f : State → α → State} (h : ∀ s x, Worked s (f s x)) (l : List α) (s : State) :
    Worked s (l.foldl f s) := by
  induction l generalizing s with
  | nil => exact .refl s
  | cons x l ih => exact (h s x).trans (ih _)

/-- An entry of a map after one is set is that one, or was there. -/
theorem mem_sput {α : Type} {m : Store α} {n : Nat} {v : α} {e : Nat × α} (h : e ∈ sput m n v) : e = (n, v) ∨ e ∈ m := by
  induction m with
  | nil => exact .inl (List.mem_singleton.mp h)
  | cons x r ih =>
    obtain ⟨k, w⟩ := x
    unfold sput at h
    split_ifs at h with h1 h2
    · exact (List.mem_cons.mp h).imp id id
    · exact (List.mem_cons.mp h).imp id (List.mem_cons_of_mem _)
    · rcases List.mem_cons.mp h with rfl | h
      · exact .inr List.mem_cons_self
      · exact (ih h).imp id (List.mem_cons_of_mem _)

/-- An array that is programmed, retired or quarantined. -/
theorem arrMod_worked (s : State) (a : Nat) {f : OrArray → OrArray}
    (h : (f (arrGet s a)).state = .programming ∨ (f (arrGet s a)).state = .retired ∨ (f (arrGet s a)).state = .quarantined) :
    Worked s (arrMod s a f) :=
  ⟨rfl, fun _ he => (mem_sput he).elim (fun hn => .inr (hn ▸ h)) .inl, fun e he => ⟨e.2, he, rfl⟩⟩

theorem siteMod_worked (s : State) (n : Nat) (f : Site → Site) : Worked s (siteMod s n f) := .of_same rfl rfl rfl

theorem laneMod_worked (s : State) (g : Nat) {f : Lane → Lane} (h : ∀ l, (f l).sitsOut = l.sitsOut) : Worked s (laneMod s g f) := by
  refine ⟨rfl, fun _ => .inl, fun e he => ?_⟩
  rcases mem_smod (m := s.lanes) he with ⟨_, hmem⟩ | ⟨rfl, l, hl, hv⟩
  · exact ⟨e.2, hmem, rfl⟩
  · exact ⟨l, hl, by rw [hv, h]⟩

theorem forceBuild_worked (s : State) (c : BuildCause) : Worked s (forceBuild s c) := .of_same rfl rfl rfl

theorem report_worked (s : State) (k v : Nat) (u : Word) (d : Bytes) : Worked s (report s k v u d) :=
  .of_record (report_frame s k v u d)

theorem finishJobs_worked (s : State) (answer : Job → Option (Status × Nat × Bytes)) : Worked s (finishJobs s answer) :=
  .trans (t := { s with jobs := s.jobs.filter (fun j => (answer j).isNone) }) (.of_same rfl rfl rfl)
    (.of_reply (finishJobs_frame s answer))

theorem settleDiagnosis_worked (s : State) (n : Nat) : Worked s (settleDiagnosis s n) := by
  unfold settleDiagnosis
  dsimp only
  split
  · exact siteMod_worked _ _ _
  · exact .refl s

theorem siteReleased_worked (s : State) (n : Nat) : Worked s (siteReleased s n) :=
  (siteMod_worked s n _).trans (settleDiagnosis_worked _ n)

theorem startDiagnosis_worked (s : State) (n : Nat) : Worked s (startDiagnosis s n) :=
  (siteMod_worked s n _).trans (settleDiagnosis_worked _ n)

theorem settleCal_worked (s : State) (a : Nat) : Worked s (settleCal s a) := by
  unfold settleCal
  extract_lets st bad busy s1
  split
  · exact .refl s
  · refine .trans (t := s1) ?_ (finishJobs_worked _ _)
    dsimp only [s1]
    split
    · exact siteReleased_worked s _
    · exact .refl s

theorem replaceContents_worked (s : State) (a : Nat) : Worked s (replaceContents s a) := by
  unfold replaceContents
  split
  · exact forceBuild_worked s _
  · exact .refl s

theorem wideLayersNext_worked (s : State) (a : Nat) : Worked s (wideLayersNext s a) := by
  unfold wideLayersNext
  generalize layersOf s a = l
  refine .foldl (fun t e => ?_) l s
  exact laneMod_worked t e.1 fun _ => rfl

theorem wideLayersOf_worked (s : State) (a : Nat) : Worked s (wideLayersOf s a) := by
  unfold wideLayersOf
  generalize layersOf s a = l
  exact .foldl (f := fun t (e : Nat × Nat) => wideLayer t e.1 e.2) (fun s e => laneMod_worked s e.1 fun _ => rfl) l s

theorem retireArray_worked (s : State) (a : Nat) : Worked s (retireArray s a) :=
  (wideLayersNext_worked s a).trans ((arrMod_worked _ a (.inr (.inl rfl))).trans ((settleCal_worked _ a).trans
    (replaceContents_worked _ a)))

theorem quarantineOnly_worked (s : State) (a : Nat) : Worked s (quarantineOnly s a) := by
  unfold quarantineOnly
  split
  · exact .refl s
  · exact (wideLayersOf_worked s a).trans ((arrMod_worked _ a (.inr (.inr rfl))).trans ((settleCal_worked _ a).trans
      (replaceContents_worked _ a)))

theorem quarantineArray_worked (s : State) (a : Nat) : Worked s (quarantineArray s a) :=
  (quarantineOnly_worked s a).trans (startDiagnosis_worked _ _)

theorem reportWear_worked (s : State) (a : Nat) : Worked s (reportWear s a) := by
  unfold reportWear
  split
  · exact report_worked s _ _ _ _
  · exact .refl s

/-- Programming begins at an array (R57). -/
theorem beginProgram_worked (s : State) (p : Programming) : Worked s (beginProgram s p) := by
  unfold beginProgram
  extract_lets a wear s0 s1
  refine .trans (t := s1) ?_ ((siteMod_worked _ _ _).trans ((settleCal_worked _ a).trans (reportWear_worked _ a)))
  dsimp only [s1, s0]
  rw [arrMod_arrMod]
  exact arrMod_worked s a (.inl rfl)

theorem startPrograms_worked (s : State) : Worked s (startPrograms s) := by
  unfold startPrograms
  split
  · exact .refl s
  · rename_i p _
    refine .foldl (fun t g => ?_) p.programs s
    dsimp only
    split
    · exact (retireArray_worked t _).trans (.of_same rfl rfl rfl)
    · split
      · exact (beginProgram_worked t g).trans (.of_same rfl rfl rfl)
      · exact .refl t

end Sys2Proof.Proofs
end

section
/-! Temperature readings and thresholds, Dormant, the chip reset and staged firmware, by packets (R468, R469, R543, R565 to R568). -/

namespace Sys2Proof.Proofs
open Sys2Proof Sys2Proof.Machine Sys2Proof.Safety Sys2Proof.Laws

/-- An accepted packet that its row stamps answers what the row's work gives. -/
theorem exec_stamped {opcode : Nat} {i : Instr} {body : Ctx → State → State} {p : Pkt} {s t : State} {c : Ctx}
    (he : exec i s = .next (packetRow opcode p s id body)) (h : Accepted opcode p s c t) : exec i s = .next (body c t) := by
  rw [he, packetRow_accepted h id body (fun _ => rfl) (fun _ => rfl) (fun _ _ => rfl)]
  rfl

/-! ### THERMAL_SET (R575) -/

/-- The limits of R575 on six thresholds. -/
theorem thermalChecks_none {w wc t tc sh re : Int} : firstBad (thermalChecks w wc t tc sh re) = none ↔
    480 ≤ w ∧ w ≤ 880 ∧ w ≤ t ∧ wc + 16 ≤ w ∧ 560 ≤ t ∧ t ≤ 880 ∧ t + 40 ≤ sh ∧ tc + 16 ≤ t ∧ 760 ≤ sh ∧ sh ≤ 920 ∧
      re + 16 ≤ sh := by
  rw [firstBad_eq_none]
  simp only [thermalChecks, List.forall_mem_cons, List.not_mem_nil, false_implies, implies_true,
    decide_eq_false_iff_not, and_true]
  omega

/-- Thresholds within the limits are taken together (R468). -/
theorem bodyThermalSet_taken {c : Ctx} {t : State}
    (h : firstBad (thermalChecks (c.parInt 0) (c.parInt 2) (c.parInt 4) (c.parInt 6) (c.parInt 8) (c.parInt 10)) = none) :
    bodyThermalSet c t = replyOk c { t with thermal := { t.thermal with
      warning := c.parInt 0, warningClear := c.parInt 2, throttle := c.parInt 4, throttleClear := c.parInt 6,
      shutdown := c.parInt 8, rearm := c.parInt 10 } } [] := by
  unfold bodyThermalSet
  dsimp only
  rw [h]

/-- Thresholds that break a limit are refused together, at the first field that does (log entry 56). -/
theorem bodyThermalSet_refused {c : Ctx} {t : State}
    (h : firstBad (thermalChecks (c.parInt 0) (c.parInt 2) (c.parInt 4) (c.parInt 6) (c.parInt 8) (c.parInt 10)) ≠ none) :
    bodyThermalSet c t = reply c t .invalid (16 + (firstBad (thermalChecks (c.parInt 0) (c.parInt 2) (c.parInt 4) (c.parInt 6)
      (c.parInt 8) (c.parInt 10))).getD 0) [] := by
  obtain ⟨o, ho⟩ := Option.ne_none_iff_exists'.mp h
  unfold bodyThermalSet
  dsimp only
  rw [ho]
  rfl

/-! ### Dormant (R565 to R568) -/

/-- No array keeps a table in Dormant (R566). -/
theorem arrayDormant_tables (a : OrArray) : (arrayDormant a).active = none ∧ (arrayDormant a).staged = none := by
  unfold arrayDormant
  split <;> exact ⟨rfl, rfl⟩

/-- What an engine that enters Dormant is left with (R566). -/
theorem enterDormant_leaves (s : State) : (enterDormant s).power.state = .dormant ∧ (enterDormant s).power.hbmSelfRefresh = true ∧
    (enterDormant s).power.quartersGated = true ∧ (∀ e ∈ (enterDormant s).arrays, e.2.active = none ∧ e.2.staged = none) ∧
    (enterDormant s).objects = s.objects ∧ (enterDormant s).requests = s.requests := by
  unfold enterDormant reportPower
  extract_lets power s1
  rw [report_frame]
  refine ⟨rfl, rfl, rfl, fun e he => ?_, rfl, rfl⟩
  dsimp only [protectLanes, s1] at he
  obtain ⟨a, _, hv⟩ := mem_smapAll (m := s.arrays) he
  rw [hv]
  exact arrayDormant_tables a

/-- What an engine that leaves Dormant is left with (R568): programmed arrays are due, and every lane sits out. -/
theorem wakeDies_leaves (s : State) : (wakeDies s).power.state = .idle ∧ (wakeDies s).power.hbmSelfRefresh = false ∧
    (wakeDies s).power.quartersGated = false ∧ (∀ e ∈ (wakeDies s).arrays, e.2.state = .programmed → e.2.due = true) ∧
    (∀ e ∈ (wakeDies s).lanes, e.2.sitsOut = true) ∧ (wakeDies s).requests = s.requests := by
  unfold wakeDies reportPower
  extract_lets power s1
  have hworked := startPrograms_worked s1
  have hsame := hworked.same
  rw [report_frame]
  refine ⟨?_, ?_, ?_, fun e he hstate => ?_, fun e he => ?_, ?_⟩
  · exact congrArg (·.power.state) hsame
  · exact congrArg (·.power.hbmSelfRefresh) hsame
  · exact congrArg (·.power.quartersGated) hsame
  · rcases hworked.arrays e he with hold | hnew | hnew | hnew
    · dsimp only [s1] at hold
      obtain ⟨a, _, hv⟩ := mem_smapAll (m := s.arrays) hold
      rw [hv] at hstate ⊢
      split at hstate
      · rename_i hprog
        rw [if_pos hprog]
      · rename_i hprog
        exact absurd hstate hprog
    all_goals
      rw [hnew] at hstate
      cases hstate
  · dsimp only [protectLanes] at he
    obtain ⟨l, hl, hv⟩ := mem_smapAll he
    obtain ⟨l', hl', hsits⟩ := hworked.lanes _ hl
    dsimp only [s1] at hl'
    obtain ⟨l'', _, hv''⟩ := mem_smapAll (m := s.lanes) hl'
    rw [hv]
    dsimp only
    exact hsits.symm.trans (congrArg Lane.sitsOut hv'')
  · exact congrArg (·.requests) hsame

/-- Settles O17: the thresholds stand or fall together; requests and a build keep the engine from Dormant. -/
theorem powerPackets : Obligations.PowerPackets := by
  refine ⟨carries_of (body := bodyThermalRead) (fun _ _ => rfl) fun _ _ _ => rfl,
    carries_of (body := bodyThermalSet) (fun _ _ => rfl) fun c t h => bodyThermalSet_taken (thermalChecks_none.mpr h),
    carries_of (body := bodyThermalSet) (fun _ _ => rfl) fun c t h => bodyThermalSet_refused (thermalChecks_none.not.mpr h),
    ?dormant, ?request, ?build, ?already, ?active, ?wakes⟩
  case dormant =>
    intro p s c t hacc hawake hnone hbuild
    refine ⟨enterDormant t, ?_, enterDormant_leaves t⟩
    rw [exec_stamped (body := bodyPowerDormant) rfl hacc]
    unfold bodyPowerDormant
    rw [if_neg hawake, if_neg]
    rintro (h | h)
    · obtain ⟨e, he, hown⟩ := List.any_eq_true.mp h
      simp [hnone e he] at hown
    · simp [hbuild] at h
  case request =>
    intro p s c t e hacc hawake he hown
    rw [exec_stamped (body := bodyPowerDormant) rfl hacc]
    unfold bodyPowerDormant
    rw [if_neg hawake]
    exact congrArg _ (if_pos (.inl (List.any_eq_true.mpr ⟨e, he, by simp [hown]⟩)))
  case build =>
    intro p s c t b hacc hawake hbuild
    rw [exec_stamped (body := bodyPowerDormant) rfl hacc]
    unfold bodyPowerDormant
    rw [if_neg hawake]
    exact congrArg _ (if_pos (.inr (by rw [hbuild]; rfl)))
  case already =>
    intro p s c t hacc hdormant
    rw [exec_stamped (body := bodyPowerDormant) rfl hacc]
    exact congrArg _ (if_pos hdormant)
  case active =>
    intro p s c t hacc hcode hawake
    rw [exec_stamped (body := bodyPowerActive) rfl hacc]
    unfold bodyPowerActive
    rw [if_neg (by omega), if_neg hawake]
  case wakes =>
    intro p s c t hacc hcode hdormant
    refine ⟨wakeDies t, ?_, wakeDies_leaves t⟩
    rw [exec_stamped (body := bodyPowerActive) rfl hacc]
    unfold bodyPowerActive
    rw [if_neg (by omega), if_pos hdormant]

/-! ### The chip reset and staged firmware (R469, R543, R586, R587) -/

/-- Records held back that are issued change what a record does. -/
theorem flushCounts_frame (s : State) : SameButRecord s (flushCounts s) := by
  suffices h : ∀ (l : List RecordCount) (t : State), SameButRecord s t →
      SameButRecord s (l.foldl (fun st c => match c.held with | some r => emitRecord st r | none => st) t) from h s.counts s rfl
  intro l
  induction l with
  | nil => exact fun t h => h
  | cons c l ih =>
    refine fun t h => ih _ ?_
    dsimp only
    split
    · exact h.trans (emitRecord_frame t _)
    · exact h

/-- What a chip reset that begins leaves (R586, R587). -/
theorem chipReset_leaves (s : State) (last cause : Nat) : (chipReset s last cause).boot.state = .chipReset ∧
    (chipReset s last cause).boot.lastReset = last ∧ (chipReset s last cause).boot.dmaStopped = true ∧
    (chipReset s last cause).requests = [] ∧ (chipReset s last cause).sessions = [] ∧ (chipReset s last cause).spdm = [] ∧
    (chipReset s last cause).queues = [] ∧ (chipReset s last cause).rings = [] ∧ (chipReset s last cause).jobs = [] ∧
    (chipReset s last cause).time = {} ∧ (chipReset s last cause).graphs = s.graphs ∧
    (chipReset s last cause).publisherKeys = s.publisherKeys ∧ (chipReset s last cause).fuses = s.fuses := by
  have hends := dropRequests_frame s ((s.requests.filter (fun e => !e.2.mirrored)).map (·.1))
  refine ⟨rfl, rfl, rfl, rfl, rfl, rfl, rfl, rfl, rfl, rfl, ?_, ?_, ?_⟩
  · exact congrArg (·.graphs) hends
  · exact congrArg (·.publisherKeys) hends
  · exact congrArg (·.fuses) hends

/-- A bundle that can be read whole is judged as it is (R543). -/
theorem bodyFirmwareLoad_read {c : Ctx} {t : State} (hlen : bundleLengthOk (c.par 8 4) = true) (hread : c.data.readable = true)
    (hwhole : c.data.first.length = c.par 8 4) : bodyFirmwareLoad c t =
      (judgeBundle t.fuses bundleKinds c.data.first).elim
        (if c.par 12 1 % 2 = 1 then
          chipReset (flushCounts (replyOk c { t with boot := { t.boot with staged := [c.data.first, c.data.first] } } [])) 4 0
        else replyOk c { t with boot := { t.boot with staged := [c.data.first, c.data.first] } } [])
        (fun e => if e.1 = 6 then replyInvalid c t (imageDetail e.2)
          else reply c t .authFail (if e.1 = 4 then 2 else 3) []) := by
  have hpad : padTo (c.par 8 4) c.data.first = c.data.first := by
    rw [← hwhole]
    simp [padTo]
  unfold bodyFirmwareLoad
  dsimp only
  rw [if_neg (by simp [hlen]), if_neg (by simp [hread]), hpad]
  cases judgeBundle t.fuses bundleKinds c.data.first <;> rfl

/-- Settles O18: the reset follows the reply; the bundle's judgement gives status and Detail. -/
theorem resetAndFirmwarePackets : Obligations.ResetAndFirmwarePackets := by
  refine ⟨fun p s c t hacc => ?reset, carries_of (body := bodyFirmwareLoad) (fun _ _ => rfl) ?staged,
    carries_of (body := bodyFirmwareLoad) (fun _ _ => rfl) ?stagedReset,
    fun n o => carries_of (body := bodyFirmwareLoad) (fun _ _ => rfl) ?refused⟩
  case reset =>
    obtain ⟨hstate, hlast, hdma, hreq, hses, hspdm, hqueues, hrings, hjobs, htime, hgraphs, hkeys, hfuses⟩ :=
      chipReset_leaves (flushCounts (replyOk c t [])) 4 0
    refine ⟨_, exec_accepted (body := bodyChipReset) (fun _ _ => rfl) hacc, rfl, hstate, hlast, hdma, hreq, hses, hspdm, hqueues,
      hrings, hjobs, htime, hgraphs.trans ?_, hkeys.trans ?_, hfuses.trans ?_⟩ <;>
    rw [flushCounts_frame, replyOk_frame]
  case staged =>
    rintro c t ⟨hlen, hread, hwhole, hgood, hstay⟩
    rw [bodyFirmwareLoad_read hlen hread hwhole, hgood]
    exact if_neg (by omega)
  case stagedReset =>
    rintro c t ⟨hlen, hread, hwhole, hgood, hreset⟩
    rw [bodyFirmwareLoad_read hlen hread hwhole, hgood]
    exact if_pos hreset
  case refused =>
    rintro c t ⟨hlen, hread, hwhole, hbad⟩
    rw [bodyFirmwareLoad_read hlen hread hwhole, hbad]
    rfl

end Sys2Proof.Proofs
end

section
/-! Ports, weight servers and peers set by packets, and the pair formed or dissolved (R470, R473, R485). -/

namespace Sys2Proof.Proofs
open Sys2Proof Sys2Proof.Machine Sys2Proof.Safety Sys2Proof.Laws

/-! ### Ports, servers and peers (R470, R473) -/

/-- The peer a KV_PEER_REGISTER packet names (R470). -/
def packetPeer (c : Ctx) : KvPeer :=
  { capacity := c.par 4 4, address := BitVec.ofNat 128 (c.par 8 16), udp := BitVec.ofNat 16 (c.par 24 2) }

/-- A peer packet in range, with zeros where an Ethernet address is not used, is BUSY or taken (R470). -/
theorem bodyKvPeerRegister_range {c : Ctx} {t : State} (hport : c.par 0 1 ≤ 15) (hcode : c.par 1 1 ≤ 1)
    (hzero : (portGet t (c.par 0 1)).mode = 1 → c.par 8 16 = 0 ∧ c.par 24 2 = 0) : bodyKvPeerRegister c t =
      if peerUsed t (c.par 0 1) then reply c t .busy 0 []
      else if c.par 1 1 = 0 then replyOk c { t with kv := { t.kv with peers := sdel t.kv.peers (c.par 0 1) } } []
      else replyOk c { t with kv := { t.kv with peers := sput t.kv.peers (c.par 0 1) (packetPeer c) } } [] := by
  unfold bodyKvPeerRegister
  dsimp only
  rw [if_neg (by omega), if_neg (by omega), if_neg (fun h => h.2 (hzero h.1).1), if_neg (fun h => h.2 (hzero h.1).2)]
  rfl

/-- Settles O19: ranges come first, then what uses the port or slot. -/
theorem fabricPackets : Obligations.FabricPackets := by
  refine ⟨carries_of (body := bodyPortModeSet) (fun _ _ => rfl) ?mode, carries_of (body := bodyPortModeSet) (fun _ _ => rfl) ?modeBusy,
    carries_of (body := bodyWeightServerRegister) (fun _ _ => rfl) ?server,
    carries_of (body := bodyWeightServerRegister) (fun _ _ => rfl) ?serverBusy,
    carries_of (body := bodyKvPeerRegister) (fun _ _ => rfl) ?peer, carries_of (body := bodyKvPeerRegister) (fun _ _ => rfl) ?noPeer,
    carries_of (body := bodyKvPeerRegister) (fun _ _ => rfl) ?peerBusy,
    carries_of (body := bodyFabricStatusRead) (fun _ _ => rfl) fun _ _ _ => rfl⟩
  case mode =>
    rintro c t ⟨hport, hmode, hpair⟩
    unfold bodyPortModeSet
    rw [if_neg (by omega), if_neg (by omega), if_neg]
    · rfl
    · rintro ⟨hlt, hconf | hphase⟩
      · exact absurd hconf (by simp [(hpair hlt).1])
      · exact hphase (hpair hlt).2
  case modeBusy =>
    rintro c t ⟨hport, hmode, hpair⟩
    unfold bodyPortModeSet
    rw [if_neg (by omega), if_neg (by omega)]
    exact if_pos ⟨hport, hpair⟩
  case server =>
    rintro c t ⟨hslot, hport, hobject, hfree⟩
    unfold bodyWeightServerRegister
    rw [if_neg (by omega), if_neg (by omega), if_neg hobject, if_neg (by simp [hfree])]
  case serverBusy =>
    rintro c t ⟨hslot, hport, hobject, hused⟩
    unfold bodyWeightServerRegister
    rw [if_neg (by omega), if_neg (by omega), if_neg hobject]
    exact if_pos hused
  case peer =>
    rintro c t ⟨hport, hcode, hzero, hfree⟩
    rw [bodyKvPeerRegister_range hport (by omega) hzero, if_neg (by simp [hfree]), if_neg (by omega)]
    rfl
  case noPeer =>
    rintro c t ⟨hport, hcode, hzero, hfree⟩
    rw [bodyKvPeerRegister_range hport (by omega) hzero, if_neg (by simp [hfree]), if_pos hcode]
  case peerBusy =>
    rintro c t ⟨hport, hcode, hzero, hused⟩
    rw [bodyKvPeerRegister_range hport hcode hzero, if_pos hused]

/-! ### PAIR_CONFIGURE with pair (R485) -/

/-- The four pair ports in Hachate link mode. -/
def pairPortsSet (s : State) : State := [0, 1, 2, 3].foldl (fun u n => setPortMode u n 1) s

/-- A pairing that begins: its packet waits, and the partner's answer is looked for (R485). -/
def pairBegun (c : Ctx) (partner : PartnerInfo) (s : State) : State :=
  { pairPortsSet s with
    jobs := s.jobs ++ [⟨c.origin, .pair (BitVec.ofNat 256 (beNat (c.parBytes 4 32)))⟩]
    pair := { s.pair with phase := .establishing, partnerHash := BitVec.ofNat 256 (beNat (c.parBytes 4 32)),
                          partner := some partner, startedAt := hostTime s, building := false } }

/-- An unpaired module begins a pairing and tries it at once (R485). -/
theorem bodyPair_begun {c : Ctx} {partner : PartnerInfo} {t : State} (hphase : t.pair.phase = .unpaired) (hjob : pairJob t = false) :
    bodyPair { c with partner := some partner } t = tryPair (pairBegun c partner t) := by
  have hbytes : ({ c with partner := some partner } : Ctx).parBytes 4 32 = c.parBytes 4 32 := rfl
  unfold bodyPair
  rw [if_neg (by simp [hphase, hjob]), hbytes]
  dsimp only [pairBegun, pairPortsSet, startJob, List.foldl_cons, List.foldl_nil, setPortMode, portMod]

/-- A port of the pair after it is put in link mode: as it was in that mode, else training. -/
theorem pairPortsSet_port {s : State} {i : Nat} (h : i < 4) :
    (pairPortsSet s).ports[i]? = s.ports[i]?.map (fun p => if p.mode = 1 then p else portInMode 1) := by
  have hports : (pairPortsSet s).ports = [0, 1, 2, 3].foldl (fun l n => lmod l n (fun p => if p.mode = 1 then p else portInMode 1))
    s.ports := rfl
  rw [hports]
  simp only [List.foldl_cons, List.foldl_nil, lmod, List.getElem?_modify]
  have hi : i = 0 ∨ i = 1 ∨ i = 2 ∨ i = 3 := by omega
  rcases hi with rfl | rfl | rfl | rfl <;> simp

/-- Ports that are put in link mode train first: none of them is up. -/
theorem pairPortUp_begun {c : Ctx} {partner : PartnerInfo} {t : State} (h : ∀ i < 4, (portGet t i).mode ≠ 1) :
    pairPortUp (pairBegun c partner t) = false := by
  refine Bool.eq_false_iff.mpr fun hup => ?_
  obtain ⟨p, hp, hup⟩ := List.any_eq_true.mp hup
  obtain ⟨i, hi⟩ := List.mem_iff_getElem?.mp hp
  have hlt : i < 4 := by
    have := (List.getElem?_eq_some_iff.mp hi).1
    rw [List.length_take] at this
    omega
  have hport : (pairPortsSet t).ports[i]? = some p := by
    rw [List.getElem?_take] at hi
    rw [if_pos hlt] at hi
    exact hi
  rw [pairPortsSet_port hlt] at hport
  obtain ⟨q, hq, rfl⟩ := Option.map_eq_some_iff.mp hport
  have hmode : q.mode ≠ 1 := by
    have := h i hlt
    rwa [portGet, lgetD, hq, Option.getD_some] at this
  rw [if_neg hmode] at hup
  simp [portInMode, portUp] at hup

/-! ### PAIR_CONFIGURE with unpair (R470) -/

/-- A pairing that ends leaves no pair; its packet is answered. -/
theorem pairRefused_leaves (s : State) (st : Status) :
    (pairRefused s st).pair = { s.pair with phase := .unpaired, configured := false, building := false } := by
  unfold pairRefused
  rw [finishJobs_frame]
  rfl

/-- A module that is unpaired: no pair, no mirrored request, what waited for the partner written (R470). -/
def unpaired (s : State) : State :=
  let s1 := pairRefused s .busy
  let s2 := { s1 with requests := s1.requests.filter (fun e => !e.2.mirrored)
                      pair := { s1.pair with partner := none, unacked := [], partnerDormant := false } }
  (s2.requests.map (·.1)).foldl flushAwaiting s2

theorem unpaired_leaves (s : State) : (unpaired s).pair.phase = .unpaired ∧ (unpaired s).pair.configured = false ∧
    ∀ e ∈ (unpaired s).requests, e.2.mirrored = false := by
  unfold unpaired
  extract_lets s1 pair s2
  obtain ⟨hsame, hends⟩ := Ending.foldl flushAwaiting_ending (s2.requests.map (·.1)) s2
  have hpair := congrArg State.pair hsame
  have hs1 : s1.pair = { s.pair with phase := .unpaired, configured := false, building := false } := pairRefused_leaves s .busy
  refine ⟨?_, ?_, fun e he => ?_⟩
  · rw [hpair]
    exact congrArg Pair.phase hs1
  · rw [hpair]
    exact congrArg Pair.configured hs1
  · obtain ⟨r, hr, _, hmir⟩ := hends.requests e he
    have hown := (List.mem_filter.mp hr).2
    rw [← hmir]
    simpa using hown

/-- An accepted PAIR_CONFIGURE reaches its work with the partner's answer. -/
theorem exec_pairConfigurePair {p : Pkt} {partner : PartnerInfo} {s t : State} {c : Ctx}
    (h : Accepted 0x0802 (stampPkt 0 1 p) s c t) :
    exec (.pairConfigurePair p partner) s = .next (bodyPair { c with partner := some partner } t) :=
  congrArg _ (packetRow_accepted h (fun c => { c with partner := some partner }) bodyPair (fun _ => rfl) (fun _ => rfl)
    (fun _ _ => rfl))

/-- Settles O20: a pairing waits for a port that is up; unpairing forces a build for one module. -/
theorem pairPackets : Obligations.PairPackets := by
  refine ⟨fun p s c t partner hacc hphase hjob hports => ?waits, fun p s c t partner hacc hphase hjob => ?tried,
    fun p s c t partner hacc hphase => ?busy, fun p s c t hacc hphase => ?unpair, fun p s c t hacc hphase => ?none⟩
  case waits =>
    rw [exec_pairConfigurePair hacc, bodyPair_begun hphase hjob]
    have hdown := pairPortUp_begun (c := c) (partner := partner) hports
    refine congrArg _ ?_
    unfold tryPair
    exact if_pos (.inr (.inr (.inl (by rw [hdown]; rfl))))
  case tried =>
    rw [exec_pairConfigurePair hacc, bodyPair_begun hphase hjob]
    rfl
  case busy =>
    rw [exec_pairConfigurePair hacc]
    exact congrArg _ (if_pos (.inl hphase))
  case unpair =>
    obtain ⟨hp, hc, hm⟩ := unpaired_leaves t
    refine ⟨forceBuild (unpaired t) .pair, ?_, hp, hc, hm, mem_forceBuild_queued _ _⟩
    rw [exec_stamped (body := bodyUnpair) rfl hacc]
    exact congrArg _ (if_neg hphase)
  case none =>
    rw [exec_stamped (body := bodyUnpair) rfl hacc]
    exact congrArg _ (if_pos hphase)

end Sys2Proof.Proofs
end

section
/-! Management messages: the Lodge's settings, records on their routes, and packets it carries (R508, R522 to R525, R529, R595). -/

namespace Sys2Proof.Proofs
open Sys2Proof Sys2Proof.Machine Sys2Proof.Safety Sys2Proof.Laws

/-! ### Where a management message gets (R523) -/

/-- A message outside any SPDM session with the Lodge is a violation of the internal sources (R523, R556). -/
theorem mgmtRow_outside {command : Nat} {m : Mgmt} {s : State} {work : Nat → State → State} (halive : s.lodge.alive = true)
    (hspdm : m.spdm = none) : mgmtRow command m s work = violation s 64 := by
  unfold mgmtRow
  rw [if_neg (by simp [halive]), hspdm]

/-- A message that reaches its command is worked on (R524). -/
theorem mgmtRow_inside {command : Nat} {m : Mgmt} {s : State} {id : Nat} {work : Nat → State → State} (h : Inside m s id) :
    mgmtRow command m s work = work id s := by
  obtain ⟨halive, hspdm, hsession, hflags⟩ := h
  unfold mgmtRow
  rw [if_neg (by simp [halive]), hspdm]
  dsimp only
  rw [if_neg (by simpa [Option.isSome_iff_ne_none] using hsession), if_neg (by rw [hflags]; decide), if_neg (not_not.mpr hflags)]

/-- A command the Lodge answers at once, for a message that reaches it. -/
theorem mgmtAnswer_inside {command : Nat} {m : Mgmt} {s : State} {id : Nat} {work : State → State × Status × Bytes}
    (h : Inside m s id) : mgmtAnswer command m s work = mgmtRespond (work s).1 id m.sequence command (work s).2.1 (work s).2.2 :=
  mgmtRow_inside h

/-- What a command's work gives is what the message is answered with. -/
theorem exec_answer {i : Instr} {command : Nat} {m : Mgmt} {s t : State} {id : Nat} {work : State → State × Status × Bytes}
    {st : Status} {b : Bytes} (he : exec i s = .next (mgmtAnswer command m s work)) (h : Inside m s id) (hw : work s = (t, st, b)) :
    exec i s = .next (mgmtRespond t id m.sequence command st b) := by
  rw [he, mgmtAnswer_inside h, hw]

/-- Settles O21: the row's first check discards the message, whichever command it carries. -/
theorem managementOutsideASessionIsDiscarded : Obligations.ManagementOutsideASessionIsDiscarded := by
  intro m s halive hspdm i hi
  have hrow : ∀ {command : Nat} {work : Nat → State → State}, mgmtRow command m s work = violation s 64 :=
    mgmtRow_outside halive hspdm
  have hcontrol : ∀ {work : State → State}, powerControl m s work = violation s 64 := by
    intro work
    unfold powerControl mgmtAnswer
    exact hrow
  have hdiscard : messageDiscarded s = violation s 64 := if_pos halive
  simp only [List.mem_cons, List.not_mem_nil, or_false] at hi
  rcases hi with rfl | rfl | rfl | rfl | rfl | rfl | rfl | rfl | rfl | rfl | rfl | rfl | rfl | rfl | rfl
  case inr.inr.inr.inr.inr.inr.inr.inr.inr.inr.inr.inr.inr.inr => exact congrArg _ hdiscard
  case inr.inr.inr.inr.inr.inr.inr.inr.inr.inr.inr.inl => exact congrArg _ hcontrol
  case inr.inr.inr.inr.inr.inr.inr.inr.inr.inr.inr.inr.inl => exact congrArg _ hcontrol
  case inr.inr.inr.inr.inr.inr.inr.inr.inr.inr.inr.inr.inr.inl => exact congrArg _ hcontrol
  all_goals exact congrArg _ hrow

/-! ### Settings (R508, R522, R564, R580) -/

/-- Settles O22: each setting is taken in its range and refused outside it. -/
theorem managementSettings : Obligations.ManagementSettings := by
  intro m s id h
  refine ⟨fun htarget hmin hmax => exec_answer rfl h ?_, fun hout => exec_answer rfl h ?_, exec_answer rfl h rfl,
    fun hmin hmax hstep => exec_answer rfl h ?_, fun hout => exec_answer rfl h ?_, fun hmin hmax => exec_answer rfl h ?_,
    fun hout => exec_answer rfl h ?_, fun hzero => exec_answer rfl h ?_, fun haddress => exec_answer rfl h ?_, exec_answer rfl h rfl⟩
  · exact if_neg (by omega)
  · exact if_pos hout
  · exact if_neg (by omega)
  · exact if_pos hout
  · exact if_neg (by omega)
  · exact if_pos hout
  · exact if_pos hzero
  · exact if_neg haddress

/-! ### Records on their routes (R522, R595) -/

/-- Settles O26: each event does its work while the Lodge runs and the route is open. -/
theorem recordsOnTheirRoutes : Obligations.RecordsOnTheirRoutes := by
  intro s
  refine ⟨fun halive hreceiver q => ?_, fun halive e => ?_, fun halive hcollector => ?_, fun hpower a => ?_⟩
  · exact congrArg _ (if_pos ⟨halive, Option.isSome_iff_ne_none.mpr hreceiver⟩)
  · exact congrArg _ (if_pos halive)
  · exact congrArg _ (if_pos ⟨halive, Option.isSome_iff_ne_none.mpr hcollector⟩)
  · exact congrArg _ (if_neg hpower)

/-! ### A packet the Lodge carries (R525, R529) -/

/-- A packet that is neither long nor one Dormant answers BUSY is carried out. -/
theorem carryPacket_probeRemove {c : Ctx} {s t : State} {row : OpRow} (hop : c.origin.opcode = 0x050A) (hrow : opRow 0x050A = some row)
    (hjudge : judgePacket s row c = (t, none)) :
    carryPacket c s bodyCarried = bodyProbeRemove { c with session := hdrSession c.chain } t := by
  have hrow' : row = { opcode := 0x050A, critical := true, pfOnly := true, params := [(0, 2)] } := Option.some.inj hrow.symm
  unfold carryPacket
  rw [hop, hrow]
  dsimp only
  rw [hjudge]
  dsimp only
  subst hrow'
  unfold admitPacket
  rw [if_neg (by simp), if_neg (by simp [waitsForDies]), if_neg (by simp [busyInDormant])]
  unfold bodyCarried
  dsimp only
  rw [hop, if_neg (by decide), if_pos rfl]

/-- Settles O25: the carried packet is checked as any other and answered in the response's payload. -/
theorem packetCarriedByTheLodge : Obligations.PacketCarriedByTheLodge := by
  intro m s id h
  have hexec : exec (.packet m) s = .next (packetCarried m id s) := congrArg _ (mgmtRow_inside h)
  refine ⟨fun hstate => ?stopped, fun row t c hc hstate hhung hlen hop hrow hjudge hthere => ?carried⟩
  case stopped =>
    rw [hexec]
    exact congrArg _ (if_pos (by simp [isRunning, hstate]))
  case carried =>
    have hpad : padTo (128 * hdrUnits m.payload) m.payload = m.payload := by
      rw [← hlen]
      simp [padTo]
    have hdrop : m.payload.drop (128 * hdrUnits m.payload) = [] := List.drop_eq_nil_of_le hlen.le
    have hbody : packetCarried m id s = carryPacket c s bodyCarried := by
      unfold packetCarried
      rw [if_neg (by simp [isRunning, hstate]), if_neg (by simp [hhung])]
      dsimp only
      rw [hpad, hdrop, hop, hc]
    rw [hexec, hbody, carryPacket_probeRemove (by rw [hc]) hrow hjudge]
    subst hc
    obtain ⟨x, hx, hnumber⟩ := hthere
    exact congrArg _ (if_pos (List.any_eq_true.mpr ⟨x, hx, decide_eq_true hnumber⟩))

end Sys2Proof.Proofs
end

section
/-! The owner key, the erase, debug unlock and power control by management messages (R525, R537, R557, R583, R600, R611). -/

namespace Sys2Proof.Proofs
open Sys2Proof Sys2Proof.Machine Sys2Proof.Safety Sys2Proof.Laws

/-! ### What an erase leaves of the arrays (R600, R611) -/

/-- An array after an erase: empty, or, while it is being programmed, to be erased when that has ended (R611). -/
def IsErased (a : OrArray) : Prop :=
  (a.program ≠ none → a.eraseAfter = true) ∧
  (a.program = none → a.levels = [] ∧ a.active = none ∧ a.owner = 0 ∧
    (a.state = .erased ∨ a.state = .quarantined ∨ a.state = .retired))

theorem erasedArray_isErased (a : OrArray) : IsErased (erasedArray a) := by
  unfold erasedArray
  split
  · rename_i h
    exact ⟨fun _ => rfl, fun hnone => absurd hnone (Option.isSome_iff_ne_none.mp h)⟩
  · refine ⟨fun h => absurd rfl h, fun _ => ⟨rfl, rfl, rfl, ?_⟩⟩
    cases a.state <;> simp

theorem default_isErased : IsErased ({} : OrArray) := ⟨fun h => absurd rfl h, fun _ => ⟨rfl, rfl, rfl, .inl rfl⟩⟩

/-- The array read under a number, listed or not, is erased if all the listed ones are. -/
theorem arrGet_isErased {s : State} (h : ∀ e ∈ s.arrays, IsErased e.2) (n : Nat) : IsErased (arrGet s n) := by
  unfold arrGet sgetD
  cases hget : sget s.arrays n with
  | none => exact default_isErased
  | some a => exact h _ (mem_of_sget hget)

/-- Arrays that become wear-limited stay erased. -/
theorem wearLimited_isErased (l : List Nat) {s : State} (h : ∀ e ∈ s.arrays, IsErased e.2) :
    ∀ e ∈ (l.foldl (fun t a => arrMod t a (fun x => { x with wearLimited := true })) s).arrays, IsErased e.2 := by
  induction l generalizing s with
  | nil => exact h
  | cons n l ih =>
    refine ih fun e he => ?_
    rcases mem_sput he with rfl | he
    · exact arrGet_isErased h n
    · exact h e he

/-! ### What the reports of an erase's wear change (R64) -/

/-- What a report of severity below 3 leaves: all but what records change, and the flash log (R521). -/
structure SameButNotice (s t : State) : Prop where
  same : SameButRecord s t
  flashLog : t.lodge.flashLog = s.lodge.flashLog

theorem SameButNotice.refl (s : State) : SameButNotice s s := ⟨rfl, rfl⟩

theorem SameButNotice.trans {s t u : State} (a : SameButNotice s t) (b : SameButNotice t u) : SameButNotice s u :=
  ⟨a.same.trans b.same, b.flashLog.trans a.flashLog⟩

theorem signal_lodge (s : State) (fn v : Nat) : (signal s fn v).lodge = s.lodge := rfl

theorem fnSet_lodge (s : State) (n : Nat) (f : FnState) : (fnSet s n f).lodge = s.lodge := rfl

theorem hostWrite_lodge (s : State) (a : Nat) (b : Bytes) : (hostWrite s a b).lodge = s.lodge := rfl

theorem eventWrite_lodge (s : State) (fn : Nat) (r : ErrorRecord) : (eventWrite s fn r).lodge = s.lodge := by
  unfold eventWrite
  dsimp only
  split
  · rw [signal_lodge, fnSet_lodge, hostWrite_lodge, hostWrite_lodge]
  · exact fnSet_lodge _ _ _

theorem eventPost_lodge (s : State) (fn : Nat) (r : ErrorRecord) : (eventPost s fn r).lodge = s.lodge := by
  unfold eventPost
  dsimp only
  split
  · rfl
  · split
    · rfl
    · exact eventWrite_lodge s fn r

/-- A record of severity below 3 is not logged in flash (R521). -/
theorem emitRecord_notice {s : State} {r : ErrorRecord} (h : r.severity < 3) : SameButNotice s (emitRecord s r) := by
  refine ⟨emitRecord_frame s r, ?_⟩
  have hpost : ∀ t : State, t.lodge = s.lodge → (lodgeTake t r).lodge.flashLog = s.lodge.flashLog := by
    intro t ht
    unfold lodgeTake
    split
    · dsimp only
      rw [if_neg (by omega), ht]
    · rw [ht]
  unfold emitRecord
  refine hpost _ ?_
  dsimp only
  split
  · split
    · rw [eventPost_lodge, eventPost_lodge]
    · exact eventPost_lodge s 0 r
  · rfl

/-- An event of severity below 3 that is reported. -/
theorem report_notice (s : State) (kind : Nat) {severity : Nat} (uid : Word) (detail : Bytes) (h : severity < 3) :
    SameButNotice s (report s kind severity uid detail) := by
  unfold report reportOf
  dsimp only
  split
  · exact .trans (t := setCount s _) ⟨rfl, rfl⟩ (emitRecord_notice h)
  · split
    · exact .trans (t := setCount s _) ⟨rfl, rfl⟩ (emitRecord_notice h)
    · exact ⟨rfl, rfl⟩

theorem reportWear_notice (s : State) (a : Nat) : SameButNotice s (reportWear s a) := by
  unfold reportWear
  split
  · exact report_notice s _ _ _ (by omega)
  · exact .refl s

theorem foldl_reportWear_notice (l : List Nat) (s : State) : SameButNotice s (l.foldl reportWear s) := by
  induction l generalizing s with
  | nil => exact .refl s
  | cons a l ih => exact (reportWear_notice s a).trans (ih _)

/-- Arrays that become wear-limited are all that changes then. -/
theorem foldl_wearLimited_eq (l : List Nat) (s : State) :
    l.foldl (fun t a => arrMod t a (fun x => { x with wearLimited := true })) s =
      { s with arrays := (l.foldl (fun t a => arrMod t a (fun x => { x with wearLimited := true })) s).arrays } := by
  induction l generalizing s with
  | nil => rfl
  | cons a l ih => exact ih _

/-- The engine once an erase has emptied its arrays, before the counts of R64 are looked at (R600). -/
def arraysErased (s : State) : State :=
  { s with
    erases := s.erases + 1
    arrays := smapAll s.arrays (fun _ a => erasedArray a)
    sites := smapAll s.sites (fun _ x => { x with activity := (match x.activity with
      | .diagnosing b => .diagnosing b | .programming a => .programming a | _ => .none) })
    lodge := { s.lodge with flashLog := [] } }

/-- Calibrations asked for are refused after an erase. -/
def eraseAnswer (j : Job) : Option (Status × Nat × Bytes) :=
  match j.work with
  | .arrayCal _ _ => some (.invalid, parDetail 0, [])
  | _ => none

/-- What the wear of an erase leaves of a state: arrays that are erased stay so, and the rest is as it was but for records. -/
theorem eraseWears_leaves {s : State} (h : ∀ e ∈ s.arrays, IsErased e.2) : (∀ e ∈ (eraseWears s).arrays, IsErased e.2) ∧
    (eraseWears s).erases = s.erases ∧ (eraseWears s).lodge.flashLog = s.lodge.flashLog ∧
    (eraseWears s).requests = s.requests ∧ (eraseWears s).objects = s.objects := by
  have hnotice := foldl_reportWear_notice (wornTo s 90000) s
  have harrays : ∀ e ∈ ((wornTo s 90000).foldl reportWear s).arrays, IsErased e.2 := by
    rw [hnotice.same]
    exact h
  unfold eraseWears
  dsimp only
  refine ⟨wearLimited_isErased _ harrays, ?_, ?_, ?_, ?_⟩ <;> rw [foldl_wearLimited_eq] <;> dsimp only
  · rw [hnotice.same]
  · exact hnotice.flashLog
  · rw [hnotice.same]
  · rw [hnotice.same]

/-- An erase keeps what wear the array counts itself. -/
theorem erasedArray_wear (a : OrArray) : (erasedArray a).wear = a.wear := by
  unfold erasedArray
  split <;> rfl

/-- An erase wears each array by one (R64). -/
theorem wearOf_arraysErased (s : State) (n : Nat) : wearOf (arraysErased s) n ≤ wearOf s n + 1 := by
  have hwear : (arrGet (arraysErased s) n).wear = (arrGet s n).wear := by
    have hget : ∀ m : Store OrArray, (sgetD (smapAll m (fun _ a => erasedArray a)) n {}).wear = (sgetD m n {}).wear := by
      intro m
      induction m with
      | nil => rfl
      | cons e m ih =>
        obtain ⟨k, a⟩ := e
        unfold sgetD smapAll at *
        rw [List.map_cons, sget, sget]
        split
        · exact erasedArray_wear a
        · exact ih
    exact hget s.arrays
  unfold wearOf
  rw [hwear, show (arraysErased s).erases = s.erases + 1 from rfl]
  omega

/-- No array that an erase leaves below the counts of R64 is looked at. -/
theorem wornTo_nil {s : State} {n : Nat} (h : ∀ a, wearOf s a < n) : wornTo s n = [] :=
  List.filter_eq_nil_iff.mpr fun a _ => by
    rw [decide_eq_true_eq]
    exact (h a).ne

theorem eraseWears_below {s : State} (h : ∀ a, wearOf s a < 90000) : eraseWears s = s := by
  unfold eraseWears
  dsimp only
  rw [wornTo_nil h, List.foldl_nil, wornTo_nil fun a => (h a).trans (by omega), List.foldl_nil]

/-- An erase that is allowed (R600). -/
theorem eraseWork_allowed {s : State} (h : s.boot.state = .waiting ∨ (s.boot.state = .running ∧ s.graphs = [])) :
    eraseWork s = (finishJobs (eraseWears (arraysErased s)) eraseAnswer, .ok, []) := by
  refine if_neg ?_
  rcases h with h | ⟨h, hg⟩
  · simp [h]
  · simp [isRunning, h, hg]

/-- What an allowed erase leaves (R600, R611). -/
theorem erase_leaves (s : State) : let u := finishJobs (eraseWears (arraysErased s)) eraseAnswer
    u.erases = s.erases + 1 ∧ u.lodge.flashLog = [] ∧ ((∀ n, wearOf s n + 1 < 90000) → u.arrays.map (·.1) = s.arrays.map (·.1)) ∧
    (∀ e ∈ u.arrays, IsErased e.2) ∧ u.requests = s.requests ∧ u.objects = s.objects := by
  have herased : ∀ e ∈ (arraysErased s).arrays, IsErased e.2 := by
    intro e he
    dsimp only [arraysErased] at he
    obtain ⟨a, _, hv⟩ := mem_smapAll he
    rw [hv]
    exact erasedArray_isErased a
  obtain ⟨harrays, herases, hlog, hreq, hobj⟩ := eraseWears_leaves herased
  intro u
  dsimp only [u]
  rw [finishJobs_frame]
  refine ⟨herases, hlog, fun hlow => ?_, harrays, hreq, hobj⟩
  have hbelow : eraseWears (arraysErased s) = arraysErased s :=
    eraseWears_below fun a => (wearOf_arraysErased s a).trans_lt (hlow a)
  dsimp only
  rw [hbelow]
  exact (List.map_map).trans rfl

/-! ### OWNER_KEY_FUSE, DEBUG_NONCE and DEBUG_UNLOCK (R537, R557) -/

/-- Whether debug unlock can be granted, by the fuses (R557). -/
theorem debugEligible_iff {s : State} : debugEligible s = true ↔ s.fuses.variant = 2 ∧ s.fuses.debugDisabled = false := by
  simp [debugEligible, Fin.ext_iff]

/-- A payload of 64 bytes is taken whole. -/
theorem padTo_64 {b : Bytes} (h : b.length = 64) : padTo 64 b = b := by simp [padTo, h]

/-- Settles O23: each command's conditions come first; the erase leaves no array but erased ones and those still programmed. -/
theorem managementSecurity : Obligations.ManagementSecurity := by
  intro m s id h
  refine ⟨fun hup hwaiting hzero hlen hcurve => exec_answer rfl h ?point, fun hup hwaiting hzero hlen hcurve => exec_answer rfl h ?fused,
    fun hbusy => exec_answer rfl h ?ownerBusy, fun hallowed => ?erase, fun hnot hgraphs => exec_answer rfl h ?eraseBusy,
    fun hvariant henabled => ?nonce, fun hnot => exec_answer rfl h ?noNonce,
    fun n hn hlen hvariant henabled htoken => exec_answer rfl h ?unlock, fun n hn hlen hnot => exec_answer rfl h ?refused,
    fun hnone => exec_answer rfl h ?unasked⟩
  case point =>
    unfold ownerKeyWork
    dsimp only
    rw [padTo_64 hlen, if_neg (by simp [hup, hwaiting, hzero]), if_pos (by simp [hcurve])]
  case fused =>
    unfold ownerKeyWork
    dsimp only
    rw [padTo_64 hlen, if_neg (by simp [hup, hwaiting, hzero]), if_neg (by simp [hcurve])]
  case ownerBusy => exact if_pos (.inr hbusy)
  case erase =>
    obtain ⟨herases, hlog, hkeys, harrays, hreq, hobj⟩ := erase_leaves s
    exact ⟨_, exec_answer rfl h (eraseWork_allowed hallowed), herases, hlog, hkeys, harrays, hreq, hobj⟩
  case eraseBusy =>
    refine if_pos ?_
    have hor : ¬(s.boot.state = .waiting ∨ (s.boot.state = .running ∧ s.graphs = [])) := by tauto
    simpa [isRunning, imp_iff_not_or] using hor
  case nonce =>
    refine ⟨(List.range 32).map (fun i => Config.freeByte (s.freeIdx + i)), by simp, exec_answer rfl h ?_⟩
    exact if_pos (debugEligible_iff.mpr ⟨hvariant, henabled⟩)
  case noNonce =>
    refine if_neg fun he => ?_
    obtain ⟨hvariant, henabled⟩ := debugEligible_iff.mp he
    rcases hnot with hnot | hnot
    · exact hnot hvariant
    · rw [hnot] at henabled
      cases henabled
  case unlock =>
    unfold debugUnlockWork
    rw [hn]
    dsimp only
    rw [padTo_64 hlen, if_pos ⟨debugEligible_iff.mpr ⟨hvariant, henabled⟩, htoken⟩]
  case refused =>
    unfold debugUnlockWork
    rw [hn]
    dsimp only
    rw [padTo_64 hlen, if_neg]
    rintro ⟨he, htoken⟩
    obtain ⟨hvariant, henabled⟩ := debugEligible_iff.mp he
    rcases hnot with hnot | hnot | hnot
    · exact hnot hvariant
    · rw [hnot] at henabled
      cases henabled
    · rw [hnot] at htoken
      cases htoken
  case unasked =>
    unfold debugUnlockWork
    rw [hnone]

/-! ### POWER_CONTROL (R525, R583, R585) -/

theorem flushCounts_fuses (s : State) : (flushCounts s).fuses = s.fuses := by rw [flushCounts_frame]

theorem flushCounts_now (s : State) : (flushCounts s).now = s.now := by rw [flushCounts_frame]

/-- What rails that are turned off leave (R565, R587). -/
theorem railsOff_leaves (s : State) (why : Nat) : (railsOff s why).power.railsOn = false ∧ (railsOff s why).power.state = .standby ∧
    (railsOff s why).power.offReason = why ∧ (railsOff s why).boot.sequence = .waitRails ∧ (railsOff s why).requests = [] ∧
    (railsOff s why).graphs = [] ∧ (railsOff s why).fuses = s.fuses := by
  unfold railsOff
  dsimp only
  split
  · exact ⟨rfl, rfl, rfl, rfl, rfl, rfl, flushCounts_fuses s⟩
  · rw [report_frame]
    exact ⟨rfl, rfl, rfl, rfl, rfl, rfl, flushCounts_fuses s⟩

/-- A module reset begins power-up at event B (R585, R587). -/
theorem moduleReset_resetFrom (s : State) (last : Nat) : ResetFrom s (moduleReset s last) last := by
  exact ⟨rfl, rfl, rfl, rfl, rfl, rfl, rfl, rfl, rfl, rfl, rfl, rfl, rfl, rfl, rfl, flushCounts_fuses s, flushCounts_now s⟩

/-- What a commanded power-up from off rails leaves (R583). -/
theorem commandPowerUp_off {s : State} (h : s.power.railsOn = false) : (commandPowerUp s).boot.sequence = .waitRails ∧
    (commandPowerUp s).boot.lastReset = 1 ∧ (commandPowerUp s).power.offReason = 0 ∧ (commandPowerUp s).thermal.shutdowns = [] ∧
    (commandPowerUp s).thermal.holdOff = false ∧ (commandPowerUp s).fuses = s.fuses := by
  unfold commandPowerUp
  rw [if_neg (by simp [h])]
  exact ⟨rfl, rfl, rfl, rfl, rfl, flushCounts_fuses s⟩

/-- Settles O24: outside a reset each command does its work and is answered OK. -/
theorem powerControl : Obligations.PowerControl := by
  intro m s id h
  refine ⟨fun hreset i hi => ?busy, fun hfree => ⟨fun hon => ?off, fun hoff => ?stays, fun hon => ?upOn, fun hoff => ?upOff, ?reset⟩⟩
  case busy =>
    simp only [List.mem_cons, List.not_mem_nil, or_false] at hi
    rcases hi with rfl | rfl | rfl <;> exact exec_answer rfl h (if_pos hreset)
  all_goals
    have hanswer : ∀ work : State → State, (if resetInProgress s then (s, Status.busy, ([] : Bytes)) else (work s, .ok, [])) =
        (work s, .ok, []) := fun work => if_neg (by simp [hfree])
  case off =>
    refine ⟨railsOff s 3, exec_answer rfl h ?_, railsOff_leaves s 3⟩
    exact (hanswer commandRailsOff).trans (congrArg (·, _) (if_pos hon))
  case stays =>
    refine exec_answer rfl h ((hanswer commandRailsOff).trans (congrArg (·, _) (if_neg (by simp [hoff]))))
  case upOn =>
    refine ⟨moduleReset s 1, exec_answer rfl h ?_, moduleReset_resetFrom s 1⟩
    exact (hanswer commandPowerUp).trans (congrArg (·, _) (if_pos hon))
  case upOff => exact ⟨commandPowerUp s, exec_answer rfl h (hanswer commandPowerUp), commandPowerUp_off hoff⟩
  case reset => exact ⟨moduleReset s 1, exec_answer rfl h (hanswer (moduleReset · 1)), moduleReset_resetFrom s 1⟩

end Sys2Proof.Proofs
end

section
/-! Images the Lodge receives, the reset control and the boot mailbox, the supplies, power-up, boot, the watchdogs and recovery
(R420, R421, R423, R424, R438–R440, R511–R515, R535, R539–R547, R562, R565, R584, R588). -/

namespace Sys2Proof.Proofs
open Sys2Proof Sys2Proof.Machine Sys2Proof.Safety Sys2Proof.Laws

/-! ### The fatal state (R423, R424) -/

/-- Entering the fatal state sets FATAL and what it signals; nothing else changes. -/
theorem enterFatal_frame (s : State) (cause : Nat) (uid : Word) : enterFatal s cause uid = { s with
    boot := (enterFatal s cause uid).boot, pair := (enterFatal s cause uid).pair, fns := (enterFatal s cause uid).fns } := by
  unfold enterFatal
  dsimp only
  split <;> rfl

/-- FATAL as it is written when the fatal state is entered. -/
theorem enterFatal_boot (s : State) (cause : Nat) (uid : Word) : (enterFatal s cause uid).boot = { s.boot with
    fatal := true, fatalCause := cause, fatalUid := uid, dmaStopped := true, aerReports := s.boot.aerReports + 1,
    fatalCount := if s.boot.fatal then s.boot.fatalCount else satSucc 65535 s.boot.fatalCount } := by
  unfold enterFatal
  dsimp only
  split <;> rfl

theorem report_boot (s : State) (k v : Nat) (u : Word) (d : Bytes) : (report s k v u d).boot = s.boot := by rw [report_frame]

theorem report_power (s : State) (k v : Nat) (u : Word) (d : Bytes) : (report s k v u d).power = s.power := by rw [report_frame]

theorem report_lanes (s : State) (k v : Nat) (u : Word) (d : Bytes) : (report s k v u d).lanes = s.lanes := by rw [report_frame]

theorem report_thermal (s : State) (k v : Nat) (u : Word) (d : Bytes) : (report s k v u d).thermal = s.thermal := by
  rw [report_frame]

/-- Whether the Lodge is alive is no record's to change. -/
theorem emitRecord_alive (s : State) (r : ErrorRecord) : (emitRecord s r).lodge.alive = s.lodge.alive := by
  have htake : ∀ t : State, (lodgeTake t r).lodge.alive = t.lodge.alive := by
    intro t
    unfold lodgeTake
    split
    · rfl
    · rfl
  unfold emitRecord
  refine (htake _).trans ?_
  dsimp only
  split
  · split
    · rw [eventPost_lodge, eventPost_lodge]
    · rw [eventPost_lodge]
  · rfl

theorem report_alive (s : State) (k v : Nat) (u : Word) (d : Bytes) : (report s k v u d).lodge.alive = s.lodge.alive := by
  unfold report reportOf
  dsimp only
  split
  · exact emitRecord_alive (setCount s _) _
  · split
    · exact emitRecord_alive (setCount s _) _
    · rfl

/-- Steps that are stopped leave no lane in one. -/
theorem stopSteps_lanes (s : State) : ∀ e ∈ (stopSteps s).lanes, e.2.step = none := by
  intro e he
  dsimp only [stopSteps] at he
  obtain ⟨l, _, hv⟩ := mem_smapAll he
  rw [hv]

/-! ### Delivered images (R439, R440, R542, R546, R547) -/

/-- A delivered bundle that passes R539 starts. -/
theorem judgeDelivery_passes {s : State} {b : Bytes} (h : judgeBundle s.fuses bundleKinds b = none) :
    judgeDelivery s b = { s with boot := { s.boot with state := .starting, mbxStatus := 3, accepted := some b } } := by
  unfold judgeDelivery
  rw [h]

/-- A delivered bundle that fails leaves the boot ROM waiting, with FATAL cause 6. -/
theorem judgeDelivery_fails {s : State} {b : Bytes} {n o : Nat} (h : judgeBundle s.fuses bundleKinds b = some (n, o)) :
    judgeDelivery s b = enterFatal { s with boot := { s.boot with state := .waiting, mbxStatus := n } } 6 0 := by
  unfold judgeDelivery
  rw [h]

/-- What such a failure leaves of the boot state. -/
theorem judgeDelivery_fails_boot {s : State} {b : Bytes} {n o : Nat} (h : judgeBundle s.fuses bundleKinds b = some (n, o)) :
    (judgeDelivery s b).boot.state = .waiting ∧ (judgeDelivery s b).boot.source = s.boot.source ∧
    (judgeDelivery s b).boot.mbxStatus = n ∧ (judgeDelivery s b).boot.fatal = true ∧ (judgeDelivery s b).boot.fatalCause = 6 := by
  rw [judgeDelivery_fails h, enterFatal_boot]
  exact ⟨rfl, rfl, rfl, rfl, rfl⟩

/-- A delivery inside a session with the Lodge while the boot ROM waits is judged. -/
theorem lodgeDelivers_judged {s : State} {id : Nat} {b : Bytes} (halive : s.lodge.alive = true)
    (hsession : (lodgeSession s id).isSome = true) (hup : s.boot.sequence = .released ∨ s.boot.sequence = .up)
    (hwaiting : s.boot.state = .waiting) :
    lodgeDelivers (some id) b s = judgeDelivery { s with boot := { s.boot with source := 2 } } b :=
  if_pos ⟨halive, hsession, decide_eq_true hup, hwaiting⟩

/-- Settles O28: a delivery is judged, a Lodge image written, a recovery image taken when the Lodge needs one. -/
theorem imagesTheLodgeReceives : Obligations.ImagesTheLodgeReceives := by
  intro s id b
  refine ⟨fun halive hsession hup hwaiting n o hbad => ?fails, fun halive hsession hup hwaiting hgood => ?passes, ?outside,
    fun halive hsession cut => congrArg Host.Outcome.next (if_pos ⟨halive, hsession⟩), fun hwaits hgood => ?recovers, fun hbad => ?refused⟩
  case fails =>
    exact ⟨_, congrArg Host.Outcome.next (lodgeDelivers_judged halive hsession hup hwaiting),
      judgeDelivery_fails_boot (s := { s with boot := { s.boot with source := 2 } }) hbad⟩
  case passes =>
    exact congrArg Host.Outcome.next ((lodgeDelivers_judged halive hsession hup hwaiting).trans (judgeDelivery_passes (by exact hgood)))
  case outside => exact congrArg Host.Outcome.next (if_neg (by simp))
  case recovers =>
    refine ⟨_, congrArg Host.Outcome.next (if_pos ⟨?_, by rw [hgood]; rfl⟩), rfl, rfl, rfl, flushCounts_fuses s⟩
    rcases hwaits with h | ⟨halive, hon, hrom⟩
    · simp [h]
    · simp [halive, hon, hrom]
  case refused => exact congrArg Host.Outcome.next (if_neg fun h => hbad (Option.isNone_iff_eq_none.mp h.2))

/-! ### RESET_CTL and MBX_CTL (R420, R421, R438, R439) -/

/-- A write of RESET_CTL the physical function makes. -/
theorem exec_resetCtl {s : State} {v : Word} (h : reachable s 0 = true) :
    exec (.resetCtl 0 v) s = .next (writeResetCtl v.toNat s) := congrArg Host.Outcome.next (if_pos h)

/-- A write of MBX_CTL the physical function makes. -/
theorem exec_mbxCtlLoad {s : State} {v : Word} (h : reachable s 0 = true) :
    exec (.mbxCtlLoad 0 v) s = .next (writeMbxCtl v.toNat s) := congrArg Host.Outcome.next (if_pos h)

/-- A virtual function's write to a register only the physical function has. -/
theorem writeReg32_pfOnly {fn off v : Nat} {s : State} (hoff : pfOnlyOffset off = true) (hfn : fn ≠ 0) :
    writeReg32 fn off v s = violation s fn := if_pos ⟨hoff, hfn⟩

/-- Settles O30: the registers' writes are cases of key, code, command and boot state. -/
theorem resetControlAndMailbox : Obligations.ResetControlAndMailbox := by
  intro v s h
  refine ⟨fun hkey hcode hfatal hchip hhalted => ?resets, fun hnot => ?ignored, fun hload hwaiting hlen => ?fetches,
    fun hload hwaiting hlen => ?badLength, fun hload => ?noLoad, fun hload hbusy => ?atOtherTimes, fun fn hfn hreach => ?virtual⟩
  case resets =>
    obtain ⟨hstate, hlast, hdma, hreq, -, -, hqueues, -, -, -, -, -, hfuses⟩ := chipReset_leaves (flushCounts s) 5 0
    exact ⟨_, (exec_resetCtl h).trans (congrArg Host.Outcome.next (if_pos ⟨hkey, hcode, hfatal, hchip, hhalted⟩)), hstate, hlast, hdma, hreq,
      hqueues, hfuses.trans (flushCounts_fuses s)⟩
  case ignored =>
    refine (exec_resetCtl h).trans (congrArg Host.Outcome.next (if_neg ?_))
    rintro ⟨hkey, -, hfatal, hchip, hhalted⟩
    rcases hnot with hnot | hnot | hnot | hnot
    · exact hnot hkey
    · rw [hnot] at hfatal
      cases hfatal
    · exact hchip hnot
    · exact hhalted hnot
  case fetches =>
    rw [exec_mbxCtlLoad h]
    unfold writeMbxCtl
    rw [if_neg (not_not.mpr hload), if_neg (not_not.mpr hwaiting), if_pos hlen]
  case badLength =>
    have hwrite : writeMbxCtl v.toNat s = enterFatal { s with boot := { s.boot with source := 1, mbxStatus := 6 } } 6 0 := by
      unfold writeMbxCtl
      rw [if_neg (not_not.mpr hload), if_neg (not_not.mpr hwaiting), if_neg (by simp [hlen])]
      rfl
    refine ⟨_, (exec_mbxCtlLoad h).trans (congrArg _ hwrite), ?_⟩
    rw [enterFatal_boot]
    exact ⟨hwaiting, rfl, rfl, rfl⟩
  case noLoad => exact (exec_mbxCtlLoad h).trans (congrArg Host.Outcome.next (if_pos hload))
  case atOtherTimes =>
    rw [exec_mbxCtlLoad h]
    unfold writeMbxCtl
    rw [if_neg (not_not.mpr hload), if_pos hbusy]
  case virtual =>
    have hne : fn.val ≠ 0 := fun h0 => hfn (Fin.ext h0)
    exact ⟨congrArg Host.Outcome.next ((if_pos hreach).trans (writeReg32_pfOnly rfl hne)),
      congrArg Host.Outcome.next ((if_pos hreach).trans (writeReg32_pfOnly rfl hne))⟩

/-! ### The supply inputs (R562, R565, R584) -/

theorem flushCounts_power (s : State) : (flushCounts s).power = s.power := by rw [flushCounts_frame]

/-- The input voltage the rails turned off leave known. -/
theorem railsOff_mainMillivolts (s : State) (why : Nat) : (railsOff s why).power.mainMillivolts = s.power.mainMillivolts := by
  unfold railsOff
  have hkept : (defaultForModule (flushCounts s)).power.mainMillivolts = s.power.mainMillivolts :=
    show (flushCounts s).power.mainMillivolts = _ by rw [flushCounts_power]
  dsimp only
  split
  · exact hkept
  · rw [report_power]
    exact hkept

/-- Settles O35: each input outside its limits for long enough acts, and is noted otherwise. -/
theorem supplyInputs : Obligations.SupplyInputs := by
  refine ⟨fun s v halive hon hout hlong => ?fault, fun s v hlow hhigh => ?within, fun s v halive hon hmargin => ?marginal,
    fun s v halive hstandby hwhy hlow hhigh hlong => ?restored, fun s v halive hout hlong hdue => ?standby,
    fun s hoff => congrArg Host.Outcome.next (if_pos hoff), fun s hnot => ?lost⟩
  case fault =>
    obtain ⟨hrails, hstate, hwhy, -, hreq, -, -⟩ := railsOff_leaves
      (report (stopSteps { s with power := { s.power with mainMillivolts := v.millivolts } }) 0x48 5 (sensorUid 0)
        (inputDetail false v.millivolts)) 1
    refine ⟨_, congrArg Host.Outcome.next (if_pos ⟨halive, hon, hout, hlong⟩), hrails, hstate, hwhy, ?_, rfl, rfl, hreq⟩
    refine (railsOff_mainMillivolts _ 1).trans ?_
    rw [report_power]
    rfl
  case within => exact congrArg Host.Outcome.next (if_neg (by omega))
  case marginal => exact congrArg Host.Outcome.next (if_pos ⟨by simp [watching, halive, hon], hmargin⟩)
  case restored =>
    exact ⟨_, congrArg Host.Outcome.next (if_pos ⟨halive, hstandby, hwhy, hlow, hhigh, hlong⟩), rfl, rfl, rfl, flushCounts_fuses _⟩
  case standby =>
    refine congrArg Host.Outcome.next (if_pos ⟨halive, hout, hlong, ?_⟩)
    cases hlast : s.power.lastStandbyRecord with
    | none => rfl
    | some t => exact decide_eq_true (hdue t hlast)
  case lost =>
    exact ⟨_, congrArg Host.Outcome.next (if_neg hnot), rfl, rfl, rfl, rfl, rfl, List.map_map⟩

/-! ### The power-up sequence (R588) -/

/-- What rails that rise leave: the trip latch is reported and cleared. -/
theorem railsPowerUp_rises {s : State} (h : railsMayRise s = true) : (railsPowerUp s).power.railsOn = true ∧
    (railsPowerUp s).power.state = .idle ∧ (railsPowerUp s).boot.sequence = .railsUp ∧
    (railsPowerUp s).thermal.tripLatch = none := by
  unfold railsPowerUp
  rw [if_pos h]
  extract_lets boot power s1 s2
  have hboot : s2.boot = s1.boot := by
    dsimp only [s2]
    split
    · exact report_boot _ _ _ _ _
    · rfl
  have hpower : s2.power = s1.power := by
    dsimp only [s2]
    split
    · exact report_power _ _ _ _ _
    · rfl
  cases hlatch : s2.thermal.tripLatch with
  | none =>
    dsimp only
    rw [hboot, hpower]
    exact ⟨rfl, rfl, rfl, hlatch⟩
  | some ch =>
    dsimp only
    rw [report_power, report_boot, report_thermal]
    dsimp only
    rw [hboot, hpower]
    exact ⟨rfl, rfl, rfl, rfl⟩

/-- Settles O36: each event needs the sequence's place before it. -/
theorem powerUpSequence : Obligations.PowerUpSequence := by
  refine ⟨fun s hrom hgood => ?verified, fun s hrom hbad => ?recovery, fun s hrom => congrArg Host.Outcome.next (if_pos hrom),
    fun s hnot => congrArg Host.Outcome.next (if_neg ?notReleased), fun s hrise => ⟨_, rfl, railsPowerUp_rises hrise⟩,
    fun s hnot => congrArg Host.Outcome.next (if_neg (by simp [hnot])), fun s hrails hclock => ?released⟩
  case verified =>
    refine congrArg Host.Outcome.next ((if_neg (not_not.mpr hrom)).trans ?_)
    rw [hgood]
  case recovery =>
    refine congrArg Host.Outcome.next ((if_neg (not_not.mpr hrom)).trans ?_)
    obtain ⟨e, he⟩ := Option.ne_none_iff_exists'.mp hbad
    rw [he]
  case notReleased =>
    rintro ⟨hrails, hclock⟩
    rcases hnot with hnot | hnot
    · exact hnot hrails
    · rw [hnot] at hclock
      cases hclock
  case released =>
    refine ⟨_, congrArg Host.Outcome.next (if_pos ⟨hrails, hclock⟩), ?_⟩
    rw [enterFatal_boot]
    exact ⟨rfl, rfl, rfl, rfl, rfl⟩

/-! ### From a delivered bundle to running firmware (R439, R440, R540) -/

/-- What the engine changes when it acts on the registers it accepted before it ran (R417). -/
def SameButRegisters (s t : State) : Prop :=
  t = { s with queues := t.queues, rings := t.rings, counts := t.counts, hostMem := t.hostMem, fns := t.fns, lodge := t.lodge }

theorem SameButRegisters.trans {s t u : State} (h : SameButRegisters s t) (k : SameButRegisters t u) : SameButRegisters s u := by
  unfold SameButRegisters at *; rw [k, h]

theorem sameButRegisters_of_record {s t : State} (h : SameButRecord s t) : SameButRegisters s t := by
  unfold SameButRecord at h; unfold SameButRegisters; rw [h]

theorem flushIfEnabled_frame (s : State) (fn : Nat) : SameButRecord s (flushIfEnabled s fn) := by
  unfold flushIfEnabled
  dsimp only
  split
  · exact flushHeld_frame s fn
  · rfl

theorem openBootQueue_frame (s : State) (fn : Nat) : SameButRegisters s (openBootQueue s fn) := by
  unfold openBootQueue
  dsimp only
  split <;> rfl

theorem openBootRing_frame (s : State) (fn : Nat) : SameButRegisters s (openBootRing s fn) := by
  unfold openBootRing
  dsimp only
  split <;> rfl

theorem actOnRegisters_frame (s : State) : SameButRegisters s (actOnRegisters s) := by
  unfold actOnRegisters
  suffices h : ∀ (l : List Nat) (t : State), SameButRegisters s t → SameButRegisters s
      (l.foldl (fun t fn => flushIfEnabled (openBootQueue (openBootRing t fn) fn) fn) t) from h _ s rfl
  intro l
  induction l with
  | nil => exact fun t h => h
  | cons fn l ih =>
    exact fun t h => ih _ (((h.trans (openBootRing_frame t fn)).trans (openBootQueue_frame _ fn)).trans
      (sameButRegisters_of_record (flushIfEnabled_frame _ fn)))

/-- What firmware that reaches running leaves (R540, R423, R588 event I). -/
theorem reachRunning_leaves (s : State) (b : Bytes) : (reachRunning s b).boot.state = .running ∧
    (reachRunning s b).boot.running = some b ∧ (reachRunning s b).boot.copies = [b, b] ∧ (reachRunning s b).boot.fatal = false ∧
    (reachRunning s b).boot.dmaStopped = false ∧ (reachRunning s b).boot.staged = s.boot.staged ∧
    (reachRunning s b).power.state = .idle ∧ (reachRunning s b).fuses.securityVersion =
      (if leAt b 13 1 % 2 = 1 then s.fuses.securityVersion ||| versionBits (leAt b 12 1) else s.fuses.securityVersion) := by
  unfold reachRunning refreshPairOk
  dsimp only
  rw [actOnRegisters_frame]
  unfold burnVersion
  split <;> exact ⟨rfl, rfl, rfl, rfl, rfl, rfl, rfl, rfl⟩

/-- A fetch that gave the whole bundle is judged (R440). -/
theorem fetchEnds_judged {s : State} {b : Bytes} (hfetch : s.boot.state = .fetching) (hup : s.link.up = true)
    (hlen : b.length = s.boot.mbxLen.toNat) : fetchEnds (some b) s = judgeDelivery s b := by
  unfold fetchEnds
  rw [if_neg (not_not.mpr hfetch)]
  dsimp only
  rw [if_pos hup, ← hlen]
  simp [padTo]

/-- Settles O37: the delivered bundle's judgement starts it or leaves the boot ROM waiting; a started one runs. -/
theorem bootToRunning : Obligations.BootToRunning := by
  refine ⟨fun s b hfetch hup hlen hgood => ?passes, fun s b n o hfetch hup hlen hbad => ?fails, fun s hfetch => ?error,
    fun s b hstarting haccepted => ?runs⟩
  case passes => exact congrArg Host.Outcome.next ((fetchEnds_judged hfetch hup hlen).trans (judgeDelivery_passes hgood))
  case fails =>
    obtain ⟨hstate, -, hstatus, hfatal, hcause⟩ := judgeDelivery_fails_boot hbad
    exact ⟨_, congrArg Host.Outcome.next (fetchEnds_judged hfetch hup hlen), hstate, hstatus, hfatal, hcause⟩
  case error =>
    refine ⟨_, congrArg Host.Outcome.next (if_neg (not_not.mpr hfetch)), ?_⟩
    dsimp only
    rw [enterFatal_boot]
    exact ⟨rfl, rfl, rfl⟩
  case runs =>
    obtain ⟨hstate, hrunning, hcopies, hfatal, hdma, -, hidle, hversion⟩ := reachRunning_leaves s b
    refine ⟨reachRunning s b, ?_, hstate, hrunning, hcopies, hfatal, hdma, hidle, hversion⟩
    have hruns : bootRuns s = reachRunning s b := by
      unfold bootRuns
      rw [haccepted]
      exact if_pos hstarting
    exact congrArg _ hruns

/-! ### Watchdogs, silence and recovery (R424, R511–R515, R535, R544) -/

/-- The watchdog a second after FATAL cause 3, seen by a Lodge that is alive. -/
theorem watchdogResets_due {s : State} {t : Nat} (hat : s.boot.watchdogAt = some t) (hdue : t + 1000000000 ≤ s.now)
    (halive : s.lodge.alive = true) (hrun : s.boot.state = .running) : watchdogResets s =
      if 3 ≤ (recentContainments s).length then
        report (enterFatal (stopSteps { s with boot := { s.boot with state := .halted, watchdogAt := none } }) 4 kioskUid) 0x63 5
          kioskUid (leBytes 1 4)
      else containmentReset s 0 := by
  unfold watchdogResets
  rw [hat]
  exact if_pos ⟨halive, hrun, hdue⟩

/-- The boot state once a chip reset has ended with a bundle to run (R512, R544). -/
theorem chipResetEnds_runs {found : ResetFindings} {s : State} {b : Bytes} (hreset : s.boot.state = .chipReset)
    (hend : s.boot.endsHalted = false) (hb : bundleToRun found s = some b) : (chipResetEnds found s).boot =
      (reachRunning { s with boot := { s.boot with staged := [], mbxStatus := stagedStatus found s } } b).boot := by
  unfold chipResetEnds
  rw [if_neg (not_not.mpr hreset), if_neg (by simp [hend])]
  dsimp only
  rw [hb]
  dsimp only
  rw [tryPair_steady.boot, reportRecovery_steady.boot, afterChipReset_steady.boot]

/-- Settles O38: each timer's event writes FATAL and the boot state; a chip reset ends by what it finds. -/
theorem watchdogsAndRecovery : Obligations.WatchdogsAndRecovery := by
  refine ⟨fun s hrun hnot => ?kiosk, fun s t hat hdue halive hrun hfew => ?contains, fun s t hat hdue halive hrun hmany => ?halts,
    fun s halive hon hnot => ?gatehouse, fun s halive hup hnot => ?lodge, fun found s b hreset hend hb => ?runs,
    fun found s hreset hend => ?ended, fun found s hnot => congrArg Host.Outcome.next (if_pos hnot), fun found s hreset hend hnone => ?waits⟩
  case kiosk =>
    refine ⟨_, congrArg Host.Outcome.next (if_pos ⟨by simp [isRunning, hrun], by simp [hnot]⟩), ?_⟩
    dsimp only
    rw [enterFatal_boot]
    exact ⟨rfl, rfl, rfl, rfl, rfl⟩
  case contains =>
    obtain ⟨hstate, hlast, -, hreq, -⟩ := chipReset_leaves (flushCounts s) 3 0
    exact ⟨containmentReset s 0,
      congrArg Host.Outcome.next ((watchdogResets_due hat hdue halive hrun).trans (if_neg (by omega))), hstate, hlast, rfl, hreq⟩
  case halts =>
    refine ⟨_, congrArg Host.Outcome.next ((watchdogResets_due hat hdue halive hrun).trans (if_pos hmany)), ?_⟩
    rw [report_boot, enterFatal_boot]
    exact ⟨rfl, rfl⟩
  case gatehouse =>
    refine ⟨_, congrArg Host.Outcome.next (if_pos ⟨halive, hon, by simp [hnot]⟩), ?_⟩
    rw [lodgeTake_frame]
    exact ⟨rfl, rfl, rfl, rfl, stopSteps_lanes _⟩
  case lodge =>
    refine ⟨_, congrArg Host.Outcome.next (if_pos ⟨halive, .inr hup, by simp [hnot]⟩), ?_⟩
    refine ⟨(report_alive _ _ _ _ _).trans ?_, ?_⟩
    · rw [enterFatal_frame]
      rfl
    · rw [report_boot, report_lanes, enterFatal_boot, enterFatal_frame]
      exact ⟨rfl, rfl, stopSteps_lanes _⟩
  case runs =>
    obtain ⟨hstate, hrunning, hcopies, hfatal, -, hstaged, -, -⟩ :=
      reachRunning_leaves { s with boot := { s.boot with staged := [], mbxStatus := stagedStatus found s } } b
    refine ⟨chipResetEnds found s, rfl, ?_⟩
    rw [chipResetEnds_runs hreset hend hb]
    exact ⟨hstate, hrunning, hstaged, hcopies, hfatal⟩
  case ended =>
    refine ⟨_, congrArg Host.Outcome.next ((if_neg (not_not.mpr hreset)).trans (if_pos hend)), ?_⟩
    rw [report_boot, enterFatal_boot]
    exact ⟨rfl, rfl, rfl⟩
  case waits =>
    have hwaits : chipResetEnds found s = enterFatal { s with boot := { s.boot with
        staged := [], mbxStatus := stagedStatus found s, state := .waiting, running := none, copies := [] } } 1 0 := by
      unfold chipResetEnds
      rw [if_neg (not_not.mpr hreset), if_neg (by simp [hend])]
      dsimp only
      rw [hnone]
    refine ⟨_, congrArg Host.Outcome.next hwaits, ?_⟩
    rw [enterFatal_boot]
    exact ⟨rfl, rfl, rfl, rfl⟩

end Sys2Proof.Proofs
end

section
/-! The bootstrap registers, virtual functions, the link and the resets from outside (R410, R414, R425, R436, R442–R444, R585,
R597, R607, R608). -/

namespace Sys2Proof.Proofs
open Sys2Proof Sys2Proof.Machine Sys2Proof.Safety Sys2Proof.Laws

/-! ### Function registers -/

@[simp] theorem fnGet_fnSet (s : State) (n : Nat) (f : FnState) : fnGet (fnSet s n f) n = f := sgetD_sput_same _ _ _ _

theorem fnGet_fnSet_other (s : State) (f : FnState) {n k : Nat} (h : k ≠ n) : fnGet (fnSet s n f) k = fnGet s k :=
  sgetD_sput_other _ _ _ h

/-- What an interrupt changes of what functions own: messages pending or sent (R435). -/
def OnlySignals (s t : State) : Prop :=
  ∀ n, fnGet t n = { fnGet s n with pba := (fnGet t n).pba, signals := (fnGet t n).signals }

theorem OnlySignals.of_fns {s t : State} (h : t.fns = s.fns) : OnlySignals s t := by
  intro n
  have hget : fnGet t n = fnGet s n := by
    unfold fnGet
    rw [h]
  rw [hget]

theorem OnlySignals.trans {s t u : State} (h : OnlySignals s t) (k : OnlySignals t u) : OnlySignals s u := by
  intro n
  rw [k n, h n]

theorem signal_onlySignals (s : State) (fn v : Nat) : OnlySignals s (signal s fn v) := by
  intro n
  unfold signal fnMod
  dsimp only
  by_cases hn : n = fn
  · subst hn
    rw [fnGet_fnSet]
    split <;> rfl
  · rw [fnGet_fnSet_other _ _ hn]

theorem ringWrite_onlySignals (s : State) (n : Nat) (r : ReplyRing) (e : Bytes) : OnlySignals s (ringWrite s n r e) := by
  unfold ringWrite
  extract_lets s1 s2 r1
  have hs2 : s2.fns = s.fns := rfl
  clear_value s2
  split
  · exact .trans (t := { s2 with rings := sput s2.rings n { r1 with unsignalled := 0 } }) (.of_fns hs2) (signal_onlySignals _ _ _)
  · exact .of_fns hs2

theorem ringPost_onlySignals (s : State) (n : Nat) (e : RingEntry) : OnlySignals s (ringPost s n e).1 := by
  unfold ringPost
  split
  · exact .of_fns rfl
  · split
    · unfold ringWriteEntry
      refine .trans (.of_fns ?_) (ringWrite_onlySignals _ _ _ _)
      split <;> rfl
    · exact .of_fns rfl

theorem replyTo_onlySignals (s : State) (o : Origin) (st : Status) (d : Nat) (r : Bytes) : OnlySignals s (replyTo s o st d r) := by
  unfold replyTo
  split
  · exact .of_fns rfl
  · exact ringPost_onlySignals _ _ _

theorem finishJobs_onlySignals (s : State) (answer : Job → Option (Status × Nat × Bytes)) : OnlySignals s (finishJobs s answer) := by
  unfold finishJobs
  suffices h : ∀ (l : List Job) (t : State), OnlySignals s t → OnlySignals s (l.foldl (fun st j =>
      match answer j with
      | some (x, d, r) => replyTo st j.origin x d r
      | none => st) t) from h _ _ (.of_fns rfl)
  intro l
  induction l with
  | nil => exact fun t h => h
  | cons j l ih =>
    refine fun t h => ih _ ?_
    dsimp only
    split
    · exact h.trans (replyTo_onlySignals _ _ _ _ _)
    · exact h

theorem dropRequest_onlySignals (s : State) (h : Nat) : OnlySignals s (dropRequest s h) := by
  unfold dropRequest
  split
  · exact .of_fns rfl
  · refine .trans (.of_fns ?_) (finishJobs_onlySignals _ _)
    dsimp only [settleAdapters, unlane]
    split <;> rfl

theorem dropRequests_onlySignals (s : State) (hs : List Nat) : OnlySignals s (dropRequests s hs) := by
  induction hs generalizing s with
  | nil => exact .of_fns rfl
  | cons h hs ih => exact (dropRequest_onlySignals s h).trans (ih _)

/-- Requests that are closed change no register of a function. -/
theorem closeRequests_onlySignals (s : State) (p : Request → Bool) : OnlySignals s (closeRequests s p) := by
  unfold closeRequests
  extract_lets gone s1
  exact .trans (.of_fns rfl) ((dropRequests_onlySignals s1 gone).trans (.of_fns rfl))

/-! ### BSQ_CTL, BRPL_CTL and EQ_CTL (R425, R436, R607) -/

theorem depthValid_iff {d : Nat} : depthValid d = true ↔ 4 ≤ d ∧ d ≤ 12 := decide_eq_true_iff

/-- EQ_CTL's write, its Overflow bit cleared by one (R436). -/
theorem writeEqCtl_eq (fn v : Nat) (s : State) : writeEqCtl fn v s =
    if (fnGet s fn).eqEnable then
      fnSet s fn { fnGet s fn with
        eqOverflow := if fld v 30 30 = 1 then false else (fnGet s fn).eqOverflow, eqEnable := decide (fld v 31 31 = 1) }
    else if fld v 31 31 = 1 ∧ 6 ≤ fld v 20 16 ∧ fld v 20 16 ≤ 16 then
      flushIfEnabled (fnSet s fn { fnGet s fn with
        eqOverflow := if fld v 30 30 = 1 then false else (fnGet s fn).eqOverflow,
        eqEnable := true, eqSize := fld v 20 16, eqDropped := 0, eqProducer := 0, eqConsumer := 0 }) fn
    else fnSet s fn { fnGet s fn with
        eqOverflow := if fld v 30 30 = 1 then false else (fnGet s fn).eqOverflow, eqSize := fld v 20 16 } := by
  have hover : (if fld v 30 30 = 1 then { fnGet s fn with eqOverflow := false } else fnGet s fn) =
      { fnGet s fn with eqOverflow := if fld v 30 30 = 1 then false else (fnGet s fn).eqOverflow } := by
    split <;> rfl
  unfold writeEqCtl
  dsimp only
  rw [hover]
  dsimp only
  by_cases hon : (fnGet s fn).eqEnable
  · rw [if_pos hon, if_pos hon]
    by_cases hv : fld v 31 31 = 1
    · rw [if_pos hv, decide_eq_true hv, ← hon]
    · rw [if_neg hv, decide_eq_false hv]
  · rw [if_neg hon, if_neg hon]

/-- What is held for an event queue waits while the firmware does not run (R608). -/
theorem flushIfEnabled_notRunning {s : State} (fn : Nat) (h : s.boot.state ≠ .running) : flushIfEnabled s fn = s :=
  if_neg (by simp [isRunning, h])

/-- Settles O31: each write is a case of the value's Enable, the register's and the depth or size. -/
theorem bootstrapRegisters : Obligations.BootstrapRegisters := by
  intro fn v s h f d
  have hbsq : exec (.bsqCtl fn v) s = .next (writeBsqCtl fn.val v.toNat s) := congrArg Host.Outcome.next (if_pos h)
  have hbrpl : exec (.brplCtl fn v) s = .next (writeBrplCtl fn.val v.toNat s) := congrArg Host.Outcome.next (if_pos h)
  have heq : exec (.eqCtl fn v) s = .next (writeEqCtl fn.val v.toNat s) := congrArg Host.Outcome.next (if_pos h)
  refine ⟨fun hv hoff hlow hhigh hrun => ?bsqOpens, fun hv hon => ?bsqStays, fun hv hon => ?bsqCloses, fun hv hon => ?brplCloses,
    fun hv hoff hlow hhigh => ?eqOpens, fun hon hv => ?eqCloses, fun hv hoff hlow hhigh hvec hvecs hrun => ?brplOpens,
    fun hv hvec => ?badVector, fun hv hoff hlow hhigh hrun => ?eqWaits, fun hon hv => ?eqStays⟩
  case bsqOpens =>
    refine hbsq.trans (congrArg Host.Outcome.next ?_)
    unfold writeBsqCtl
    dsimp only
    rw [if_pos hv, if_neg (by simp [f] at hoff; simp [hoff]), depthValid_iff.mpr ⟨hlow, hhigh⟩]
    unfold openBootQueue
    dsimp only
    rw [fnGet_fnSet, if_pos ⟨rfl, by simp [isRunning, fnSet, hrun]⟩]
    rfl
  case bsqStays => exact hbsq.trans (congrArg Host.Outcome.next ((if_pos hv).trans (if_pos hon)))
  case bsqCloses =>
    refine ⟨_, hbsq.trans (congrArg Host.Outcome.next ((if_neg (by omega)).trans (if_pos hon))), ?_, sget_sdel_same _ _⟩
    exact congrArg FnState.bsqEnable (fnGet_fnSet s fn.val { f with bsqEnable := false })
  case brplCloses =>
    refine ⟨_, hbrpl.trans (congrArg Host.Outcome.next ((if_neg (by omega)).trans (if_pos hon))), ?_, sget_sdel_same _ _⟩
    have hclosed := closeRequests_onlySignals (fnSet s fn.val { f with brplEnable := false, brplVector := fld v.toNat 21 11 })
      (fun r => r.ring = bootRing fn.val) fn.val
    rw [fnGet_fnSet] at hclosed
    exact congrArg FnState.brplEnable hclosed
  case eqOpens =>
    rw [heq, writeEqCtl_eq, if_neg (by simp [f] at hoff; simp [hoff]), if_pos ⟨hv, hlow, hhigh⟩]
  case eqCloses => rw [heq, writeEqCtl_eq, if_pos hon, decide_eq_false (by omega)]
  case brplOpens =>
    refine hbrpl.trans (congrArg Host.Outcome.next ?_)
    unfold writeBrplCtl
    dsimp only
    rw [if_pos hv, if_neg (by omega), if_neg (by simp [f] at hoff; simp [hoff]), depthValid_iff.mpr ⟨hlow, hhigh⟩]
    unfold openBootRing
    dsimp only
    rw [fnGet_fnSet, if_pos ⟨rfl, by simp [isRunning, fnSet, hrun]⟩]
    rfl
  case badVector =>
    refine hbrpl.trans (congrArg Host.Outcome.next ?_)
    unfold writeBrplCtl
    dsimp only
    rw [if_pos hv, if_pos hvec]
  case eqWaits =>
    rw [heq, writeEqCtl_eq, if_neg (by simp [f] at hoff; simp [hoff]), if_pos ⟨hv, hlow, hhigh⟩]
    exact congrArg Host.Outcome.next (flushIfEnabled_notRunning (s := fnSet s fn.val _) _ hrun)
  case eqStays =>
    rw [heq, writeEqCtl_eq, if_pos hon, decide_eq_true hv, ← hon]

/-! ### The link and the resets from outside (R410, R443, R585, R597) -/

/-- A function-level reset's frame: what is the function's, the mailbox address, and what ends of requests change. -/
theorem flrOne_leaves (s : State) (fn : Nat) : (flrOne s fn).graphs = s.graphs ∧ (flrOne s fn).arrays = s.arrays ∧
    (flrOne s fn).boot.state = s.boot.state := by
  have hclosed := closeRequests_frame s (fun r => r.fn = fn)
  have hkept : (closeRequests s (fun r => r.fn = fn)).graphs = s.graphs ∧ (closeRequests s (fun r => r.fn = fn)).arrays = s.arrays ∧
      (closeRequests s (fun r => r.fn = fn)).boot.state = s.boot.state := by
    rw [hclosed]
    exact ⟨rfl, rfl, rfl⟩
  unfold flrOne
  dsimp only
  split <;> exact hkept

/-- The virtual functions reset one after the other (R442). -/
def virtualReset (s : State) (l : List Nat) : State := l.foldl (fun st n => if (fnGet st n).enabled then flrOne st n else st) s

theorem virtualReset_leaves (s : State) (l : List Nat) : (virtualReset s l).graphs = s.graphs ∧
    (virtualReset s l).arrays = s.arrays ∧ (virtualReset s l).boot.state = s.boot.state := by
  induction l generalizing s with
  | nil => exact ⟨rfl, rfl, rfl⟩
  | cons n l ih =>
    obtain ⟨hgraphs, harrays, hstate⟩ := ih (if (fnGet s n).enabled then flrOne s n else s)
    have hone : ∀ t, t = (if (fnGet s n).enabled then flrOne s n else s) → t.graphs = s.graphs ∧ t.arrays = s.arrays ∧
        t.boot.state = s.boot.state := by
      rintro t rfl
      split
      · exact flrOne_leaves s n
      · exact ⟨rfl, rfl, rfl⟩
    obtain ⟨hgraphs1, harrays1, hstate1⟩ := hone _ rfl
    exact ⟨hgraphs.trans hgraphs1, harrays.trans harrays1, hstate.trans hstate1⟩

/-- A reset of the physical function: the virtual ones first, then its own, and VF Enable is clear (R442). -/
theorem functionReset_physical (s : State) : ∃ l, functionReset s 0 =
    { flrOne { virtualReset s l with fns := smapAll (virtualReset s l).fns (fun _ f => { f with enabled := false }) } 0 with
      link := { (flrOne { virtualReset s l with
        fns := smapAll (virtualReset s l).fns (fun _ f => { f with enabled := false }) } 0).link with vfEnable := false, numVfs := 0 } } :=
  ⟨(List.range 64).drop 1, by simp only [functionReset, if_true, virtualReset]⟩

/-- What a hot reset leaves (R443). -/
theorem hotReset_leaves (s : State) : (hotReset s).sessions = [] ∧ (hotReset s).spdm = [] ∧ (hotReset s).link.up = false ∧
    (hotReset s).link.vfEnable = false ∧ (hotReset s).boot.lastReset = 6 ∧ (hotReset s).boot.state = s.boot.state ∧
    (hotReset s).graphs = s.graphs ∧ (hotReset s).arrays = s.arrays := by
  obtain ⟨l, hreset⟩ := functionReset_physical s
  obtain ⟨hgraphs, harrays, hstate⟩ := virtualReset_leaves s l
  obtain ⟨hgraphs1, harrays1, hstate1⟩ :=
    flrOne_leaves { virtualReset s l with fns := smapAll (virtualReset s l).fns (fun _ f => { f with enabled := false }) } 0
  unfold hotReset
  dsimp only
  rw [hreset]
  exact ⟨rfl, rfl, rfl, rfl, rfl, hstate1.trans hstate, hgraphs1.trans hgraphs, harrays1.trans harrays⟩

theorem flushAllHeld_frame (s : State) : SameButRecord s (flushAllHeld s) := by
  unfold flushAllHeld
  suffices h : ∀ (l : List Nat) (t : State), SameButRecord s t → SameButRecord s (l.foldl flushIfEnabled t) from h _ s rfl
  intro l
  induction l with
  | nil => exact fun t h => h
  | cons fn l ih => exact fun t h => ih _ (h.trans (flushIfEnabled_frame t fn))

/-- The link as it comes up (R410, R588 event G). -/
def linkUp (s : State) (rate width : Nat) : State :=
  { s with link := { s.link with up := true, rate := rate, width := width }, boot := { s.boot with sequence := .up } }

/-- The link up, what was held written, and its change reported (R410, R597). -/
def linkReported (s : State) (rate width : Nat) : State :=
  if !decide (s.boot.sequence = .released) && decide (s.link.rate ≠ rate ∨ s.link.width ≠ width) then
    reportLink (flushAllHeld (linkUp s rate width)) rate width
  else flushAllHeld (linkUp s rate width)

theorem linkReported_frame (s : State) (rate width : Nat) : SameButRecord (linkUp s rate width) (linkReported s rate width) := by
  unfold linkReported
  split
  · exact (flushAllHeld_frame _).trans (report_frame _ _ _ _ _)
  · exact flushAllHeld_frame _

/-- A link that may train (R410, R597). -/
theorem linkTrains_eq {s : State} {rate width : Nat} (hperst : s.power.perstAsserted = false) (hclock : s.power.refClock = true)
    (hseq : s.boot.sequence = .released ∨ s.boot.sequence = .up) (hsilent : s.boot.gatehouseSilent = false) :
    linkTrains rate width s = if linkCarries rate width < reservedReads (linkReported s rate width) then
      forceBuild (linkReported s rate width) .hostLink else linkReported s rate width := by
  refine if_neg ?_
  rcases hseq with hseq | hseq <;> simp [hperst, hclock, hseq, hsilent]

/-- What a link that trains leaves (R410, R588). -/
theorem linkTrains_leaves {s : State} {rate width : Nat} (hperst : s.power.perstAsserted = false) (hclock : s.power.refClock = true)
    (hseq : s.boot.sequence = .released ∨ s.boot.sequence = .up) (hsilent : s.boot.gatehouseSilent = false) :
    let u := linkTrains rate width s
    u.link.up = true ∧ u.link.rate = rate ∧ u.link.width = width ∧ u.boot.sequence = .up ∧
    (linkCarries rate width < reservedReads s → BuildCause.hostLink ∈ u.planner.queued) ∧ u.requests = s.requests ∧
    u.lanes = s.lanes := by
  have hframe := linkReported_frame s rate width
  unfold linkUp at hframe
  dsimp only
  rw [linkTrains_eq hperst hclock hseq hsilent]
  generalize linkReported s rate width = t at hframe ⊢
  have hreads : reservedReads t = reservedReads s := by
    rw [hframe]
    rfl
  rw [hreads]
  split
  · rename_i hless
    refine ⟨?_, ?_, ?_, ?_, fun _ => mem_forceBuild_queued t .hostLink, ?_, ?_⟩ <;> (dsimp only [forceBuild]; rw [hframe])
  · rename_i hless
    rw [hframe]
    exact ⟨rfl, rfl, rfl, rfl, fun h => absurd h hless, rfl, rfl⟩

/-- Settles O34: the link follows the clock and the sequence; each reset from outside is the reset it stands for. -/
theorem linkClockAndResets : Obligations.LinkClockAndResets := by
  refine ⟨⟨fun s rate width hperst hclock hseq hsilent => ⟨_, rfl, linkTrains_leaves hperst hclock hseq hsilent⟩,
    fun s hup => congrArg Host.Outcome.next (if_pos hup), fun s hdown => congrArg Host.Outcome.next (if_neg (by simp [hdown])),
    fun s => ?clock, fun s => rfl⟩,
    fun s hup => ?hot, fun s hon => ?perst, fun s => rfl, fun s n hlong hon => ?pin,
    fun s high n hshort => congrArg Host.Outcome.next (if_neg (by omega))⟩
  case clock =>
    refine ⟨_, rfl, ?_⟩
    unfold clockLost linkFalls
    dsimp only
    split
    · unfold reportLink
      rw [report_frame]
      exact ⟨rfl, rfl, rfl, rfl, rfl⟩
    · rename_i hdown
      exact ⟨rfl, Bool.eq_false_iff.mpr hdown, rfl, rfl, rfl⟩
  case hot =>
    exact ⟨hotReset s, congrArg Host.Outcome.next (if_pos hup), hotReset_leaves s⟩
  case perst =>
    refine ⟨_, congrArg Host.Outcome.next (if_pos ⟨rfl, hon⟩), moduleReset_resetFrom _ 2, ?_⟩
    show (flushCounts _).power.perstAsserted = true
    rw [flushCounts_power]
  case pin =>
    exact ⟨_, congrArg Host.Outcome.next (if_pos ⟨hlong, hon⟩), moduleReset_resetFrom _ 1⟩

/-! ### Virtual functions (R414, R442) -/

/-- A request opened through a queue of slice 1 that has ended, its end record waiting (R374). -/
def endedThere : Request :=
  { fn := 0, session := 0, queue := 1024, graph := 0, cls := 0, account := 0, adapter := some (3, 1), ring := 64
    order := 0, tag := 0, deadline := 0, pinGen := false, cont := false, state := .running, ended := true }

/-- A module with a running engine, that request, and the adapter whose retirement waits for it (R354). -/
def adapterAwaitsEnd : State :=
  { boot := { sequence := .up, state := .running, dmaStopped := false }, link := { up := true }
    queues := [(1024, { base := 4096, depth := 16, priority := 0, ring := 64 })]
    objects := [{ kind := .adapter, handle := 3, gens := [], refs := 0, retiring := true }]
    requests := [(7, endedThere)] }

/-- Handing the slice over ends the request, and with it the adapter. -/
theorem vfEnabled_adapterAwaitsEnd : (vfEnabled 1 adapterAwaitsEnd).objects = [] := by decide +kernel

/-- Refutes O33: VF_ENABLE frees the adapter of `adapterAwaitsEnd`, so that the loaded objects do not stay as they are. -/
theorem not_virtualFunctions : ¬ Obligations.VirtualFunctions := by
  rintro ⟨henable, _⟩
  obtain ⟨u, hexec, _, _, _, _, _, hobjects, _⟩ := henable 1 adapterAwaitsEnd (by decide +kernel) (by decide) rfl
  have hu : (if reachable adapterAwaitsEnd 0 then vfEnabled 1 adapterAwaitsEnd else adapterAwaitsEnd) = u :=
    Host.Outcome.next.inj hexec
  rw [if_pos (by decide +kernel)] at hu
  rw [← hu, vfEnabled_adapterAwaitsEnd] at hobjects
  cases hobjects

end Sys2Proof.Proofs
end

section
/-! The checks of a packet in their order (R452), and what becomes of blocks that return (R336). -/

namespace Sys2Proof.Proofs
open Sys2Proof Sys2Proof.Machine Sys2Proof.Safety Sys2Proof.Laws

/-! ### The checks of R452 -/

/-- A packet whose judgement names a failure is answered with it (R452). -/
theorem carryPacket_fails {c : Ctx} {s t : State} {row : OpRow} {st : Status} {n : Nat} (body : Ctx → State → State)
    (hrow : opRow c.origin.opcode = some row) (h : judgePacket s row c = (t, some (st, n))) :
    carryPacket c s body = reply c t st n [] := by
  unfold carryPacket
  rw [hrow]
  dsimp only
  rw [h]

/-- A critical packet that passes up to its session is judged by key, code, counter and issuer (R452). -/
theorem judgePacket_critical {s : State} {row : OpRow} {c : Ctx} (hzero : firstReserved row c.chain = none)
    (hflag : hdrCritical c.chain = row.critical) (hsession : sessionBad s c = false) (hcritical : row.critical = true) :
    judgePacket s row c = (packetKey s c).elim (s, some (.authFail, 1)) (fun k =>
      if !trailerOk k c.chain then (s, some (.authFail, 1))
      else if trailerCounter c.chain ≤ packetCounter s c then (s, some (.counterRejected, 0))
      else (setPacketCounter s c (trailerCounter c.chain), judgeIssuer row c)) := by
  unfold judgePacket
  rw [hzero]
  dsimp only
  rw [if_neg (not_not.mpr hflag), if_neg (by simp [hsession]), if_pos hcritical]
  cases packetKey s c <;> rfl

/-- An opcode of the physical function alone, from a virtual function (R452, R413). -/
theorem judgeIssuer_virtual {row : OpRow} {c : Ctx} (hpf : row.pfOnly = true) (hfn : c.fn ≠ 0) (hsite : row.opcode ≠ 0x0505)
    (hdiag : row.opcode ≠ 0x0506) : judgeIssuer row c = some (.invalid, 2) := by
  unfold judgeIssuer
  simp [hpf, hfn, hsite, hdiag]

/-- Settles O60: `judgePacket` makes the checks in the order of R452. -/
theorem packetChecksInOrder : Obligations.PacketChecksInOrder := by
  refine ⟨fun c s row body hrow => ⟨fun off hoff => carryPacket_fails body hrow ?reserved,
    fun hzero => ⟨fun hflag => carryPacket_fails body hrow ?flag, fun hflag => ⟨fun hbad => carryPacket_fails body hrow ?session,
      fun hgood hcritical => ⟨fun hkey => carryPacket_fails body hrow ?noKey, fun k hkey hcode => carryPacket_fails body hrow ?code,
        fun k hkey hcode hcount => carryPacket_fails body hrow ?counter,
        fun k hkey hcode hcount hpf hfn hsite hdiag => carryPacket_fails body hrow ?issuer⟩,
      fun hgood hplain hpf hfn hsite hdiag => carryPacket_fails body hrow ?plainIssuer⟩⟩⟩, fun p s q hnone hread => ?unknown⟩
  case reserved =>
    unfold judgePacket
    rw [hoff]
  case flag =>
    unfold judgePacket
    rw [hzero]
    exact if_pos hflag
  case session =>
    unfold judgePacket
    rw [hzero]
    exact (if_neg (not_not.mpr hflag)).trans (if_pos hbad)
  case noKey => rw [judgePacket_critical hzero hflag hgood hcritical, hkey]; rfl
  case code =>
    rw [judgePacket_critical hzero hflag hgood hcritical, hkey]
    exact if_pos (by simp [hcode])
  case counter =>
    rw [judgePacket_critical hzero hflag hgood hcritical, hkey]
    exact (if_neg (by simp [hcode])).trans (if_pos hcount)
  case issuer =>
    rw [judgePacket_critical hzero hflag hgood hcritical, hkey, judgeIssuer_virtual hpf hfn hsite hdiag]
    exact (if_neg (by simp [hcode])).trans (if_neg (by omega))
  case plainIssuer =>
    unfold judgePacket
    rw [hzero]
    dsimp only
    rw [if_neg (not_not.mpr hflag), if_neg (by simp [hgood]), if_neg (by simp [hplain]), judgeIssuer_virtual hpf hfn hsite hdiag]
  case unknown =>
    obtain ⟨hq, hrun, hhung, hdma, hdepth, hcovered⟩ := hread
    have hpos := hdrUnits_pos (chainRead (hdrOpcode p.chain) p)
    have hrow : packetRow (hdrOpcode p.chain) p s id (fun _ t => t) =
        carryPacket { ctxRead (hdrOpcode p.chain) p s q with session := 0xFFFF }
          (consumed s p q (hdrUnits (chainRead (hdrOpcode p.chain) p))) (fun _ t => t) := by
      unfold packetRow
      simp only [hq, hrun, hhung, hdma, Bool.not_true, Bool.false_eq_true, show covered q ≠ 0 by omega, or_self, if_false]
      exact (if_neg (Nat.not_lt.mpr hdepth)).trans (if_neg (Nat.not_lt.mpr hcovered))
    refine congrArg Host.Outcome.next ?_
    show packetRow (if (opRow (hdrOpcode p.chain)).isSome then 0xFFFF else hdrOpcode p.chain) p s id (fun _ t => t) = _
    rw [if_neg (by simp [hnone]), hrow]
    unfold carryPacket
    dsimp only
    rw [show opRow (ctxRead (hdrOpcode p.chain) p s q).origin.opcode = none from hnone]
    rfl

/-! ### Blocks that return (R333, R336) -/

/-- A page with a header of ones. -/
def markedPage : Page := { node := 0, group := 0, first := 0, generation := 1, header := List.replicate 64 1 }

/-- A pre-empted request with one block, which returns from a place outside. -/
def returning (dest : Location) (pages : List Page) : Request :=
  { fn := 0, session := 0, queue := 0, graph := 0, cls := 2, account := 0, adapter := none, ring := 0, tag := 0, deadline := 0
    pinGen := false, cont := false, state := .preempted, order := 0
    blocks := [{ location := .returning, dest := dest, pages := pages }] }

/-- A module whose handle 7 is listed twice: a request whose block returns from a peer, and one whose block returns from the host swap area,
where its bytes are no longer what they were. -/
def handleTwice : State := { requests := [(7, returning .peer []), (7, returning .hostSwap [markedPage])] }

/-- What a returned block becomes by the statement. -/
def resident (q : Request) : Request := { q with blocks := lmod q.blocks 0 (fun x => { x with location := .memoryTier }) }

/-- The second request's page is read from the host swap area. -/
theorem blockReturned_handleTwice : (blockReturned 7 handleTwice).requests ≠ smod handleTwice.requests 7 resident := by decide +kernel

/-- Refutes O41: in `handleTwice` the block of the first request under handle 7 returns, and the second's pages change. -/
theorem not_heldRecordsHandOffsAndBlocks : ¬ Obligations.HeldRecordsHandOffsAndBlocks := by
  rintro ⟨_, _, _, _, _, _, hreturned⟩
  obtain ⟨u, hexec, _, hrequests, _⟩ := hreturned 7 handleTwice (returning .peer [])
    { location := .returning, dest := .peer, pages := [] } 0 rfl rfl rfl (by simp) (by simp) (by simp)
  rw [← Host.Outcome.next.inj hexec] at hrequests
  exact blockReturned_handleTwice hrequests

end Sys2Proof.Proofs
end

section
/-! From the results of a layer step to its outputs: the rules of layer steps and Quartz units, then the statement on them. -/

namespace Sys2Proof.Proofs
open Sys2Proof Sys2Proof.Machine Sys2Proof.Safety Sys2Proof.Laws

/-! ### Layer steps by their key -/

section
variable {s : State} {k : LayerKey}

theorem stepGet_key {x : LayerStep} (h : stepGet s k = some x) : x.key = k := by
  have hk := List.find?_some (p := fun x : LayerStep => decide (x.key = k)) h
  exact of_decide_eq_true hk

/-- A change of a layer step that keeps its key is what the key then reads. -/
theorem find_stepMod {f : LayerStep → LayerStep} (hf : ∀ y, y.key = k → (f y).key = k) (l : List LayerStep) (k1 : LayerKey) :
    (l.map (fun x => if x.key = k then f x else x)).find? (fun x => x.key = k1) =
      (l.find? (fun x => x.key = k1)).map (fun x => if x.key = k then f x else x) := by
  induction l with
  | nil => rfl
  | cons y l ih =>
    have hkey : (if y.key = k then f y else y).key = y.key := by
      split
      · next h => rw [hf y h, h]
      · rfl
    simp only [List.map_cons, List.find?_cons, hkey, ih]
    cases decide (y.key = k1) <;> rfl

theorem stepGet_stepMod {f : LayerStep → LayerStep} (hf : ∀ y, y.key = k → (f y).key = k) :
    stepGet (stepMod s k f) k = (stepGet s k).map f := by
  have h := find_stepMod (k := k) hf s.layerSteps k
  cases hx : stepGet s k with
  | none => exact h.trans (by rw [show s.layerSteps.find? (fun x => x.key = k) = none from hx]; rfl)
  | some x =>
    refine h.trans ?_
    rw [show s.layerSteps.find? (fun x => x.key = k) = some x from hx]
    exact congrArg some (if_pos (stepGet_key hx))

theorem stepGet_stepMod_other {f : LayerStep → LayerStep} (hf : ∀ y, y.key = k → (f y).key = k) {k1 : LayerKey} (h : k1 ≠ k) :
    stepGet (stepMod s k f) k1 = stepGet s k1 := by
  refine (find_stepMod (k := k) hf s.layerSteps k1).trans ?_
  cases hx : stepGet s k1 with
  | none => rw [show s.layerSteps.find? (fun x => x.key = k1) = none from hx]; rfl
  | some x =>
    rw [show s.layerSteps.find? (fun x => x.key = k1) = some x from hx]
    exact congrArg some (if_neg (by rw [stepGet_key hx]; exact h))

end

/-! ### Quartz units -/

section
variable (s : State) (u : Nat)

@[simp] theorem quartzGet_quartzMod (f : Quartz → Quartz) : quartzGet (quartzMod s u f) u = f (quartzGet s u) :=
  sgetD_sput_same _ _ _ _

/-- What counting at a unit leaves of it. -/
theorem quartzGet_countLayer (g node i n : Nat) :
    quartzGet (countLayer s u g node i n) u = { quartzGet s u with counts := (quartzGet (countLayer s u g node i n) u).counts } := by
  unfold countLayer
  rw [quartzGet_quartzMod]
  dsimp only
  split <;> rfl

end

/-- What a layer step on its way to its outputs leaves as it was. -/
def SameButOutputs (s t : State) : Prop := t = { s with layerSteps := t.layerSteps, quartz := t.quartz, requests := t.requests }

/-- Counting and draining change Quartz units alone. -/
def SameButQuartz (s t : State) : Prop := t = { s with quartz := t.quartz }

theorem SameButQuartz.refl (s : State) : SameButQuartz s s := rfl

theorem SameButQuartz.trans {s t u : State} (h : SameButQuartz s t) (k : SameButQuartz t u) : SameButQuartz s u := by
  unfold SameButQuartz at *
  rw [k, h]

theorem SameButQuartz.foldl {α : Type} {f : State → α → State} (h : ∀ s x, SameButQuartz s (f s x)) (l : List α) (s : State) :
    SameButQuartz s (l.foldl f s) := by
  induction l generalizing s with
  | nil => exact .refl s
  | cons x l ih => exact (h s x).trans (ih (f s x))

theorem countUnits_frame (s : State) (k : LayerKey) (p : LayerPlan) (i : Nat) : SameButQuartz s (countUnits s k p i) :=
  .foldl (f := fun t u => countLayer t u k.lane.val k.node i 1) (fun _ _ => rfl) _ _

theorem drainLayer_frame (s : State) (k : LayerKey) (p : LayerPlan) (x : LayerStep) : SameButQuartz s (drainLayer s k p x) := by
  refine .foldl (fun t c => ?_) _ _
  split
  · exact .refl t
  · exact .foldl (f := fun w e => offerTile w _ _) (fun _ _ => rfl) _ _

section
variable (s : State) (k : LayerKey) (p : LayerPlan) (x : LayerStep)

theorem countUnits_layerSteps (i : Nat) : (countUnits s k p i).layerSteps = s.layerSteps :=
  (congrArg State.layerSteps (countUnits_frame s k p i)).trans rfl

theorem countUnits_requests (i : Nat) : (countUnits s k p i).requests = s.requests :=
  (congrArg State.requests (countUnits_frame s k p i)).trans rfl

/-- A split pass taken changes no more than counts, the layer step's mark and the summary. -/
theorem splitTaken_frame : SameButOutputs s (splitTaken s k p x) := by
  unfold splitTaken
  split
  · have h := countUnits_frame s k p 1
    unfold SameButQuartz at h
    unfold SameButOutputs summaryMod reqMod stepMod
    rw [h]
  · exact rfl

theorem splitTaken_step (hx : stepGet s k = some x) :
    stepGet (splitTaken s k p x) k = some { x with splitDone := x.splitDone || x.split } := by
  unfold splitTaken
  split
  · next hsplit =>
    refine (stepGet_stepMod (s := countUnits s k p 1) (f := fun y => { y with splitDone := true }) (fun _ h => h)).trans ?_
    rw [show stepGet (countUnits s k p 1) k = some x from (congrArg (List.find? _) (countUnits_layerSteps s k p 1)).trans hx,
      Option.map_some, hsplit, Bool.or_true]
  · next hsplit =>
    have hsame : (x.splitDone || x.split) = x.splitDone := by simp [hsplit]
    rw [hsame, hx]

/-- The summary of a step that took a split pass. -/
def splitSummary (m : Summary) : Summary :=
  { m with split := true, nSplit := if x.splitDone then m.nSplit else m.nSplit + 1
           stretch := m.stretch + splitTime (laneCorner s k.lane.val) p.slots }

/-- A split pass taken leaves the running means of the sequence. -/
theorem splitTaken_means {r : Request} (h : sget s.requests k.seq = some r) :
    ∃ m, sget (splitTaken s k p x).requests k.seq = some { r with summary := m } := by
  unfold splitTaken
  split
  · have hs := sget_smod_same (countUnits s k p 1).requests k.seq (fun q => { q with summary := splitSummary s k p x q.summary })
    exact ⟨_, hs.trans (by rw [countUnits_requests, h]; rfl)⟩
  · exact ⟨r.summary, h⟩

end

/-! ### The wide path (R177) -/

/-- A layer step once the wide path has computed one: that one holds the output of its inputs. -/
def wideDone (w : Golden) (fmt : Nat) (y x : LayerStep) : LayerStep :=
  if y.key = x.key then { y with outputs := w.wide fmt x.inputs, done := true } else y

section
variable (w : Golden) (fmt : Nat)

theorem wideDone_key (y x : LayerStep) : (wideDone w fmt y x).key = y.key := by
  unfold wideDone
  split <;> rfl

theorem foldl_wideDone_key (xs : List LayerStep) (y : LayerStep) : (xs.foldl (wideDone w fmt) y).key = y.key := by
  induction xs generalizing y with
  | nil => rfl
  | cons x xs ih => exact (ih _).trans (wideDone_key w fmt y x)

/-- A layer step of none of the keys is left alone. -/
theorem foldl_wideDone_other {xs : List LayerStep} {y : LayerStep} (h : ∀ x ∈ xs, x.key ≠ y.key) : xs.foldl (wideDone w fmt) y = y := by
  induction xs with
  | nil => rfl
  | cons x xs ih =>
    rw [List.foldl_cons, show wideDone w fmt y x = y from if_neg (h x List.mem_cons_self).symm]
    exact ih (fun z hz => h z (List.mem_cons_of_mem _ hz))

/-- One of the keys holds the output of the inputs of the last of the list with its key. -/
theorem foldl_wideDone_same {xs : List LayerStep} {y x : LayerStep} (hx : x ∈ xs) (hkey : x.key = y.key) :
    (xs.foldl (wideDone w fmt) y).done = true ∧
      ∃ z ∈ xs, z.key = y.key ∧ (xs.foldl (wideDone w fmt) y).outputs = w.wide fmt z.inputs := by
  induction xs generalizing y x with
  | nil => exact absurd hx List.not_mem_nil
  | cons v xs ih =>
    rw [List.foldl_cons]
    by_cases hrest : ∃ z ∈ xs, z.key = y.key
    · obtain ⟨z, hz, hzk⟩ := hrest
      obtain ⟨hdone, z1, hz1, hk1, hout⟩ := ih (y := wideDone w fmt y v) hz (by rw [wideDone_key, hzk])
      exact ⟨hdone, z1, List.mem_cons_of_mem _ hz1, hk1.trans (wideDone_key w fmt y v), hout⟩
    · have hv : v.key = y.key := by
        rcases List.mem_cons.mp hx with rfl | h
        · exact hkey
        · exact absurd ⟨x, h, hkey⟩ hrest
      rw [foldl_wideDone_other w fmt (fun z hz => by rw [wideDone_key]; exact fun h => hrest ⟨z, hz, h⟩)]
      have hy : wideDone w fmt y v = { y with outputs := w.wide fmt v.inputs, done := true } := if_pos hv.symm
      rw [hy]
      exact ⟨rfl, v, List.mem_cons_self, hv, rfl⟩

end

/-- Outputs of the wide path for a list of layer steps: each gets those of its inputs, accepted into the running means. -/
theorem wideSteps (w : Golden) (fmt : Nat) (p : LayerPlan) (xs : List LayerStep) (s : State) :
    ∃ q, xs.foldl (fun t x => acceptRms (stepMod t x.key (fun y => { y with outputs := w.wide fmt x.inputs, done := true })) x.key p
        (rms32 (w.wide fmt x.inputs))) s =
      { s with layerSteps := s.layerSteps.map (fun y => xs.foldl (wideDone w fmt) y), requests := q } := by
  induction xs generalizing s with
  | nil => exact ⟨s.requests, by simp⟩
  | cons x xs ih =>
    obtain ⟨q, hq⟩ := ih (acceptRms (stepMod s x.key (fun y => { y with outputs := w.wide fmt x.inputs, done := true })) x.key p
      (rms32 (w.wide fmt x.inputs)))
    refine ⟨q, hq.trans ?_⟩
    have hsteps : (acceptRms (stepMod s x.key (fun y => { y with outputs := w.wide fmt x.inputs, done := true })) x.key p
      (rms32 (w.wide fmt x.inputs))).layerSteps = s.layerSteps.map (fun y => wideDone w fmt y x) := rfl
    rw [hsteps, List.map_map]
    rfl

/-! ### The rows -/

theorem rowArrives_awaited {s : State} {k : LayerKey} {n row col rb : Nat} {p : LayerPlan} {ws : List F32}
    (hawait : (stepGet s k).bind (awaitedRow s n row) = some (col, rb)) (hplan : keyLayer s k = some p)
    (hrow : outlierRow s k p col rb row = some ws) :
    rowArrives n row k s = stepMod s k (fun x => { x with rows := x.rows ++ [(col, rb, row, ws)] }) := by
  unfold rowArrives
  rw [hawait]
  dsimp only
  rw [hplan, Option.bind_some, hrow]

theorem rowArrives_none {s : State} {k : LayerKey} {n row : Nat} (h : (stepGet s k).bind (awaitedRow s n row) = none) :
    rowArrives n row k s = s := by
  unfold rowArrives
  rw [h]

/-- A partial that is at hand and has not come yet joins its layer step, and its tile the active set (R221, R223). -/
theorem partialArrives_joins {s : State} {k : LayerKey} {col idx : Nat} {n : UnitNo} {v : List (F32 × F32)} {p : LayerPlan} {x : LayerStep}
    (hplan : keyLayer s k = some p) (hx : stepGet s k = some x) (hwide : x.wide = false) (hdone : x.done = false)
    (hidx : idx < blockCount p x.inputs) (hunit : combiningUnit p col = some n.val)
    (hnew : ∀ e ∈ x.partials, ¬(e.1 = col ∧ e.2.1 = idx)) (hv : blockPartial s k p x col idx = some v) :
    partialArrives k col idx n s = quartzMod (stepMod s k (fun _ => { x with partials := x.partials ++ [(col, idx, v)] })) n.val
      (fun q => { q with sets := q.sets.set q.activeSet (tileSums (columnSums { x with partials := x.partials ++ [(col, idx, v)] } col) 0) }) := by
  unfold partialArrives
  rw [hplan, hx]
  dsimp only
  have hgo : ¬(x.wide = true ∨ x.done = true ∨ blockCount p x.inputs ≤ idx ∨ combiningUnit p col ≠ some n.val ∨
      x.partials.any (fun e => decide (e.1 = col ∧ e.2.1 = idx)) = true) := by
    simp only [hwide, hdone, hunit, List.any_eq_true, decide_eq_true_eq, not_or, not_exists, not_and]
    exact ⟨by simp, by simp, by omega, by simp, fun e he h1 h2 => hnew e he ⟨h1, h2⟩⟩
  rw [if_neg hgo, hv]

/-- A complete output the norm watch accepts drains, and is its layer step's (R172). -/
theorem tailEnds_accepts {k : LayerKey} {s : State} {p : LayerPlan} {x : LayerStep} (hplan : keyLayer s k = some p)
    (hx : stepGet s k = some x) (hwide : x.wide = false) (hdone : x.done = false) (hall : layerComplete p x = true)
    (hok : x.stale = true ∨
      jumps p (((sget s.requests k.seq).map (fun q => meanOf q p)).getD p.recordedMean) (rms32 (layerOutputs s p x)) = false) :
    tailEnds k s = stepMod (drainLayer (if x.stale then splitTaken s k p x
      else acceptRms (splitTaken s k p x) k p (rms32 (layerOutputs s p x))) k p x) k
        (fun y => { y with outputs := layerOutputs s p x, done := true }) := by
  unfold tailEnds
  rw [hplan, hx]
  dsimp only
  rw [if_neg (by simp [hwide, hdone, hall]), if_neg]
  rcases hok with h | h <;> simp [h]

theorem tailEnds_jumps {k : LayerKey} {s : State} {p : LayerPlan} {x : LayerStep} (hplan : keyLayer s k = some p)
    (hx : stepGet s k = some x) (hwide : x.wide = false) (hdone : x.done = false) (hall : layerComplete p x = true)
    (hstale : x.stale = false)
    (hj : jumps p (((sget s.requests k.seq).map (fun q => meanOf q p)).getD p.recordedMean) (rms32 (layerOutputs s p x)) = true) :
    tailEnds k s = replayStep (splitTaken s k p x) k .jump := by
  unfold tailEnds
  rw [hplan, hx]
  dsimp only
  rw [if_neg (by simp [hwide, hdone, hall]), if_pos (by simp [hstale, hj])]

theorem acceptRms_frame (s : State) (k : LayerKey) (p : LayerPlan) (r : F32) :
    acceptRms s k p r = { s with requests := (acceptRms s k p r).requests } := rfl

/-- The running mean an accepted output moves on (R171). -/
theorem acceptRms_means {s : State} {k : LayerKey} {p : LayerPlan} {r : F32} {q : Request} (h : sget s.requests k.seq = some q) :
    ∃ q1, sget (acceptRms s k p r).requests k.seq = some q1 ∧
      (inPrefill s k.lane.val = false → (k.node, meanAfter (meanOf q p) r) ∈ q1.means) := by
  have hs := sget_smod_same s.requests k.seq (fun q =>
    if inPrefill s k.lane.val then { q with accepted := q.accepted ++ [(k.node, r)] } else setMean q k.node (meanAfter (meanOf q p) r))
  rw [h] at hs
  refine ⟨_, hs, fun hp => ?_⟩
  simp [hp, setMean]

/-- The states an accepted output passes through change no more than outputs, counts and requests. -/
theorem tailEnds_accepts_frame (s : State) (k : LayerKey) (p : LayerPlan) (x : LayerStep) (b : Bool) (r : F32)
    (f : LayerStep → LayerStep) :
    SameButOutputs s (stepMod (drainLayer (if b then splitTaken s k p x else acceptRms (splitTaken s k p x) k p r) k p x) k f) := by
  have hs := splitTaken_frame s k p x
  have hd := drainLayer_frame (if b then splitTaken s k p x else acceptRms (splitTaken s k p x) k p r) k p x
  unfold SameButOutputs SameButQuartz stepMod at *
  rw [hd]
  split
  · rw [hs]
  · rw [acceptRms_frame, hs]

theorem acceptOutput (k : LayerKey) (s : State) (p : LayerPlan) (x : LayerStep) (mu : F32) (hplan : keyLayer s k = some p)
    (hx : stepGet s k = some x) (hwide : x.wide = false) (hdone : x.done = false) (hall : layerComplete p x = true)
    (hmu : mu = ((sget s.requests k.seq).map (fun q => meanOf q p)).getD p.recordedMean)
    (hok : x.stale = true ∨ jumps p mu (rms32 (layerOutputs s p x)) = false) :
    SameButOutputs s (tailEnds k s) ∧
    stepGet (tailEnds k s) k = some { x with outputs := layerOutputs s p x, done := true, splitDone := x.splitDone || x.split } ∧
    ∀ r, sget s.requests k.seq = some r → ∃ r1, sget (tailEnds k s).requests k.seq = some r1 ∧
      (x.stale = true → r1.means = r.means) ∧
      (x.stale = false → inPrefill s k.lane.val = false → (k.node, meanAfter mu (rms32 (layerOutputs s p x))) ∈ r1.means) := by
  have htail := tailEnds_accepts hplan hx hwide hdone hall (by rw [← hmu]; exact hok)
  have hmid : (if x.stale then splitTaken s k p x else acceptRms (splitTaken s k p x) k p (rms32 (layerOutputs s p x))).layerSteps
      = (splitTaken s k p x).layerSteps := by split <;> rfl
  generalize hm : (if x.stale then splitTaken s k p x else acceptRms (splitTaken s k p x) k p (rms32 (layerOutputs s p x))) = m
    at htail hmid
  have hdrain := drainLayer_frame m k p x
  refine ⟨?_, ?_, fun r hr => ?_⟩
  · rw [htail, ← hm]
    exact tailEnds_accepts_frame ..
  · rw [htail]
    refine (stepGet_stepMod (f := fun y => { y with outputs := layerOutputs s p x, done := true }) (fun _ h => h)).trans ?_
    have hstep : stepGet (drainLayer m k p x) k = some { x with splitDone := x.splitDone || x.split } := by
      refine (congrArg (List.find? _) ?_).trans (splitTaken_step s k p x hx)
      rw [hdrain]
      exact hmid
    rw [hstep]
    rfl
  · obtain ⟨sm, hsm⟩ := splitTaken_means s k p x hr
    have hreq : (tailEnds k s).requests = m.requests := by
      rw [htail]
      exact (congrArg State.requests hdrain).trans rfl
    rw [hreq, ← hm]
    cases hstale : x.stale with
    | true => exact ⟨_, hsm, fun _ => rfl, nofun⟩
    | false =>
      obtain ⟨q1, hq1, hmean⟩ := acceptRms_means (p := p) (r := rms32 (layerOutputs s p x)) hsm
      refine ⟨q1, hq1, nofun, fun _ hp => ?_⟩
      rw [hmu, hr]
      refine hmean (Eq.trans ?_ hp)
      have hf := splitTaken_frame s k p x
      unfold SameButOutputs at hf
      rw [hf]
      rfl

theorem wideCompletes_runs {g node : Nat} {s : State} {p : LayerPlan} {w : Golden} (hplan : layerNow s g node = some p)
    (hgolden : laneGolden s g node = some w) :
    ∃ q, wideCompletes g node s = { s with
      layerSteps := s.layerSteps.map (fun y => (awaitingWide s g node).foldl (wideDone w (inputFormat s g node)) y), requests := q } := by
  unfold wideCompletes
  rw [hplan, hgolden]
  exact wideSteps w (inputFormat s g node) p (awaitingWide s g node) s

theorem drainEnds_idle {n : Nat} {s : State} (h : (quartzGet s n).draining = none) : drainEnds n s = s := by
  unfold drainEnds
  rw [h]

/-- A tile that has drained stands as codes of its format; a tile held drains next (R224). -/
theorem drainEnds_leaves {n : Nat} {s : State} {t : Tile} (h : (quartzGet s n).draining = some t) :
    drainEnds n s = { s with quartz := (drainEnds n s).quartz } ∧
    (t.key, t.first, (t.sums.map compValue).map (toFormat t.format.toNat)) ∈ (quartzGet (drainEnds n s) n).drained ∧
    ((quartzGet s n).held = [] → (quartzGet (drainEnds n s) n).draining = none ∧
      (quartzGet (drainEnds n s) n).sets = (quartzGet s n).sets.set (quartzGet s n).drainSet emptySet) ∧
    (∀ w ws, (quartzGet s n).held = w :: ws →
      (quartzGet (drainEnds n s) n).draining = some w ∧ (quartzGet (drainEnds n s) n).held = ws) := by
  unfold drainEnds
  rw [h]
  dsimp only
  rw [quartzGet_quartzMod, quartzGet_countLayer]
  cases (quartzGet s n).held with
  | nil => exact ⟨rfl, List.mem_append_right _ List.mem_cons_self, fun _ => ⟨rfl, rfl⟩, nofun⟩
  | cons w ws =>
    refine ⟨rfl, List.mem_append_right _ List.mem_cons_self, nofun, fun w1 ws1 heq => ?_⟩
    obtain ⟨rfl, rfl⟩ := List.cons.inj heq
    exact ⟨rfl, rfl⟩

/-- Settles O45: row by row, through what each leaves of the layer step and of the unit it concerns. -/
theorem layerStepsReachTheirOutputs : Obligations.LayerStepsReachTheirOutputs := by
  refine ⟨fun n row s k col rb p ws hawait hplan hrow => ?_, fun n row k s h => congrArg Host.Outcome.next (rowArrives_none h),
    fun k col idx c v s p x hplan hx hwide hdone hidx hunit hnew hv => ?_,
    fun k s p x mu hplan hx hwide hdone hall hmu => ⟨fun hok => ?_, fun hstale hj => ?_⟩,
    fun g nd ex node s p w hnode hplan hgolden => ?_, fun n s t h => ⟨_, rfl, drainEnds_leaves h⟩,
    fun n s h => congrArg Host.Outcome.next (drainEnds_idle h)⟩
  · refine ⟨stepMod s k (fun x => { x with rows := x.rows ++ [(col, rb, row.val, ws)] }),
      congrArg Host.Outcome.next (rowArrives_awaited hawait hplan hrow), rfl, fun x hx => ?_,
      fun k1 hk => stepGet_stepMod_other (f := fun x => { x with rows := x.rows ++ [(col, rb, row.val, ws)] }) (fun _ h => h) hk⟩
    rw [stepGet_stepMod (f := fun x => { x with rows := x.rows ++ [(col, rb, row.val, ws)] }) (fun _ h => h), hx]
    rfl
  · have hkey : x.key = k := stepGet_key hx
    have hmod : ∀ y : LayerStep, y.key = k → { x with partials := x.partials ++ [(col, idx, v)] }.key = k := fun _ _ => hkey
    refine ⟨_, congrArg Host.Outcome.next (partialArrives_joins hplan hx hwide hdone hidx hunit hnew hv), rfl, ?_,
      fun k1 hk => stepGet_stepMod_other hmod hk, quartzGet_quartzMod _ _ _⟩
    exact (stepGet_stepMod hmod).trans (by rw [hx]; rfl)
  · exact ⟨_, rfl, acceptOutput k s p x mu hplan hx hwide hdone hall hmu hok⟩
  · exact congrArg Host.Outcome.next (tailEnds_jumps hplan hx hwide hdone hall hstale (by rw [← hmu]; exact hj))
  · subst hnode
    obtain ⟨q, hq⟩ := wideCompletes_runs hplan hgolden
    refine ⟨_, congrArg Host.Outcome.next hq, rfl, fun x hx y hy hkey => ?_, fun y hy => ?_⟩
    · obtain ⟨y0, -, rfl⟩ := List.mem_map.mp hy
      have hk0 : x.key = y0.key := by rw [← hkey, foldl_wideDone_key]
      obtain ⟨hdone, z, hz, hzk, hout⟩ := foldl_wideDone_same w (inputFormat s g.val (layerNumber nd ex)) hx hk0
      exact ⟨hdone, z, hz, hzk.trans hk0.symm, hout⟩
    · refine List.mem_map.trans ⟨fun ⟨y0, hy0, h⟩ => ?_, fun h => ⟨y, h, foldl_wideDone_other w _ hy⟩⟩
      have hkey : y.key = y0.key := by rw [← h, foldl_wideDone_key]
      rw [foldl_wideDone_other w _ (fun x hx => hkey ▸ hy x hx)] at h
      exact h ▸ hy0

end Sys2Proof.Proofs
end

section
/-! What taking an array out of service leaves of the arrays, and on that the statement on checks and probe slots. -/

namespace Sys2Proof.Proofs
open Sys2Proof Sys2Proof.Machine Sys2Proof.Safety Sys2Proof.Laws

/-! ### Arrays taken out of service (R111, R190) -/

theorem settleDiagnosis_frame (s : State) (n : Nat) : settleDiagnosis s n = { s with sites := (settleDiagnosis s n).sites } := by
  unfold settleDiagnosis
  dsimp only
  split <;> rfl

theorem siteReleased_frame (s : State) (n : Nat) : siteReleased s n = { s with sites := (siteReleased s n).sites } :=
  settleDiagnosis_frame (siteIdle s n) n

theorem startDiagnosis_frame (s : State) (n : Nat) : startDiagnosis s n = { s with sites := (startDiagnosis s n).sites } :=
  settleDiagnosis_frame (siteMod s n (fun x => { x with diagnose := true })) n

theorem finishJobs_arrays (s : State) (answer : Job → Option (Status × Nat × Bytes)) : (finishJobs s answer).arrays = s.arrays :=
  (congrArg State.arrays (finishJobs_frame s answer)).trans rfl

theorem reportOf_arrays (s : State) (kind severity : Nat) (uid : Word) (detail : Bytes) (since : Nat) (op : Option OpInfo) :
    (reportOf s kind severity uid detail since op).arrays = s.arrays :=
  (congrArg State.arrays (reportOf_frame ..)).trans rfl

theorem arrGet_report (s : State) (kind severity : Nat) (uid : Word) (detail : Bytes) (a : Nat) :
    arrGet (report s kind severity uid detail) a = arrGet s a :=
  congrArg (fun m : Store OrArray => sgetD m a {}) (reportOf_arrays s kind severity uid detail 0 none)

theorem arrGet_startDiagnosis (s : State) (n a : Nat) : arrGet (startDiagnosis s n) a = arrGet s a := by
  rw [startDiagnosis_frame]
  rfl

theorem settleCal_arrays (s : State) (a : Nat) : (settleCal s a).arrays = s.arrays := by
  unfold settleCal
  extract_lets st bad busy s1
  split
  · rfl
  · rw [finishJobs_arrays]
    dsimp only [s1]
    split
    · rw [siteReleased_frame]
    · rfl

theorem replaceContents_arrays (s : State) (a : Nat) : (replaceContents s a).arrays = s.arrays := by
  unfold replaceContents
  split <;> rfl

theorem wideLayersOf_lanes (s : State) (a : Nat) : wideLayersOf s a = { s with lanes := (wideLayersOf s a).lanes } := by
  unfold wideLayersOf
  generalize layersOf s a = l
  induction l generalizing s with
  | nil => rfl
  | cons e l ih => exact (ih (wideLayer s e.1 e.2)).trans rfl

theorem wideLayersNext_lanes (s : State) (a : Nat) : wideLayersNext s a = { s with lanes := (wideLayersNext s a).lanes } := by
  unfold wideLayersNext
  generalize layersOf s a = l
  induction l generalizing s with
  | nil => rfl
  | cons e l ih => rw [List.foldl_cons, ih]; rfl

/-- An array as it stands once quarantined. -/
def quarantined (x : OrArray) : OrArray := if x.state = .retired then x else { x with state := .quarantined, staged := none }

theorem quarantined_state (x : OrArray) : (quarantined x).state = .quarantined ∨ x.state = .retired := by
  unfold quarantined
  split
  · next h => exact .inr h
  · exact .inl rfl

theorem quarantineOnly_arrGet (s : State) (a : Nat) : arrGet (quarantineOnly s a) a = quarantined (arrGet s a) := by
  unfold quarantineOnly quarantined
  split
  · rfl
  · refine (congrArg (fun m : Store OrArray => sgetD m a {}) ((replaceContents_arrays _ a).trans (settleCal_arrays _ a))).trans ?_
    refine (arrGet_arrMod (s := wideLayersOf s a) (n := a) _).trans ?_
    rw [wideLayersOf_lanes]
    rfl

theorem quarantineArray_arrGet (s : State) (a : Nat) : arrGet (quarantineArray s a) a = quarantined (arrGet s a) := by
  unfold quarantineArray
  rw [startDiagnosis_frame]
  exact quarantineOnly_arrGet s a

/-! ### Checks (R186–R191) -/

/-- What follows a check's verdict at its array and unit: neither awaits another check, and the count of checks stands. -/
structure SameCheck (a : Nat) (s t : State) : Prop where
  checking : (arrGet t a).checking = (arrGet s a).checking
  failed : (arrGet t a).checkFailed = (arrGet s a).checkFailed
  checks : (quartzGet t (a / 128)).checks = (quartzGet s (a / 128)).checks

section
variable {a : Nat}

theorem SameCheck.refl (s : State) : SameCheck a s s := ⟨rfl, rfl, rfl⟩

theorem SameCheck.trans {s t u : State} (h : SameCheck a s t) (k : SameCheck a t u) : SameCheck a s u :=
  ⟨k.checking.trans h.checking, k.failed.trans h.failed, k.checks.trans h.checks⟩

theorem SameCheck.of_same {s t : State} (ha : t.arrays = s.arrays) (hq : t.quartz = s.quartz) : SameCheck a s t := by
  constructor <;> simp only [arrGet, quartzGet, ha, hq]

theorem SameCheck.of_record {s t : State} (h : SameButRecord s t) : SameCheck a s t :=
  .of_same ((congrArg State.arrays h).trans rfl) ((congrArg State.quartz h).trans rfl)

theorem countLayer_sameCheck (s : State) (g node i n : Nat) : SameCheck a s (countLayer s (a / 128) g node i n) :=
  ⟨rfl, rfl, by rw [quartzGet_countLayer]⟩

theorem quarantined_checking (x : OrArray) : (quarantined x).checking = x.checking := by
  unfold quarantined
  split <;> rfl

theorem quarantined_checkFailed (x : OrArray) : (quarantined x).checkFailed = x.checkFailed := by
  unfold quarantined
  split <;> rfl

theorem quarantineArray_sameCheck (s : State) : SameCheck a s (quarantineArray s a) where
  checking := by rw [quarantineArray_arrGet, quarantined_checking]
  failed := by rw [quarantineArray_arrGet, quarantined_checkFailed]
  checks := by
    have h := congrArg State.quartz (quarantineArray_worked s a).same
    simp only [quartzGet, h]

theorem quarantineArray_probes (s : State) (a : Nat) : (quarantineArray s a).probes = s.probes := by
  have h := (quarantineArray_worked s a).same
  unfold SameButArrays at h
  rw [h]

theorem report_probes (s : State) (kind severity : Nat) (uid : Word) (detail : Bytes) :
    (report s kind severity uid detail).probes = s.probes := (congrArg State.probes (report_frame ..)).trans rfl

/-- A sequence computed again changes its lane's step and its summary alone. -/
theorem recomputeSeq_frame (s : State) (k : LayerKey) :
    recomputeSeq s k = { s with lanes := (recomputeSeq s k).lanes, requests := (recomputeSeq s k).requests } := by
  unfold recomputeSeq
  split <;> rfl

theorem recomputeSeq_arrays (s : State) (k : LayerKey) : (recomputeSeq s k).arrays = s.arrays := by rw [recomputeSeq_frame]

theorem recomputeSeq_sameCheck (s : State) (k : LayerKey) : SameCheck a s (recomputeSeq s k) :=
  .of_same (recomputeSeq_arrays s k) (by rw [recomputeSeq_frame])

/-- The state in which a check's verdict falls: counted, awaited no longer, and a first failure noted. -/
def judged (s : State) (a : Nat) (k : LayerKey) (noted : Option (LayerKey × Nat)) : State :=
  arrMod (countLayer s (a / 128) k.lane.val k.node 6 1) a (fun y => { y with checking := none, checkFailed := noted })

/-- After the verdict no check is awaited; a first failure is noted; a second takes the array out of service (R188–R190). -/
theorem settleCheck_leaves (s : State) (k : LayerKey) (gain : Fin 4) (band : Nat) (es : List Int) (failed : Bool) :
    SameCheck a (judged s a k (if failed && (arrGet s a).checkFailed.isNone then some (k, stepAttempt s k.lane.val) else none))
      (settleCheck s a k gain band es failed) ∧
    (failed = true → (arrGet s a).checkFailed ≠ none →
      (arrGet (settleCheck s a k gain band es failed) a).state = .quarantined ∨ (arrGet s a).state = .retired) := by
  unfold settleCheck
  extract_lets second op count s1
  have hs1 : s1 = judged s a k (if failed && (arrGet s a).checkFailed.isNone then some (k, stepAttempt s k.lane.val) else none) := by
    dsimp only [s1, second, count, judged]
    rw [Option.not_isSome]
  rw [← hs1]
  cases hf : failed with
  | false =>
    refine ⟨?_, nofun⟩
    rw [if_pos (by simp)]
    split
    · exact (countLayer_sameCheck s1 _ _ _ _).trans (.of_record (reportOf_frame ..))
    · exact .refl s1
  | true =>
    rw [if_neg (by simp)]
    cases hsec : (arrGet s a).checkFailed with
    | none =>
      refine ⟨?_, fun _ h => absurd rfl h⟩
      rw [if_pos (by simp [second, hsec])]
      exact recomputeSeq_sameCheck s1 k
    | some v =>
      rw [if_neg (by simp [second, hsec])]
      refine ⟨(countLayer_sameCheck s1 _ _ _ _).trans ((quarantineArray_sameCheck _).trans
        ((SameCheck.of_record (reportOf_frame ..)).trans (recomputeSeq_sameCheck _ k))), fun _ _ => ?_⟩
      have hstate : (arrGet (count s1 8) a).state = (arrGet s a).state := by
        rw [show arrGet (count s1 8) a = arrGet s1 a from rfl, hs1]
        exact (congrArg OrArray.state (arrGet_arrMod (countLayer s (a / 128) k.lane.val k.node 6 1) a _)).trans rfl
      have harr : ∀ t t1 : State, t1.arrays = t.arrays → (arrGet t1 a).state = (arrGet t a).state := fun t t1 h => by
        simp only [arrGet, h]
      rw [harr _ _ (recomputeSeq_arrays _ k), harr _ _ (reportOf_arrays ..), quarantineArray_arrGet,
        ← hstate]
      exact quarantined_state _

/-- A pack once a pattern of it has run on an array. -/
def probeCounted (pack : Nat) (failed : Bool) (y : ProbePack) : ProbePack :=
  if y.number = pack then
    { y with run := y.run + 1, passed := if failed then y.passed else y.passed + 1, failed := if failed then y.failed + 1 else y.failed }
  else y

/-- A probe slot that is judged: its check is awaited no longer, and its pack counts a run (R530). -/
theorem settleProbe_leaves (s : State) (a : ArrayNo) (k : LayerKey) (p : LayerPlan) (q : Pattern) (packs : List ProbePack)
    (golden : List (List F32)) (charges : List (List Int)) :
    (arrGet (settleProbe s a k p q packs golden charges) a.val).checking = none ∧
    (quartzGet (settleProbe s a k p q packs golden charges) (a.val / 128)).checks = (quartzGet s (a.val / 128)).checks ∧
    ∃ failed, (settleProbe s a k p q packs golden charges).probes = packs.map (probeCounted q.pack failed) := by
  unfold settleProbe
  extract_lets x st es failed packs1 again s0 s1 detail s2
  have hchecking : (arrGet s1 a.val).checking = none := congrArg OrArray.checking (arrGet_arrMod _ a.val _)
  have hchecks : (quartzGet s1 (a.val / 128)).checks = (quartzGet s (a.val / 128)).checks :=
    (congrArg Quartz.checks (quartzGet_countLayer s0 (a.val / 128) k.lane.val k.node 6 1)).trans rfl
  have hdone : ∀ t, SameCheck a.val s1 t → t.probes = packs1 → (arrGet t a.val).checking = none ∧
      (quartzGet t (a.val / 128)).checks = (quartzGet s (a.val / 128)).checks ∧
      ∃ failed, t.probes = packs.map (probeCounted q.pack failed) :=
    fun t h hp => ⟨h.checking.trans hchecking, h.checks.trans hchecks, failed, hp⟩
  have hreport : SameCheck a.val s1 s2 := .of_record (report_frame ..)
  have hprobes : s2.probes = packs1 := (congrArg State.probes (report_frame ..)).trans rfl
  split
  · exact hdone s1 (.refl s1) rfl
  · split
    · refine hdone _ (hreport.trans ((countLayer_sameCheck s2 _ _ _ _).trans ((quarantineArray_sameCheck _).trans
        (.of_record (report_frame ..))))) ?_
      exact (report_probes ..).trans ((quarantineArray_probes _ a.val).trans hprobes)
    · exact hdone s2 hreport hprobes

end

section
variable {a : ArrayNo} {s : State} {c : ArrayCheck} {p : LayerPlan} {charges : List (List Int)} {gold : List (List F32)}

theorem checkCompletes_judges (hc : (arrGet s a.val).checking = some c) (hp : keyLayer s c.key = some p)
    (hg : arrayGolden s p c.key.lane.val a.val = some gold) (hslot : isProbeSlot s a.val = false) :
    checkCompletes a c.key charges s = settleCheck (quartzMod s (a.val / 128) (fun q => { q with checks := q.checks + 1 })) a.val c.key p.gain
      (judgeCheck p (arrGet s a.val) a.val c gold).1 (judgeCheck p (arrGet s a.val) a.val c gold).2.1
      (judgeCheck p (arrGet s a.val) a.val c gold).2.2 := by
  unfold checkCompletes
  dsimp only
  rw [hc, Option.filter_some, if_pos (decide_eq_true rfl), Option.bind_some, hp, Option.bind_some, hg, Option.map_some]
  dsimp only
  rw [hslot]
  rfl

theorem checkCompletes_probes {q : Pattern} {packs : List ProbePack} (hc : (arrGet s a.val).checking = some c)
    (hp : keyLayer s c.key = some p) (hg : arrayGolden s p c.key.lane.val a.val = some gold) (hslot : isProbeSlot s a.val = true)
    (hq : nextPattern s (arrGet s a.val) = some (q, packs)) :
    checkCompletes a c.key charges s = if probeMayDrive s (a.val / 8) q then
      settleProbe (quartzMod s (a.val / 128) (fun q => { q with checks := q.checks + 1 })) a c.key p q packs gold charges else s := by
  unfold checkCompletes
  dsimp only
  rw [hc, Option.filter_some, if_pos (decide_eq_true rfl), Option.bind_some, hp, Option.bind_some, hg, Option.map_some]
  dsimp only
  rw [hslot, if_pos rfl, hq]

end

theorem checkCompletes_idle {a : ArrayNo} {s : State} {k : LayerKey} {charges : List (List Int)}
    (h : ∀ c, (arrGet s a.val).checking = some c → c.key ≠ k) : checkCompletes a k charges s = s := by
  unfold checkCompletes
  dsimp only
  have hnone : (arrGet s a.val).checking.filter (fun c => c.key = k) = none := by
    simpa [Option.filter_eq_none_iff] using h
  rw [hnone]
  rfl

/-- Settles O46: what a verdict leaves of the array, its unit and the packs. -/
theorem checksTakeArraysOut : Obligations.ChecksTakeArraysOut := by
  refine ⟨fun a charges s c p gold failed hc hp hg hfailed => ⟨fun hslot => ?_, fun q packs hslot hq => ⟨fun hmay => ?_, fun hmay => ?_⟩⟩,
    fun a k charges s h => congrArg Host.Outcome.next (checkCompletes_idle h), fun s h => ?_, fun s h => ?_⟩
  · have hrun := checkCompletes_judges (charges := charges) hc hp hg hslot
    rw [← hfailed] at hrun
    obtain ⟨hsame, hout⟩ := settleCheck_leaves (a := a.val) (quartzMod s (a.val / 128) (fun q => { q with checks := q.checks + 1 })) c.key p.gain
      (judgeCheck p (arrGet s a.val) a.val c gold).1 (judgeCheck p (arrGet s a.val) a.val c gold).2.1 failed
    have hsteady := settleCheck_steady (s := quartzMod s (a.val / 128) (fun q => { q with checks := q.checks + 1 })) (a := a.val) (k := c.key)
      (gain := p.gain) (band := (judgeCheck p (arrGet s a.val) a.val c gold).1)
      (es := (judgeCheck p (arrGet s a.val) a.val c gold).2.1) (failed := failed)
    refine ⟨_, congrArg Host.Outcome.next hrun, ?_, ?_, hsteady.fuses, hsteady.boot, ?_, hout⟩
    · exact hsame.checking.trans (congrArg OrArray.checking (arrGet_arrMod _ a.val _))
    · refine hsame.checks.trans ((congrArg Quartz.checks (quartzGet_countLayer _ (a.val / 128) _ _ _ _)).trans ?_)
      exact congrArg Quartz.checks (quartzGet_quartzMod s (a.val / 128) _)
    · exact hsame.failed.trans (congrArg OrArray.checkFailed (arrGet_arrMod _ a.val _))
  · have hrun := checkCompletes_probes (charges := charges) hc hp hg hslot hq
    rw [if_pos hmay] at hrun
    obtain ⟨hchecking, hchecks, f, hprobes⟩ := settleProbe_leaves
      (quartzMod s (a.val / 128) (fun q => { q with checks := q.checks + 1 })) a c.key p q packs gold charges
    refine ⟨_, congrArg Host.Outcome.next hrun, hchecking,
      hchecks.trans (congrArg Quartz.checks (quartzGet_quartzMod s (a.val / 128) _)), fun y hy hn => ?_⟩
    have hcounted : probeCounted q.pack f y = { y with
      run := y.run + 1, passed := if f then y.passed else y.passed + 1, failed := if f then y.failed + 1 else y.failed } := if_pos hn
    refine ⟨probeCounted q.pack f y, ?_, ?_, ?_⟩
    · rw [hprobes]
      exact List.mem_map_of_mem hy
    · rw [hcounted]
    · rw [hcounted]
  · have hrun := checkCompletes_probes (charges := charges) hc hp hg hslot hq
    exact congrArg Host.Outcome.next (hrun.trans (if_neg (by simp [hmay])))
  · exact congrArg Host.Outcome.next (if_pos (by simp [isRunning, h]))
  · exact congrArg Host.Outcome.next (if_neg (by simp [isRunning, h]))

end Sys2Proof.Proofs
end

section
/-! Shards that arrive and re-hash passes (R347 to R351): what is held of a generation stays through what its verification leads to. -/

namespace Sys2Proof.Proofs
open Sys2Proof Sys2Proof.Machine Sys2Proof.Safety Sys2Proof.Laws

/-! ### A shard an object holds -/

/-- Whether a generation of a loaded object holds these bytes as a verified shard. -/
def HoldsShard (k : ObjKind) (h gen index : Nat) (b : Bytes) (objects : List LoadedObject) : Prop :=
  ∃ o g y, objects.find? (fun o => o.kind = k ∧ o.handle = h) = some o ∧ o.gens.find? (fun z => z.number = gen) = some g ∧
    g.shards[index]? = some y ∧ y.verified = true ∧ y.bytes = b

/-- A change of generations that leaves their numbers. -/
def ofGens (f : Generation → Generation) (gen : Nat) (o : LoadedObject) : LoadedObject :=
  { o with gens := o.gens.map (fun g => if g.number = gen then f g else g) }

/-- What a map of objects that keeps their names makes of the one that is found. -/
theorem find_map_object {f : LoadedObject → LoadedObject} (hf : ∀ o, (f o).kind = o.kind ∧ (f o).handle = o.handle) (k : ObjKind) (h : Nat)
    (l : List LoadedObject) : (l.map f).find? (fun o => o.kind = k ∧ o.handle = h) = (l.find? (fun o => o.kind = k ∧ o.handle = h)).map f := by
  rw [List.find?_map]
  congr 2
  funext o
  simp [hf o]

/-- What a map of generations that keeps their numbers makes of the one that is found. -/
theorem find_map_generation {f : Generation → Generation} {gen : Nat} (hf : ∀ g, (f g).number = g.number) (n : Nat) (l : List Generation) :
    (l.map (fun g => if g.number = gen then f g else g)).find? (fun g => g.number = n) =
      (l.find? (fun g => g.number = n)).map (fun g => if g.number = gen then f g else g) := by
  rw [List.find?_map]
  congr 2
  funext g
  have hn : (if g.number = gen then f g else g).number = g.number := by split <;> simp [hf]
  simp [hn]

theorem genMod_objects (s : State) (k : ObjKind) (h gen : Nat) (f : Generation → Generation) :
    (genMod s k h gen f).objects = s.objects.map (fun o => if o.kind = k ∧ o.handle = h then ofGens f gen o else o) := rfl

/-- What a generation reads once it is changed. -/
theorem objGet_genMod {s : State} {k : ObjKind} {h gen : Nat} {f : Generation → Generation} {o : LoadedObject} (hget : objGet s k h = some o) :
    objGet (genMod s k h gen f) k h = some (ofGens f gen o) := by
  unfold objGet at *
  rw [genMod_objects, find_map_object (fun o => by split <;> simp [ofGens]), hget]
  exact congrArg some (if_pos (by simpa using List.find?_some hget))

theorem find_ofGens {f : Generation → Generation} {gen : Nat} (hf : ∀ g, (f g).number = g.number) {o : LoadedObject} {g : Generation}
    (hg : o.gens.find? (fun y => y.number = gen) = some g) : (ofGens f gen o).gens.find? (fun y => y.number = gen) = some (f g) := by
  unfold ofGens
  rw [find_map_generation hf, hg]
  exact congrArg some (if_pos (by simpa using List.find?_some hg))

section
variable {k : ObjKind} {h gen index : Nat} {b : Bytes}

/-- A change of a generation that leaves its shards leaves what is held. -/
theorem HoldsShard.genMod {s : State} (hold : HoldsShard k h gen index b s.objects) (k1 : ObjKind) (h1 gen1 : Nat)
    {f : Generation → Generation} (hn : ∀ g, (f g).number = g.number) (hs : ∀ g, (f g).shards = g.shards) :
    HoldsShard k h gen index b (genMod s k1 h1 gen1 f).objects := by
  obtain ⟨o, g, y, ho, hg, hy, hv, hb⟩ := hold
  rw [genMod_objects]
  have ho1 : (s.objects.map (fun o => if o.kind = k1 ∧ o.handle = h1 then ofGens f gen1 o else o)).find?
      (fun o => o.kind = k ∧ o.handle = h) = some (if o.kind = k1 ∧ o.handle = h1 then ofGens f gen1 o else o) := by
    rw [find_map_object (fun o => by split <;> simp [ofGens]), ho]
    rfl
  by_cases hk : o.kind = k1 ∧ o.handle = h1
  · rw [if_pos hk] at ho1
    refine ⟨_, _, y, ho1, (find_map_generation hn gen o.gens).trans (by rw [hg]; rfl), ?_, hv, hb⟩
    dsimp only
    split
    · rw [hs, hy]
    · exact hy
  · rw [if_neg hk] at ho1
    exact ⟨o, g, y, ho1, hg, hy, hv, hb⟩

/-- Another generation that is freed leaves what is held. -/
theorem HoldsShard.freeGen {s : State} (hold : HoldsShard k h gen index b s.objects) {gen1 : Nat} (hne : gen1 ≠ gen) :
    HoldsShard k h gen index b (freeGen s k h gen1).objects := by
  obtain ⟨o, g, y, ho, hg, hy, hv, hb⟩ := hold
  have ho1 := find_map_object (f := fun o => if o.kind = k ∧ o.handle = h then { o with gens := o.gens.filter (fun g => g.number ≠ gen1) } else o)
    (fun o => by split <;> simp) k h s.objects
  rw [ho, Option.map_some, if_pos (by simpa using List.find?_some ho)] at ho1
  refine ⟨_, g, y, ho1, ?_, hy, hv, hb⟩
  dsimp only
  rw [List.find?_filter]
  rw [← hg]
  congr 1
  funext z
  by_cases hz : z.number = gen
  · simp [hz, hne.symm]
  · simp [hz]

theorem finishJobs_objects (s : State) (answer : Job → Option (Status × Nat × Bytes)) : (finishJobs s answer).objects = s.objects :=
  (congrArg State.objects (finishJobs_frame s answer)).trans rfl

theorem answerLoad_objects (s : State) (k : ObjKind) (h gen : Nat) (st : Status) (d : Nat) (r : Bytes) :
    (answerLoad s k h gen st d r).objects = s.objects := finishJobs_objects _ _

/-- What adapters that become usable leave (R368). -/
theorem HoldsShard.adaptersUsable {s : State} (hold : HoldsShard k h gen index b s.objects) :
    HoldsShard k h gen index b (adaptersUsable s).objects := by
  have huse : ∀ (o : LoadedObject) (t : State) (g : Generation), HoldsShard k h gen index b t.objects →
      HoldsShard k h gen index b (useAdapter o t g).objects := fun o t g ht => by
    unfold useAdapter
    rw [answerLoad_objects]
    exact ht.genMod _ _ _ (fun _ => rfl) (fun _ => rfl)
  exact List.foldlRecOn (motive := fun t : State => HoldsShard k h gen index b t.objects) _ _ hold fun t ht o _ =>
    List.foldlRecOn (motive := fun t : State => HoldsShard k h gen index b t.objects) _ _ ht fun t ht g _ => huse o t g ht

/-- What a generation that is verified leads to leaves what is held of it (R348, R368). -/
theorem HoldsShard.generationVerified {s : State} (hold : HoldsShard k h gen index b s.objects) (hk : k ≠ .store) {g : Generation}
    (hg : g.number = gen) : HoldsShard k h gen index b (generationVerified s k h g).objects := by
  unfold Machine.generationVerified
  rw [if_neg (fun hs => hk hs.1)]
  split
  · next hadapter =>
    subst hadapter
    split
    · unfold adaptersAtRest
      split
      · exact hold
      · exact hold.adaptersUsable
    · exact hold.genMod _ _ _ (fun _ => rfl) (fun _ => rfl)
  · dsimp only
    split
    · exact hold
    · next o _ =>
      have hset : ∀ (r : Bytes), HoldsShard k h gen index b
          (answerLoad (Machine.genMod s k h g.number (fun x => { x with state := verifiedState k })) k h g.number .ok 0 r).objects := fun r => by
        rw [answerLoad_objects]
        exact hold.genMod _ _ _ (fun _ => rfl) (fun _ => rfl)
      split
      · exact hset _
      · split
        · refine List.foldlRecOn (motive := fun t : State => HoldsShard k h gen index b t.objects) _ _ (hset _) fun t ht x hx => ?_
          exact ht.freeGen (by simpa [hg] using (List.mem_filter.mp hx).2)
        · exact hold

end

/-! ### Arrivals (R348) -/

section
variable {k : ObjKind} {h : Nat} {r : ShardRef} {s : State} {o : LoadedObject} {g : Generation} {x : Shard}

/-- A shard that has not been verified, among those of a generation an object holds. -/
structure Awaited (k : ObjKind) (h : Nat) (r : ShardRef) (s : State) (o : LoadedObject) (g : Generation) (x : Shard) : Prop where
  object : objGet s k h = some o
  generation : o.gens.find? (fun y => y.number = r.generation) = some g
  shard : g.shards[r.index]? = some x
  unverified : x.verified = false

theorem Awaited.number (a : Awaited k h r s o g x) : g.number = r.generation := by
  simpa using List.find?_some a.generation

theorem Awaited.unread (a : Awaited k h r s o g x) (hstate : g.state = 1) :
    shardArrive k h r none s = abandonGen s k h r.generation .notFound 0 := by
  unfold shardArrive
  dsimp only
  rw [a.object, Option.bind_some, a.generation]
  dsimp only
  rw [a.shard, Option.filter_some, if_pos (by simp [a.unverified])]
  dsimp only
  rw [if_pos hstate, a.number]

theorem Awaited.mismatch (a : Awaited k h r s o g x) {b : Bytes} (hb : b.length ≠ x.length ∨ sha256 b ≠ x.digest) :
    shardArrive k h r (some b) s = if x.failedOnce then
        (if g.state = 1 then abandonGen s k h r.generation .integrityFail 0 else sourceReport s h r.index x .integrityFail)
      else requestShard k h r.generation (forgetFetch
        (genMod s k h r.generation (fun y => { y with shards := lmod y.shards r.index (fun z => { z with failedOnce := true }) }))
        (fun f => decide (f = (k, h, r.generation, r.index)))) (r.index, x) := by
  unfold shardArrive
  dsimp only
  rw [a.object, Option.bind_some, a.generation]
  dsimp only
  rw [a.shard, Option.filter_some, if_pos (by simp [a.unverified])]
  dsimp only
  rw [if_neg (fun hm => hb.elim (· hm.1) (· hm.2)), a.number]

/-- A shard as it stands once its bytes are verified. -/
def verifiedShard (s : State) (g : Generation) (x : Shard) (b : Bytes) (y : Shard) : Shard :=
  { y with verified := true, bytes := b, inMemoryTier := (arrivalStack s g x).isSome, stack := (arrivalStack s g x).getD y.stack
           home := y.home || (arrivalStack s g x).isSome }

/-- A generation once a shard of it is verified. -/
def withVerified (s : State) (g : Generation) (x : Shard) (b : Bytes) (index : Nat) (y : Generation) : Generation :=
  { y with shards := lmod y.shards index (verifiedShard s g x b) }

/-- A generation read again is the one of its number. -/
theorem generationNow_number (s : State) (k : ObjKind) (h : Nat) {n : Nat} {g : Generation} (hg : g.number = n) :
    (((objGet s k h).bind (fun o => o.gens.find? (fun y => y.number = n))).getD g).number = n := by
  cases hf : (objGet s k h).bind (fun o => o.gens.find? (fun y => y.number = n)) with
  | none => exact hg
  | some y =>
    obtain ⟨o, -, ho⟩ := Option.bind_eq_some_iff.mp hf
    simpa using List.find?_some ho

/-- The state once a shard that matches has been taken, before what its generation then comes to (R348, R358). -/
def arrived (s : State) (k : ObjKind) (h : Nat) (r : ShardRef) (g : Generation) (x : Shard) (b : Bytes) : State :=
  if x.home && (arrivalStack s g x).isNone then
    forceBuild (forgetFetch (genMod s k h r.generation (withVerified s g x b r.index)) (fun f => decide (f = (k, h, r.generation, r.index)))) .objects
  else forgetFetch (genMod s k h r.generation (withVerified s g x b r.index)) (fun f => decide (f = (k, h, r.generation, r.index)))

/-- A generation read again. -/
def generationNow (s : State) (k : ObjKind) (h n : Nat) (g : Generation) : Generation :=
  ((objGet s k h).bind (fun o => o.gens.find? (fun y => y.number = n))).getD g

/-- What a shard taken leads to: the last of a loading generation verifies it. -/
def generationSettles (s : State) (k : ObjKind) (h n : Nat) (g : Generation) : State :=
  if (generationNow s k h n g).state = 1 ∧ (generationNow s k h n g).shards.all (·.verified) then
    generationVerified s k h (generationNow s k h n g)
  else s

theorem Awaited.matched (a : Awaited k h r s o g x) {b : Bytes} (hlen : b.length = x.length) (hsha : sha256 b = x.digest)
    (hfault : shardFault s k h g r.index b = none) :
    shardArrive k h r (some b) s = generationSettles (arrived s k h r g x b) k h r.generation g := by
  unfold shardArrive
  dsimp only
  rw [a.object, Option.bind_some, a.generation]
  dsimp only
  rw [a.shard, Option.filter_some, if_pos (by simp [a.unverified])]
  dsimp only
  rw [if_pos ⟨hlen, hsha⟩, hfault, a.number]
  rfl

/-- A shard that matches is held, whatever its generation then comes to. -/
theorem Awaited.arrives (a : Awaited k h r s o g x) (hk : k ≠ .store) {b : Bytes} (hlen : b.length = x.length)
    (hsha : sha256 b = x.digest) (hfault : shardFault s k h g r.index b = none) :
    HoldsShard k h r.generation r.index b (shardArrive k h r (some b) s).objects := by
  have hheld : HoldsShard k h r.generation r.index b (genMod s k h r.generation (withVerified s g x b r.index)).objects := by
    refine ⟨_, _, verifiedShard s g x b x, objGet_genMod a.object, find_ofGens (f := withVerified s g x b r.index) (fun _ => rfl) a.generation,
      ?_, rfl, rfl⟩
    exact (List.getElem?_modify_eq ..).trans (by rw [a.shard]; rfl)
  have htaken : HoldsShard k h r.generation r.index b (arrived s k h r g x b).objects := by
    unfold arrived
    split <;> exact hheld
  rw [a.matched hlen hsha hfault]
  unfold generationSettles
  split
  · exact htaken.generationVerified hk (generationNow_number _ k h a.number)
  · exact htaken

end

/-! ### Passes (R350, R351) -/

section
variable {k : ObjKind} {h : Nat} {r : ShardRef} {s : State} {o : LoadedObject} {g : Generation} {x : Shard}

/-- A shard the pass of a generation has not read yet. -/
structure Unread (k : ObjKind) (h : Nat) (r : ShardRef) (s : State) (o : LoadedObject) (g : Generation) (x : Shard) : Prop where
  object : objGet s k h = some o
  generation : o.gens.find? (fun y => y.number = r.generation) = some g
  shard : g.shards[r.index]? = some x
  mode : g.mode ≠ 1
  loaded : g.state ≠ 1
  verified : x.verified = true
  unread : x.rehashed = false

theorem Unread.number (a : Unread k h r s o g x) : g.number = r.generation := by
  simpa using List.find?_some a.generation

/-- While a shard is unread the pass goes on. -/
theorem Unread.passBegins (a : Unread k h r s o g x) : passBegins s g = g := by
  unfold Machine.passBegins
  refine if_neg fun hall => ?_
  have hx := List.all_eq_true.mp hall.1 x (List.mem_of_getElem? a.shard)
  rw [a.unread] at hx
  cases hx

/-- What is read of a shard decides between a match, a mismatch the second hash does not repeat, and a lasting one. -/
theorem Unread.rehash (a : Unread k h r s o g x) (loc : HbmLoc) (b again : Bytes) :
    rehashShard k h r loc b again s =
      if sha256 b = x.digest then shardRehashed s k h g r.index false
      else if sha256 again = x.digest then
        report (shardRehashed s k h g r.index true) 0x16 1 (hbmUid loc.quarter.val loc.stack.val loc.pseudo.val)
          (padTo 8 (leBytes 2 h ++ leBytes 2 r.index) ++ leBytes 1 2)
      else if x.inMemoryTier then contain s 0x17 (hbmUid loc.quarter.val loc.stack.val loc.pseudo.val)
        (padTo 8 (leBytes 2 h ++ leBytes 2 r.index) ++ leBytes 1 2) none
      else sourceReport (shardRehashed s k h g r.index false) h r.index x .integrityFail := by
  unfold rehashShard
  dsimp only
  rw [a.object, Option.bind_some, a.generation, Option.map_some, a.passBegins]
  dsimp only
  rw [a.shard]
  dsimp only
  rw [if_neg (by simp [a.mode, a.loaded, a.verified, a.unread])]

/-- A match of the last unread shard completes the pass (R350). -/
theorem Unread.completes (a : Unread k h r s o g x) (hothers : ∀ j y, j ≠ r.index → g.shards[j]? = some y → y.rehashed = true) :
    shardRehashed s k h g r.index false = genMod s k h r.generation (fun _ => { g with
      shards := lmod g.shards r.index (fun y => { y with rehashed := true }),
      rehash := if g.rehashTransient then 2 else 1, rehashTransient := false }) := by
  have hread : ∀ y ∈ lmod g.shards r.index (fun y => { y with rehashed := true }), y.rehashed = true := by
    intro y hy
    obtain ⟨j, hj⟩ := List.mem_iff_getElem?.mp hy
    unfold lmod at hj
    rw [List.getElem?_modify] at hj
    obtain ⟨z, hz, hzy⟩ := Option.map_eq_some_iff.mp hj
    by_cases hij : r.index = j
    · rw [if_pos hij] at hzy
      rw [← hzy]
    · rw [if_neg hij] at hzy
      exact hzy ▸ hothers j z (Ne.symm hij) hz
  have hnone : ∀ l : List Shard, (∀ y ∈ l, y.rehashed = true) → (numbered l).find? (fun e => !e.2.rehashed) = none := fun l hl =>
    List.find?_eq_none.mpr fun e he => by simp [hl e.2 (List.of_mem_zip he).2]
  unfold shardRehashed
  dsimp only
  rw [if_pos (List.all_eq_true.mpr hread)]
  dsimp only
  rw [hnone _ hread, Bool.or_false, a.number]

/-- A generation in MEMORY mode is not hashed again. -/
theorem rehashShard_memory {loc : HbmLoc} {b again : Bytes} (hget : objGet s k h = some o)
    (hgen : o.gens.find? (fun y => y.number = r.generation) = some g) (hx : g.shards[r.index]? = some x) (hmode : g.mode = 1) :
    rehashShard k h r loc b again s = s := by
  have hpass : (passBegins s g).mode = 1 := by
    unfold Machine.passBegins
    split <;> exact hmode
  unfold rehashShard
  dsimp only
  rw [hget, Option.bind_some, hgen, Option.map_some]
  dsimp only
  cases (passBegins s g).shards[r.index]? with
  | none => rfl
  | some y => exact if_pos (.inl hpass)

end

/-- Settles O43: arrivals by what they leave held, passes by their three outcomes. -/
theorem shardsAreHashed : Obligations.ShardsAreHashed := by
  intro k h r s o g x hrun hpower hget hgen hx
  have hgate : isRunning s ∧ s.power.state ≠ .dormant := ⟨by simp [isRunning, hrun], hpower⟩
  have harrival : ∀ b, exec (.shardArrival k h r b) s = .next (shardArrive k h.val r b s) :=
    fun b => congrArg Host.Outcome.next (if_pos hgate)
  have hrehash : ∀ loc b again, exec (.rehash k h r loc b again) s = .next (rehashShard k h.val r loc b again s) :=
    fun loc b again => congrArg Host.Outcome.next (if_pos hgate)
  refine ⟨fun hv hk b hlen hsha hfault => ?_, fun hv hstate => ?_, fun hv honce b hb => ?_, fun hv hstate honce b hb => ?_,
    fun hmode hstate hv hun loc b again hsha hothers => ?_, fun hmode hstate hv hun loc b again hsha hagain => ?_,
    fun hmode hstate hv hun loc b again hsha hagain => ?_, fun hmode loc b again => ?_⟩
  · obtain ⟨o1, g1, y, ho, hg, hy, hver, hbytes⟩ := Awaited.arrives ⟨hget, hgen, hx, hv⟩ hk hlen hsha hfault
    have hsteady := shardArrive_steady (k := k) (h := h.val) (r := r) (bytes := some b) (s := s)
    exact ⟨_, o1, g1, y, harrival _, hsteady.fuses, hsteady.boot, ho, hg, hy, hver, hbytes⟩
  · rw [harrival, Awaited.unread ⟨hget, hgen, hx, hv⟩ hstate]
  · rw [harrival, Awaited.mismatch ⟨hget, hgen, hx, hv⟩ hb, if_neg (by simp [honce])]
  · rw [harrival, Awaited.mismatch ⟨hget, hgen, hx, hv⟩ hb, if_pos honce, if_pos hstate]
  · have hunread : Unread k h.val r s o g x := ⟨hget, hgen, hx, hmode, hstate, hv, hun⟩
    rw [hrehash, hunread.rehash, if_pos hsha, hunread.completes hothers]
  · rw [hrehash, Unread.rehash ⟨hget, hgen, hx, hmode, hstate, hv, hun⟩, if_neg hsha, if_pos hagain]
  · rw [hrehash, Unread.rehash ⟨hget, hgen, hx, hmode, hstate, hv, hun⟩, if_neg hsha, if_neg hagain]
  · rw [hrehash, rehashShard_memory hget hgen hx hmode]

end Sys2Proof.Proofs
end

section
/-! Calibrations: when they fall due, start, converge or fail (R118 to R141), through what the release of a site leaves of it. -/

namespace Sys2Proof.Proofs
open Sys2Proof Sys2Proof.Machine Sys2Proof.Safety Sys2Proof.Laws

/-! ### Sites released -/

theorem boundaryDelay_frame (s : State) (n : Nat) : boundaryDelay s n = { s with sites := (boundaryDelay s n).sites } := by
  unfold boundaryDelay
  dsimp only
  split <;> rfl

theorem boundaryDelay_nextDelay (s : State) (n : Nat) : (siteGet (boundaryDelay s n) n).nextDelay = (siteGet s n).nextDelay := by
  unfold boundaryDelay
  dsimp only
  split
  · rfl
  · rw [siteGet_siteMod]

theorem diagnosisStarts_nextDelay (r : Bool) (x : Site) : (diagnosisStarts r x).nextDelay = x.nextDelay := by
  unfold diagnosisStarts setDiagWords
  split <;> rfl

theorem settleSwap_nextDelay (x : Site) : (settleSwap x).nextDelay = x.nextDelay := by
  unfold settleSwap advanceSpare
  split_ifs <;> rfl

/-- A diagnosis that waits starts at a site, or the site stays as it is. -/
theorem siteGet_settleDiagnosis (s : State) (n : Nat) :
    siteGet (settleDiagnosis s n) n = siteGet s n ∨ ∃ r, siteGet (settleDiagnosis s n) n = diagnosisStarts r (siteGet s n) := by
  unfold settleDiagnosis
  dsimp only
  split
  · exact .inr ⟨_, siteGet_siteMod _ _ _⟩
  · exact .inl rfl

theorem siteReleased_arrays (s : State) (n : Nat) : (siteReleased s n).arrays = s.arrays := by rw [siteReleased_frame]

theorem siteReleased_nextDelay (s : State) (n : Nat) : (siteGet (siteReleased s n) n).nextDelay = (siteGet s n).nextDelay := by
  have hidle : (siteGet (siteIdle s n) n).nextDelay = (siteGet s n).nextDelay := by
    unfold siteIdle
    rw [siteGet_siteMod, settleSwap_nextDelay]
  unfold siteReleased
  rcases siteGet_settleDiagnosis (siteIdle s n) n with h | ⟨r, h⟩
  · rw [h, hidle]
  · rw [h, diagnosisStarts_nextDelay, hidle]

section
variable (s : State) (n a : Nat)

theorem raiseDelay_frame (d : Nat) : raiseDelay s n d = { s with sites := (raiseDelay s n d).sites } := by
  unfold raiseDelay
  dsimp only
  split
  · rfl
  · rw [boundaryDelay_frame]
    rfl

theorem raiseDelay_nextDelay (d : Nat) : (siteGet (raiseDelay s n d) n).nextDelay = max (siteGet s n).nextDelay (min 12 d) := by
  unfold raiseDelay
  dsimp only
  split
  · rw [siteGet_siteMod]
  · rw [boundaryDelay_nextDelay, siteGet_siteMod]

/-- A released calibration leaves the rest of its array (R119). -/
theorem arrGet_releaseCal : arrGet (releaseCal s n a) a = { arrGet s a with state := restState s a, fit := [], zeroCodes := [] } := by
  refine (congrArg (fun m : Store OrArray => sgetD m a {}) (siteReleased_arrays _ n)).trans ?_
  exact arrGet_arrMod s a _

theorem releaseCal_frame : releaseCal s n a = { s with arrays := (releaseCal s n a).arrays, sites := (releaseCal s n a).sites } := by
  unfold releaseCal
  rw [siteReleased_frame]
  rfl

theorem releaseCal_nextDelay : (siteGet (releaseCal s n a) n).nextDelay = (siteGet s n).nextDelay := siteReleased_nextDelay _ n

/-- An array as it stands once retired. -/
theorem arrGet_retireArray : arrGet (retireArray s a) a = { arrGet s a with state := .retired, staged := none, reprogram := false } := by
  unfold retireArray
  refine (congrArg (fun m : Store OrArray => sgetD m a {}) ((replaceContents_arrays _ a).trans (settleCal_arrays _ a))).trans ?_
  refine (arrGet_arrMod (wideLayersNext s a) a _).trans ?_
  rw [wideLayersNext_lanes]
  rfl

theorem arrGet_answerCal (st : Status) (r : Bytes) (b : Nat) : arrGet (answerCal s a st r) b = arrGet s b :=
  congrArg (fun m : Store OrArray => sgetD m b {}) (finishJobs_arrays _ _)

theorem siteGet_answerCal (st : Status) (r : Bytes) (b : Nat) : siteGet (answerCal s a st r) b = siteGet s b :=
  congrArg (fun m : Store Site => sgetD m b {}) ((congrArg State.sites (finishJobs_frame _ _)).trans rfl)

/-- Recovery settled leaves what a calibration found. -/
theorem settleRecovered_leaves : ∃ o : OrArray, arrGet (settleRecovered s a) a = { arrGet s a with
    recovering := o.recovering, ownerKind := o.ownerKind, owner := o.owner, generation := o.generation, due := o.due } := by
  unfold settleRecovered
  rw [arrGet_arrMod]
  split
  · exact ⟨{ arrGet s a with recovering := false, ownerKind := 0, owner := 0, generation := 0, due := false }, rfl⟩
  · exact ⟨arrGet s a, rfl⟩

end

/-! ### Due times and gaps (R126, R129) -/

theorem calibrationFallsDue_due {s : State} {a : Nat}
    (h : (arrGet s a).active = none ∨ (arrGet s a).activatedAt + intervalMs s a * 1000000 ≤ hostTime s) :
    calibrationFallsDue a s = arrMod s a (fun y => { y with due := true }) := by
  unfold calibrationFallsDue
  exact if_pos (h.imp (by simp [·]) id)

theorem calibrationFallsDue_waits {s : State} {a : Nat} (hactive : (arrGet s a).active ≠ none)
    (h : hostTime s < (arrGet s a).activatedAt + intervalMs s a * 1000000) : calibrationFallsDue a s = s := by
  unfold calibrationFallsDue
  exact if_neg (by simp [hactive, h])

theorem startPrograms_none {s : State} (h : s.planner.waiting = none) : startPrograms s = s := by
  unfold startPrograms
  rw [h]

theorem programAgain_unwanted {s : State} {a : Nat} (h : wantsProgram (arrGet s a) = false) : programAgain s a = s := by
  unfold programAgain
  exact if_neg (by simp [h])

/-- The array whose turn it is lies at the site. -/
theorem nextDue_site {s : State} {may : Nat → Bool} {n a : Nat} (h : nextDue s may n = some a) : a / 8 = n := by
  have hmem : ∀ b ∈ ((List.range 8).map (fun i => 8 * n + i)).filter (fun a => may a && calWanted s a), b / 8 = n := fun b hb => by
    obtain ⟨i, hi, rfl⟩ := List.mem_map.mp (List.mem_filter.mp hb).1
    have := List.mem_range.mp hi
    omega
  refine List.foldlRecOn (motive := fun m : Option Nat => ∀ b, m = some b → b / 8 = n) _ _ (fun b hb => by cases hb) (fun m hm c hc b hb => ?_) a h
  cases m with
  | none => exact Option.some.inj hb ▸ hmem c hc
  | some d =>
    dsimp only at hb
    split at hb
    · exact Option.some.inj hb ▸ hmem c hc
    · exact hm b hb

/-- A calibration that starts has its array and its site in the Connect phase of round 1 (R119). -/
theorem startCalibration_leaves (s : State) (a : Nat) :
    startCalibration s a = { s with arrays := (startCalibration s a).arrays, sites := (startCalibration s a).sites,
                                    jobs := (startCalibration s a).jobs } ∧
    (arrGet (startCalibration s a) a).state = .calibrating ∧
    (siteGet (startCalibration s a) (a / 8)).activity = .calibrating a 1 s.now ∧
    (siteGet (startCalibration s a) (a / 8)).entries = serviceTable (arrayGain s a) true := by
  unfold startCalibration
  dsimp only
  rw [siteGet_siteMod]
  refine ⟨rfl, ?_, rfl, rfl⟩
  exact (congrArg OrArray.state (arrGet_arrMod s a (fun x => { x with
    state := .calibrating, due := false, calTemp := diodeTop s (a / 524288), fit := [], zeroCodes := [] }))).trans rfl

/-- A gap of a site for which no programming waits. -/
theorem calibrationGap_calibrates {s : State} {n a : Nat} (hrun : s.boot.state = .running) (hpower : s.power.state ≠ .dormant)
    (hwaiting : s.planner.waiting = none) (hprog : ∀ i < 8, wantsProgram (arrGet s (8 * n + i)) = false) (hfree : siteFree s n = true)
    (hmay : mayWork s n (.calibrating 0 0 0) = true) (hunit : unitActive s (n / 16) isCalibrating = false)
    (hnext : nextDue s (fun a => !holdArray s a) n = some a) : calibrationGap n s = startCalibration s a := by
  have hagain : ∀ l : List Nat, (∀ b ∈ l, wantsProgram (arrGet s b) = false) → l.foldl programAgain s = s := fun l hl =>
    List.foldlRecOn (motive := fun t => t = s) l programAgain rfl fun t ht b hb => by
      rw [ht, programAgain_unwanted (hl b hb)]
  unfold calibrationGap
  rw [if_neg (by simp [isRunning, hrun, hpower])]
  dsimp only
  rw [startPrograms_none hwaiting, hagain]
  · unfold calibrateSite
    rw [if_pos ⟨hfree, hmay, by simp [hunit]⟩, hnext]
  · intro b hb
    obtain ⟨i, hi, rfl⟩ := List.mem_map.mp hb
    exact hprog i (List.mem_range.mp hi)

/-! ### How a calibration ends (R121, R122, R133–R138) -/

/-- The table a calibration that has converged gives (R138). -/
def calTable (x : OrArray) (fit : List (Nat × Int)) (rounds sigma : Nat) : CalTable := ⟨fit, rounds, rneInt x.calTemp 8, sigma⟩

theorem inService_raiseDelay (s : State) (n d a : Nat) : inService (raiseDelay s n d) a = inService s a := by
  rw [raiseDelay_frame]
  rfl

theorem arrGet_raiseDelay (s : State) (n d a : Nat) : arrGet (raiseDelay s n d) a = arrGet s a := by
  rw [raiseDelay_frame]
  rfl

theorem settleRecovered_sites (s : State) (a : Nat) : (settleRecovered s a).sites = s.sites := rfl

theorem activateTable_sites (s : State) (a : Nat) : (activateTable s a).sites = s.sites := rfl

/-- A calibration that converges: its table staged for an array in service, else active (R138); the delay raised (R93). -/
theorem calibrationDone_leaves (s : State) (n a rounds sigma : Nat) (fit : List (Nat × Int)) (d : Nat) :
    (arrGet (calibrationDone s n a rounds sigma fit d) a).result = 1 ∧
    (arrGet (calibrationDone s n a rounds sigma fit d) a).sigma = sigma ∧
    (arrGet (calibrationDone s n a rounds sigma fit d) a).retry = none ∧
    (arrGet (calibrationDone s n a rounds sigma fit d) a).calibrated = true ∧
    (siteGet (calibrationDone s n a rounds sigma fit d) n).nextDelay = max (siteGet s n).nextDelay (min 12 d) ∧
    (inService s a = true → (arrGet (calibrationDone s n a rounds sigma fit d) a).staged = some (calTable (arrGet s a) fit rounds sigma) ∧
      (arrGet (calibrationDone s n a rounds sigma fit d) a).active = (arrGet s a).active) ∧
    (inService s a = false → (arrGet (calibrationDone s n a rounds sigma fit d) a).active = some (calTable (arrGet s a) fit rounds sigma) ∧
      (arrGet (calibrationDone s n a rounds sigma fit d) a).staged = none) := by
  unfold calibrationDone
  extract_lets t s1 s2
  rw [arrGet_answerCal, siteGet_answerCal]
  have ht : arrGet t a = arrGet s a := arrGet_raiseDelay s n d a
  have hs1 : arrGet s1 a = { arrGet s a with
      state := restState t a, fit := [], zeroCodes := [], staged := some (calTable (arrGet s a) fit rounds sigma)
      result := 1, sigma := sigma, retry := none, calibrated := true, gains := fit.map (·.1) } := by
    refine (arrGet_arrMod (releaseCal t n a) a _).trans ?_
    rw [arrGet_releaseCal, ht]
    rfl
  have hdelay : (siteGet s1 n).nextDelay = max (siteGet s n).nextDelay (min 12 d) :=
    (releaseCal_nextDelay t n a).trans (raiseDelay_nextDelay s n d)
  have hservice : inService t a = inService s a := inService_raiseDelay s n d a
  have hs2 : s2 = settleRecovered (if inService t a then s1 else activateTable s1 a) a := rfl
  clear_value s2 s1 t
  have hsites : s2.sites = s1.sites := by
    rw [hs2, settleRecovered_sites]
    split
    · rfl
    · exact activateTable_sites s1 a
  obtain ⟨o, ho⟩ := settleRecovered_leaves (if inService t a then s1 else activateTable s1 a) a
  rw [← hs2] at ho
  rw [show siteGet s2 n = siteGet s1 n from congrArg (fun m : Store Site => sgetD m n {}) hsites, ho]
  cases hin : inService s a with
  | true =>
    rw [if_pos (hservice.trans hin), hs1]
    exact ⟨rfl, rfl, rfl, rfl, hdelay, fun _ => ⟨rfl, rfl⟩, nofun⟩
  | false =>
    have hact : arrGet (activateTable s1 a) a = _ := arrGet_arrMod s1 a _
    rw [if_neg (by rw [hservice, hin]; exact Bool.false_ne_true), hact, hs1]
    exact ⟨rfl, rfl, rfl, rfl, hdelay, nofun, fun _ => ⟨rfl, rfl⟩⟩

/-- A first timeout leaves a retry pending (R134). -/
theorem calibrationFails_first {s : State} {n a rounds : Nat} (h : (arrGet s a).retry = none) :
    calibrationFails s n a rounds = { s with arrays := (calibrationFails s n a rounds).arrays, sites := (calibrationFails s n a rounds).sites } ∧
    (arrGet (calibrationFails s n a rounds) a).result = 2 ∧ (arrGet (calibrationFails s n a rounds) a).retry = some rounds ∧
    (arrGet (calibrationFails s n a rounds) a).active = (arrGet s a).active := by
  unfold calibrationFails
  dsimp only
  rw [h]
  dsimp only
  rw [arrGet_arrMod, arrGet_releaseCal]
  refine ⟨?_, rfl, rfl, rfl⟩
  rw [releaseCal_frame]
  rfl

/-- A second timeout retires the array (R135). -/
theorem calibrationFails_second {s : State} {n a rounds : Nat} (h : (arrGet s a).retry ≠ none) :
    (arrGet (calibrationFails s n a rounds) a).result = 3 ∧ (arrGet (calibrationFails s n a rounds) a).state = .retired ∧
    (arrGet (calibrationFails s n a rounds) a).staged = none := by
  obtain ⟨first, hfirst⟩ := Option.ne_none_iff_exists'.mp h
  unfold calibrationFails
  dsimp only
  rw [hfirst]
  dsimp only
  rw [arrGet_report, arrGet_retireArray, arrGet_answerCal, arrGet_arrMod]
  exact ⟨rfl, rfl, rfl⟩

section
variable {s : State} {n a r t : Nat} {charges check : List (List Int)} {timer delay : Nat}

/-- A round counts its saturated conversions at the site. -/
def roundCounted (s : State) (n : Nat) (g : Fin 4) (charges check : List (List Int)) : State :=
  siteMod s n (fun y => countSat y (sweepSaturations (charges.map (sweepCodes g) ++ check.map (sweepCodes g))))

/-- The codes of a calibration's sweeps so far (R119, R122). -/
def roundCodes (s : State) (a r : Nat) (charges : List (List Int)) : List (List Int) :=
  (if r = 1 then [] else (arrGet s a).zeroCodes) ++ charges.map (fun c => (sweepCodes (arrayGain s a) c).map (·.1))

/-- The three ends of a round (R121, R122, R133). -/
theorem roundEnds_cases (hat : calibrationAt s n = some (a, r, t)) : roundEnds n charges check timer delay s =
    if converged (arrGet s a) (arrayGain s a) (fitArray (arrGet s a) (arrayGain s a) (roundCodes s a r charges))
        (fitSigma (arrGet s a) (arrayGain s a) (fitArray (arrGet s a) (arrayGain s a) (roundCodes s a r charges)) (roundCodes s a r charges))
        (check.map (fun c => (sweepCodes (arrayGain s a) c).map (·.1))) then
      calibrationDone (roundCounted s n (arrayGain s a) charges check) n a r
        (fitSigma (arrGet s a) (arrayGain s a) (fitArray (arrGet s a) (arrayGain s a) (roundCodes s a r charges)) (roundCodes s a r charges))
        (fitArray (arrGet s a) (arrayGain s a) (roundCodes s a r charges)) delay
    else if timer ≤ 175000 then
      arrMod (siteMod (roundCounted s n (arrayGain s a) charges check) n (fun y => { y with activity := .calibrating a (r + 1) t })) a
        (fun y => { y with fit := fitArray (arrGet s a) (arrayGain s a) (roundCodes s a r charges), zeroCodes := (roundCodes s a r charges).take 16 })
    else calibrationFails (roundCounted s n (arrayGain s a) charges check) n a r := by
  have hcodes : (if r = 1 then [] else (arrGet s a).zeroCodes) ++ (charges.map (sweepCodes (arrayGain s a))).map (fun sw => sw.map (·.1)) =
      roundCodes s a r charges := by
    unfold roundCodes
    simp only [List.map_map, Function.comp_def]
  have hchecks : (check.map (sweepCodes (arrayGain s a))).map (fun sw => sw.map (·.1)) =
      check.map (fun c => (sweepCodes (arrayGain s a) c).map (·.1)) := by
    simp only [List.map_map, Function.comp_def]
  unfold roundEnds
  rw [hat]
  dsimp only
  rw [hcodes, hchecks]
  rfl

theorem calibrationTimesOut_late (hat : calibrationAt s n = some (a, r, t)) (h : t + 237500 ≤ s.now) :
    calibrationTimesOut n s = calibrationFails s n a r := by
  unfold calibrationTimesOut
  rw [hat]
  exact if_pos h

theorem calibrationTimesOut_early (hat : calibrationAt s n = some (a, r, t)) (h : s.now < t + 237500) : calibrationTimesOut n s = s := by
  unfold calibrationTimesOut
  rw [hat]
  exact if_neg (by omega)

end

/-- Settles O47: due times, gaps, and the three ends of a round. -/
theorem calibrationConvergesOrFails : Obligations.CalibrationConvergesOrFails := by
  refine ⟨fun a s h => congrArg Host.Outcome.next (calibrationFallsDue_due h),
    fun a s hactive h => congrArg Host.Outcome.next (calibrationFallsDue_waits hactive h),
    fun n s a hrun hpower hwaiting hprog hfree hmay hunit hnext => ?_, fun n s h => congrArg Host.Outcome.next (if_pos ?_),
    fun n charges check timer delay s a r t g codes fit sigma ok hat hg hcodes hfit hsigma hok => ?_,
    fun n s a r t hat => ⟨fun h hretry => ?_, fun h hretry => ?_, fun h => congrArg Host.Outcome.next (calibrationTimesOut_early hat h)⟩⟩
  · obtain ⟨hframe, harr, hsite, hentries⟩ := startCalibration_leaves s a
    rw [nextDue_site hnext] at hsite hentries
    exact ⟨_, congrArg Host.Outcome.next (calibrationGap_calibrates hrun hpower hwaiting hprog hfree hmay hunit hnext), hframe, harr, hsite,
      hentries⟩
  · simpa [isRunning] using h
  · have hends := roundEnds_cases (charges := charges) (check := check) (timer := timer) (delay := delay) hat
    have hsteady := roundEnds_steady (n := n.val) (charges := charges) (check := check) (timerNs := timer) (delayNs := delay) (s := s)
    subst hg
    rw [show roundCodes s a r charges = codes from hcodes.symm, ← hfit, ← hsigma, ← hok] at hends
    refine ⟨fun hyes => ?_, fun hno htimer => ?_, fun hno htimer hretry => ?_, fun hno htimer hretry => ?_⟩
    · rw [if_pos hyes] at hends
      obtain ⟨hresult, hs, hretry, hcal, hdelay, hin, hout⟩ :=
        calibrationDone_leaves (roundCounted s n.val (arrayGain s a) charges check) n.val a r sigma fit delay
      have hsite : (siteGet (roundCounted s n.val (arrayGain s a) charges check) n.val).nextDelay = (siteGet s n.val).nextDelay :=
        (congrArg Site.nextDelay (siteGet_siteMod s n.val
          (fun y => countSat y (sweepSaturations (charges.map (sweepCodes (arrayGain s a)) ++ check.map (sweepCodes (arrayGain s a))))))).trans rfl
      rw [hsite] at hdelay
      rw [hends] at hsteady
      exact ⟨_, congrArg Host.Outcome.next hends, hresult, hs, hretry, hcal, hdelay, ⟨_, rfl, hin, hout⟩, hsteady.fuses, hsteady.boot⟩
    · rw [if_neg (by simp [hno]), if_pos htimer] at hends
      refine ⟨_, congrArg Host.Outcome.next hends, rfl, ?_, arrGet_arrMod _ a _⟩
      refine (siteGet_siteMod (roundCounted s n.val (arrayGain s a) charges check) n.val (fun y => { y with activity := .calibrating a (r + 1) t })).trans ?_
      rw [show siteGet (roundCounted s n.val (arrayGain s a) charges check) n.val = _ from siteGet_siteMod s n.val _]
    · rw [if_neg (by simp [hno]), if_neg (by omega)] at hends
      obtain ⟨hframe, hresult, hr, hactive⟩ := calibrationFails_first (s := roundCounted s n.val (arrayGain s a) charges check) (n := n.val)
        (a := a) (rounds := r) hretry
      refine ⟨_, congrArg Host.Outcome.next hends, hframe.trans rfl, hresult, hr, hactive⟩
    · rw [if_neg (by simp [hno]), if_neg (by omega)] at hends
      obtain ⟨hresult, hstate, hstaged⟩ := calibrationFails_second (s := roundCounted s n.val (arrayGain s a) charges check) (n := n.val)
        (a := a) (rounds := r) hretry
      rw [hends] at hsteady
      exact ⟨_, congrArg Host.Outcome.next hends, hresult, hstate, hstaged, hsteady.fuses, hsteady.boot⟩
  · obtain ⟨hframe, hresult, hr, -⟩ := calibrationFails_first (n := n.val) (rounds := r) hretry
    exact ⟨_, congrArg Host.Outcome.next (calibrationTimesOut_late hat h), hframe, hresult, hr⟩
  · obtain ⟨hresult, hstate, -⟩ := calibrationFails_second (n := n.val) (rounds := r) hretry
    have hsteady := calibrationFails_steady (s := s) (n := n.val) (a := a) (rounds := r)
    exact ⟨_, congrArg Host.Outcome.next (calibrationTimesOut_late hat h), hresult, hstate, hsteady.fuses, hsteady.boot⟩

end Sys2Proof.Proofs
end

section
/-! The spare slice and the slices' calibration (R75 to R82). -/

namespace Sys2Proof.Proofs
open Sys2Proof Sys2Proof.Machine Sys2Proof.Safety Sys2Proof.Laws

/-! ### Arrays of a site quarantined (R81) -/

theorem quarantined_quarantined (x : OrArray) : quarantined (quarantined x) = quarantined x := by
  unfold quarantined
  by_cases h : x.state = .retired
  · rw [if_pos h, if_pos h]
  · rw [if_neg h, if_neg (by simp)]

theorem quarantineOnly_arrGet_other (s : State) {a b : Nat} (h : b ≠ a) : arrGet (quarantineOnly s a) b = arrGet s b := by
  unfold quarantineOnly
  split
  · rfl
  · refine (congrArg (fun m : Store OrArray => sgetD m b {}) ((replaceContents_arrays _ a).trans (settleCal_arrays _ a))).trans ?_
    refine (arrGet_arrMod_other (wideLayersOf s a) a _ h).trans ?_
    rw [wideLayersOf_lanes]
    rfl

/-- Arrays taken out one after another. -/
theorem foldl_quarantineOnly_arrGet (l : List Nat) (s : State) (b : Nat) :
    arrGet (l.foldl quarantineOnly s) b = if b ∈ l then quarantined (arrGet s b) else arrGet s b := by
  induction l generalizing s with
  | nil => rfl
  | cons a l ih =>
    rw [List.foldl_cons, ih]
    by_cases hb : b = a
    · subst hb
      rw [quarantineOnly_arrGet, quarantined_quarantined, if_pos List.mem_cons_self, ite_self]
    · rw [quarantineOnly_arrGet_other s hb]
      simp [hb]

theorem quarantineSite_eq (s : State) (n : Nat) : quarantineSite s n = ((List.range 8).map (fun i => 8 * n + i)).foldl quarantineOnly s := by
  unfold quarantineSite
  rw [List.foldl_map]

theorem quarantineSite_arrGet (s : State) (n : Nat) {i : Nat} (h : i < 8) :
    arrGet (quarantineSite s n) (8 * n + i) = quarantined (arrGet s (8 * n + i)) := by
  rw [quarantineSite_eq, foldl_quarantineOnly_arrGet]
  exact if_pos (List.mem_map.mpr ⟨i, List.mem_range.mpr h, rfl⟩)

theorem siteQuarantined_arrGet (s : State) (n cause : Nat) {i : Nat} (h : i < 8) :
    arrGet (siteQuarantined s n cause) (8 * n + i) = quarantined (arrGet s (8 * n + i)) := by
  unfold siteQuarantined
  rw [arrGet_report, arrGet_startDiagnosis, quarantineSite_arrGet s n h]

/-! ### Due times anew (R126) -/

theorem sget_smapAll {α : Type} (m : Store α) (f : Nat → α → α) (n : Nat) : sget (smapAll m f) n = (sget m n).map (f n) := by
  induction m with
  | nil => rfl
  | cons e m ih =>
    obtain ⟨k, v⟩ := e
    by_cases hk : k = n
    · subst hk
      simp [smapAll, sget]
    · simp only [smapAll, List.map_cons, sget, if_neg hk]
      exact ih

/-- An array whose interval in force has changed is due by the new one; any other keeps what it has. -/
def dueAnew (old s : State) (a : Nat) (x : OrArray) : OrArray :=
  if intervalMs old a = intervalMs s a ∨ x.active.isNone then x
  else { x with due := decide (x.activatedAt + intervalMs s a * 1000000 ≤ hostTime s) || tauOutside 15 x.tau }

theorem arrGet_recomputeDue (old s : State) (a : Nat) : arrGet (recomputeDue old s) a = dueAnew old s a (arrGet s a) := by
  have hnone : dueAnew old s a {} = {} := if_pos (.inr rfl)
  have hmap := Option.getD_map (dueAnew old s a) {} (sget s.arrays a)
  rw [hnone, ← sget_smapAll s.arrays (dueAnew old s)] at hmap
  exact hmap

/-- Whatever becomes due, the rest of an array stays. -/
theorem dueAnew_due (old s : State) (a : Nat) (x : OrArray) : ∃ d, dueAnew old s a x = { x with due := d } := by
  unfold dueAnew
  split
  · exact ⟨x.due, rfl⟩
  · exact ⟨_, rfl⟩

/-- The interval in force before it is halved (R125, R80) is never its half. -/
theorem intervalMs_halved {s t : State} {a : Nat} (hs : (siteGet s (a / 8)).fixed = false) (ht : (siteGet t (a / 8)).fixed = true)
    (hthermal : t.thermal = s.thermal) : intervalMs t a = intervalMs s a / 2 ∧ intervalMs s a ≠ intervalMs t a := by
  unfold intervalMs
  rw [hs, ht, hthermal]
  dsimp only
  simp only [if_true, Bool.false_eq_true, if_false]
  split_ifs <;> decide

/-! ### The rows -/

section
variable {s : State} {n slice : Nat} {x : Site} {trim : List (Int × Nat)}

theorem rotateSpare_idle (h : s.boot.state ≠ .running ∨ s.power.state = .dormant) : rotateSpare n s = s :=
  if_pos (by simpa [isRunning] using h)

/-- What the rotation makes of a site. -/
def rotated (x : Site) : Site :=
  if x.fixed ∨ !x.starting.isEmpty then x else if siteFires x then { x with swapDue := true } else advanceSpare x

theorem rotateSpare_runs (hrun : s.boot.state = .running) (hpower : s.power.state ≠ .dormant) (hx : siteGet s n = x) :
    rotateSpare n s = siteSet s n (rotated x) := by
  subst hx
  exact if_neg (by simp [isRunning, hrun, hpower])

theorem sliceEnds_idle (hx : siteGet s n = x) (h : sliceCalibrates x slice = false) : sliceEnds n slice trim s = s := by
  subst hx
  exact if_pos (by simp [h])

theorem sliceEnds_calibrates (hx : siteGet s n = x) (h : sliceCalibrates x slice = true) : sliceEnds n slice trim s =
    if trimReached trim then siteSet s n (sliceDone slice x)
    else if !x.failedOnce.contains slice then siteSet s n { x with failedOnce := slice :: x.failedOnce }
    else if slice = 16 then siteSet s n { sliceDone slice x with spareFailed := true }
    else sliceFails (siteSet s n (sliceDone slice x)) n slice := by
  subst hx
  exact if_neg (by simp [h])

theorem sliceDone_goesOn (h : x.starting = [] ∨ x.starting.filter (fun z => z ≠ slice) ≠ [] ∨ x.activity ≠ .none) :
    sliceDone slice x =
      { x with failedOnce := x.failedOnce.filter (fun z => z ≠ slice), starting := x.starting.filter (fun z => z ≠ slice) } := by
  unfold sliceDone
  refine if_neg fun hall => ?_
  obtain ⟨hstart, hrest, hact⟩ := hall
  rcases h with h | h | h
  · simp [h] at hstart
  · exact h (List.isEmpty_iff.mp hrest)
  · exact h hact

theorem sliceDone_last (hstart : x.starting ≠ []) (hrest : x.starting.filter (fun z => z ≠ slice) = []) (hact : x.activity = .none) :
    sliceDone slice x = { x with failedOnce := x.failedOnce.filter (fun z => z ≠ slice), starting := []
                                 control := siteControl x.delay 1 (fld x.control.toNat 29 27) } := by
  unfold sliceDone
  dsimp only
  rw [hrest, if_pos ⟨by simpa using hstart, rfl, hact⟩]
  rfl

theorem sliceDone_spare (slice : Nat) (x : Site) : (sliceDone slice x).fixed = x.fixed ∧ (sliceDone slice x).spareFailed = x.spareFailed ∧
    (sliceDone slice x).failedSlice = x.failedSlice := by
  unfold sliceDone
  dsimp only
  split <;> exact ⟨rfl, rfl, rfl⟩

/-- A site whose spare stands in for good. -/
def spareFixed (slice : Nat) (x : Site) : Site := { x with spare := slice, fixed := true, failedSlice := slice, swapDue := false }

/-- The spare takes a slice's place for good (R79): the site's arrays are due by the halved interval. -/
theorem fixSpare_leaves (hfixed : (siteGet s n).fixed = false) :
    (siteGet (fixSpare s n slice) n).fixed = true ∧ (siteGet (fixSpare s n slice) n).spare = slice ∧
    (siteGet (fixSpare s n slice) n).failedSlice = slice ∧ (∀ b, ∃ d, arrGet (fixSpare s n slice) b = { arrGet s b with due := d }) ∧
    ∀ i < 8, ∀ y, y = arrGet s (8 * n + i) → y.active ≠ none → (arrGet (fixSpare s n slice) (8 * n + i)).due =
      (decide (y.activatedAt + intervalMs s (8 * n + i) / 2 * 1000000 ≤ hostTime s) || tauOutside 15 y.tau) := by
  have hfix : fixSpare s n slice = recomputeDue s (siteMod s n (spareFixed slice)) := rfl
  have hsite : siteGet (fixSpare s n slice) n = spareFixed slice (siteGet s n) := siteGet_siteMod s n (spareFixed slice)
  have harr : ∀ b, arrGet (fixSpare s n slice) b = dueAnew s (siteMod s n (spareFixed slice)) b (arrGet s b) := fun b => by
    rw [hfix, arrGet_recomputeDue]
    rfl
  rw [hsite]
  refine ⟨rfl, rfl, rfl, fun b => harr b ▸ dueAnew_due _ _ _ _, fun i hi y hy hactive => ?_⟩
  have hdiv : (8 * n + i) / 8 = n := by omega
  obtain ⟨hhalf, hne⟩ := intervalMs_halved (a := 8 * n + i) (s := s) (t := siteMod s n (spareFixed slice))
    (by rw [hdiv]; exact hfixed) (by rw [hdiv, siteGet_siteMod]; rfl) rfl
  rw [harr, ← hy]
  unfold dueAnew
  rw [if_neg (not_or.mpr ⟨hne, by simpa using hactive⟩), hhalf]
  rfl

theorem sliceFails_fixes (hfixed : (siteGet s n).fixed = false) (hspare : (siteGet s n).spareFailed = false) :
    sliceFails s n slice = report (fixSpare s n slice) 0x06 2 (siteUid n slice) (leBytes 1 slice) := by
  unfold sliceFails
  dsimp only
  rw [if_neg (by simp [hfixed]), if_neg (by simp [hfixed, hspare])]

/-- The spare is taken, or has failed itself: the site is quarantined (R81, log entry 28). -/
theorem sliceFails_quarantines (h : ((siteGet s n).fixed = true ∧ (siteGet s n).failedSlice ≠ slice) ∨
    ((siteGet s n).fixed = false ∧ (siteGet s n).spareFailed = true)) : sliceFails s n slice = siteQuarantined s n 1 := by
  unfold sliceFails
  dsimp only
  rcases h with ⟨hf, hne⟩ | ⟨hf, hs⟩
  · rw [if_neg (by simp [hne]), if_pos (.inl hf)]
  · rw [if_neg (by simp [hf]), if_pos (.inr hs)]

end

theorem siteGet_report (s : State) (kind severity : Nat) (uid : Word) (detail : Bytes) (n : Nat) :
    siteGet (report s kind severity uid detail) n = siteGet s n :=
  congrArg (fun m : Store Site => sgetD m n {}) ((congrArg State.sites (report_frame s kind severity uid detail)).trans rfl)

/-- The interval in force at a site depends on whether its spare stands in for good, not on the rest of it. -/
theorem intervalMs_fixed {s : State} {n a : Nat} {x : Site} (ha : a / 8 = n) (hx : x.fixed = (siteGet s n).fixed) :
    intervalMs (siteSet s n x) a = intervalMs s a := by
  unfold intervalMs
  rw [ha, siteGet_siteSet, hx]
  rfl

/-- Settles O48: the rotation and the slices' calibration, case by case. -/
theorem slicesAndTheSpare : Obligations.SlicesAndTheSpare := by
  intro n s x hx
  refine ⟨fun hrun hpower hfixed hstart => ?_, fun hrun hpower h => ?_,
    fun h => congrArg Host.Outcome.next (rotateSpare_idle h), fun k trim hcal => ?_,
    fun k trim h => congrArg Host.Outcome.next (sliceEnds_idle hx h)⟩
  · have hrot := rotateSpare_runs (n := n.val) hrun hpower hx
    have hgo : rotated x = if siteFires x then { x with swapDue := true } else advanceSpare x := if_neg (by simp [hfixed, hstart])
    rw [hgo] at hrot
    refine ⟨fun hf => congrArg Host.Outcome.next (hrot.trans (by rw [if_pos hf])), fun hf => ?_⟩
    rw [if_neg (by simp [hf])] at hrot
    refine ⟨fun h => congrArg Host.Outcome.next (hrot.trans ?_), fun h => congrArg Host.Outcome.next (hrot.trans ?_),
      fun h => congrArg Host.Outcome.next (hrot.trans ?_), fun h => congrArg Host.Outcome.next (hrot.trans ?_)⟩
    · unfold advanceSpare
      rw [if_neg (by simp [hfixed]), if_neg (by omega), if_neg (by omega), if_neg (by omega)]
    all_goals simp [advanceSpare, hfixed, h]
  · refine congrArg Host.Outcome.next ((rotateSpare_runs hrun hpower hx).trans (congrArg (siteSet s n.val) (if_pos ?_)))
    simpa using h
  · have hends := sliceEnds_calibrates (trim := trim) hx hcal
    refine ⟨fun htrim h => ?_, fun htrim hstart hrest hact => ?_, fun htrim honce => ?_, fun htrim honce hk hfixed hspare => ?_,
      fun htrim honce hk => ?_, fun htrim honce hk hspare => ?_⟩
    · rw [if_pos htrim, sliceDone_goesOn h] at hends
      exact congrArg Host.Outcome.next hends
    · rw [if_pos htrim, sliceDone_last hstart hrest hact] at hends
      exact congrArg Host.Outcome.next hends
    · rw [if_neg (by simp [htrim]), if_pos (by simpa using honce)] at hends
      exact congrArg Host.Outcome.next hends
    · rw [if_neg (by simp [htrim]), if_neg (by simpa using honce), if_neg (by omega)] at hends
      obtain ⟨hf, hsf, -⟩ := sliceDone_spare k.val x
      have hsite : siteGet (siteSet s n.val (sliceDone k.val x)) n.val = sliceDone k.val x := siteGet_siteSet s n.val _
      rw [sliceFails_fixes (by rw [hsite, hf, hfixed]) (by rw [hsite, hsf, hspare])] at hends
      obtain ⟨h1, h2, h3, h4, h5⟩ := fixSpare_leaves (s := siteSet s n.val (sliceDone k.val x)) (n := n.val) (slice := k.val)
        (by rw [hsite, hf, hfixed])
      have hsteady := sliceEnds_steady (n := n.val) (slice := k.val) (trim := trim) (s := s)
      rw [hends] at hsteady
      refine ⟨_, congrArg Host.Outcome.next hends, ?_, ?_, ?_, fun b => ?_, hsteady.fuses, fun i hi y hy hactive => ?_⟩
      · rw [siteGet_report, h1]
      · rw [siteGet_report, h2]
      · rw [siteGet_report, h3]
      · rw [arrGet_report]
        exact h4 b
      · rw [arrGet_report, h5 i hi y hy hactive, intervalMs_fixed (by omega) (by rw [hf, hx])]
        rfl
    · rw [if_neg (by simp [htrim]), if_neg (by simpa using honce), if_pos hk] at hends
      exact ⟨_, congrArg Host.Outcome.next hends, rfl, congrArg Site.spareFailed (siteGet_siteSet s n.val _)⟩
    · rw [if_neg (by simp [htrim]), if_neg (by simpa using honce), if_neg (by omega)] at hends
      obtain ⟨hf, hsf, hfs⟩ := sliceDone_spare k.val x
      have hsite : siteGet (siteSet s n.val (sliceDone k.val x)) n.val = sliceDone k.val x := siteGet_siteSet s n.val _
      rw [sliceFails_quarantines (by rw [hsite, hf, hsf, hfs]; exact hspare)] at hends
      have hsteady := sliceEnds_steady (n := n.val) (slice := k.val) (trim := trim) (s := s)
      rw [hends] at hsteady
      refine ⟨_, congrArg Host.Outcome.next hends, fun i hi => ?_, hsteady.fuses⟩
      rw [siteQuarantined_arrGet _ _ _ hi]
      exact quarantined_state _

end Sys2Proof.Proofs
end

section
/-! Programming that ends, diagnosis verdicts and the end of the host's control of a site (R57 to R62, R107 to R111, R611). -/

namespace Sys2Proof.Proofs
open Sys2Proof Sys2Proof.Machine Sys2Proof.Safety Sys2Proof.Laws

/-! ### What an array holds stays through work at it -/

/-- An array that still holds the same contents and the same stuck and suspected cells for the same owner, and stays retired if it was. -/
structure KeepsCells (x y : OrArray) : Prop where
  levels : y.levels = x.levels
  scales : y.scales = x.scales
  levelSums : y.levelSums = x.levelSums
  stuck : y.stuck = x.stuck
  suspects : y.suspects = x.suspects
  ownerKind : y.ownerKind = x.ownerKind
  owner : y.owner = x.owner
  generation : y.generation = x.generation
  retired : x.state = .retired → y.state = .retired

theorem KeepsCells.refl (x : OrArray) : KeepsCells x x := ⟨rfl, rfl, rfl, rfl, rfl, rfl, rfl, rfl, id⟩

theorem KeepsCells.trans {x y z : OrArray} (h : KeepsCells x y) (k : KeepsCells y z) : KeepsCells x z :=
  ⟨k.levels.trans h.levels, k.scales.trans h.scales, k.levelSums.trans h.levelSums, k.stuck.trans h.stuck, k.suspects.trans h.suspects, k.ownerKind.trans h.ownerKind,
    k.owner.trans h.owner, k.generation.trans h.generation, k.retired ∘ h.retired⟩

/-- Work that leaves what every array holds. -/
def CellsKept (s t : State) : Prop := ∀ b, KeepsCells (arrGet s b) (arrGet t b)

theorem CellsKept.refl (s : State) : CellsKept s s := fun _ => .refl _

theorem CellsKept.trans {s t u : State} (h : CellsKept s t) (k : CellsKept t u) : CellsKept s u := fun b => (h b).trans (k b)

theorem CellsKept.of_arrays {s t : State} (h : t.arrays = s.arrays) : CellsKept s t := fun b => by
  unfold arrGet
  rw [h]
  exact .refl _

theorem CellsKept.foldl {α : Type} {f : State → α → State} (h : ∀ s x, CellsKept s (f s x)) (l : List α) (s : State) :
    CellsKept s (l.foldl f s) :=
  List.foldlRecOn (motive := fun t : State => CellsKept s t) l f (.refl s) fun t ht x _ => ht.trans (h t x)

theorem arrMod_cellsKept (s : State) (a : Nat) {f : OrArray → OrArray} (h : KeepsCells (arrGet s a) (f (arrGet s a))) :
    CellsKept s (arrMod s a f) := fun b => by
  by_cases hb : b = a
  · subst hb
    rw [arrGet_arrMod]
    exact h
  · rw [arrGet_arrMod_other s a f hb]
    exact .refl _

theorem report_cellsKept (s : State) (kind severity : Nat) (uid : Word) (detail : Bytes) : CellsKept s (report s kind severity uid detail) :=
  .of_arrays (reportOf_arrays ..)

theorem arrGet_retireArray_other (s : State) {a b : Nat} (h : b ≠ a) : arrGet (retireArray s a) b = arrGet s b := by
  unfold retireArray
  refine (congrArg (fun m : Store OrArray => sgetD m b {}) ((replaceContents_arrays _ a).trans (settleCal_arrays _ a))).trans ?_
  refine (arrGet_arrMod_other (wideLayersNext s a) a _ h).trans ?_
  rw [wideLayersNext_lanes]
  rfl

theorem retireArray_cellsKept (s : State) (a : Nat) : CellsKept s (retireArray s a) := fun b => by
  by_cases hb : b = a
  · subst hb
    rw [arrGet_retireArray]
    exact ⟨rfl, rfl, rfl, rfl, rfl, rfl, rfl, rfl, fun _ => rfl⟩
  · rw [arrGet_retireArray_other s hb]
    exact .refl _

theorem retireReported_cellsKept (s : State) (a cause : Nat) : CellsKept s (retireReported s a cause) :=
  (retireArray_cellsKept s a).trans (report_cellsKept _ _ _ _ _)

/-- A programming operation that begins leaves what its array held, and every other array. -/
theorem beginProgram_arrays (s : State) (p : Programming) (b : Nat) :
    (b ≠ p.array.val → arrGet (beginProgram s p) b = arrGet s b) ∧
    (arrGet (beginProgram s p) b).spares = (arrGet s b).spares ∧ (arrGet (beginProgram s p) b).sparesPending = (arrGet s b).sparesPending ∧
    ((arrGet s p.array.val).state ≠ .retired → KeepsCells (arrGet s b) (arrGet (beginProgram s p) b)) := by
  unfold beginProgram
  extract_lets a wear s0 s1
  have hwear : ∀ t, (reportWear t a).arrays = t.arrays := fun t => by
    unfold reportWear
    split
    · exact reportOf_arrays ..
    · rfl
  have harr : ∀ c, arrGet (reportWear (settleCal (siteMod s1 (a / 8) (fun x => { x with activity := .programming a })) a) a) c = arrGet s1 c :=
    fun c => congrArg (fun m : Store OrArray => sgetD m c {}) ((hwear _).trans (settleCal_arrays _ a))
  rw [harr]
  by_cases hb : b = a
  · subst hb
    have hs0 : arrGet s0 a = { arrGet s a with adjusted := if sameOwner (arrGet s a) p then (arrGet s a).adjusted else [] } :=
      arrGet_arrMod s a _
    rw [show arrGet s1 a = _ from arrGet_arrMod s0 a _, hs0]
    exact ⟨fun h => absurd rfl h, rfl, rfl, fun h => ⟨rfl, rfl, rfl, rfl, rfl, rfl, rfl, rfl, fun hr => absurd hr h⟩⟩
  · have hs1 : arrGet s1 b = arrGet s b := (arrGet_arrMod_other s0 a _ hb).trans (arrGet_arrMod_other s a _ hb)
    rw [hs1]
    exact ⟨fun _ => rfl, rfl, rfl, fun _ => .refl _⟩

theorem beginProgram_cellsKept {s : State} {p : Programming} (h : (arrGet s p.array.val).state ≠ .retired) : CellsKept s (beginProgram s p) :=
  fun b => (beginProgram_arrays s p b).2.2.2 h

theorem sameContents_array {s : State} {a : Nat} {p : Programming} (h : sameContents s a = some p) : p.array.val = a := by
  unfold sameContents at h
  obtain ⟨o, -, ho⟩ := List.exists_of_findSome?_eq_some h
  split_ifs at ho
  rw [← Option.some.inj ho]

/-- An array that is programmed again is one that was not retired. -/
theorem programAgain_cases (s : State) (a : Nat) : programAgain s a = s ∨
    ∃ p, p.array.val = a ∧ (arrGet s a).state ≠ .retired ∧ programAgain s a = beginProgram s p := by
  unfold programAgain
  split
  · next h =>
    split
    · next p hp =>
      split
      · refine .inr ⟨p, sameContents_array hp, fun hr => ?_, rfl⟩
        simp [wantsProgram, hr] at h
      · exact .inl rfl
    · exact .inl rfl
  · exact .inl rfl

theorem programAgain_cellsKept (s : State) (a : Nat) : CellsKept s (programAgain s a) := by
  rcases programAgain_cases s a with h | ⟨p, hp, hstate, h⟩
  · rw [h]
    exact .refl s
  · rw [h]
    exact beginProgram_cellsKept (hp ▸ hstate)

theorem startPrograms_cellsKept (s : State) : CellsKept s (startPrograms s) := by
  unfold startPrograms
  split
  · exact .refl s
  · refine .foldl (fun t g => ?_) _ s
    dsimp only
    split
    · exact (retireArray_cellsKept t g.array.val).trans (.of_arrays rfl)
    · split
      · next h =>
        refine (beginProgram_cellsKept (p := g) fun hr => ?_).trans (.of_arrays rfl)
        simp [mayProgram, programmable, hr] at h
      · exact .refl t

theorem startAdapters_cellsKept (s : State) (a : Nat) : CellsKept s (startAdapters s a) := by
  unfold startAdapters
  split
  · refine .foldl (fun t k => ?_) _ s
    split
    · unfold startAdapter
      dsimp only
      split
      · exact retireReported_cellsKept t _ 2
      · split <;> exact .of_arrays rfl
    · exact .refl t
  · exact .refl s

theorem absorbPair_cellsKept (a : Nat) (offered : List (Nat × Nat × Nat × Nat)) (s : State) (cells : List CellReading) :
    CellsKept s (absorbPair a offered s cells) := by
  unfold absorbPair
  dsimp only
  refine CellsKept.trans ?_ (report_cellsKept _ _ _ _ _)
  split
  · exact arrMod_cellsKept s a ⟨rfl, rfl, rfl, rfl, rfl, rfl, rfl, rfl, id⟩
  · split
    · exact arrMod_cellsKept s a ⟨rfl, rfl, rfl, rfl, rfl, rfl, rfl, rfl, id⟩
    · split
      · exact startAdapters_cellsKept s a
      · exact .refl s

theorem absorbStuck_cellsKept (s : State) (a : Nat) (new : List CellReading) (offered : List (Nat × Nat × Nat × Nat)) (refresh : Bool) :
    CellsKept s (absorbStuck s a new offered refresh) := by
  unfold absorbStuck
  split
  · exact retireReported_cellsKept s a 1
  · dsimp only
    refine CellsKept.trans (CellsKept.foldl (f := fun t p => absorbPair a offered t (new.filter (fun c => c.pair = p)))
      (fun t _ => absorbPair_cellsKept a offered t _) (new.map (·.pair)).eraseDups s) ?_
    exact (arrMod_cellsKept _ a ⟨rfl, rfl, rfl, rfl, rfl, rfl, rfl, rfl, id⟩).trans (programAgain_cellsKept _ a)

/-- More than 64 stuck cells retire an array (R62). -/
theorem absorbStuck_retires {s : State} {a : Nat} (h : 64 < (arrGet s a).stuck.length) (new : List CellReading)
    (offered : List (Nat × Nat × Nat × Nat)) (refresh : Bool) : (arrGet (absorbStuck s a new offered refresh) a).state = .retired := by
  unfold absorbStuck
  rw [if_pos h]
  unfold retireReported
  rw [arrGet_report, arrGet_retireArray]

/-! ### The end of a programming operation -/

/-- What an array holds at the end of a programming operation (R57, R611). -/
def programOwned (s : State) (a : Nat) (p : Programming) (stuck : List CellReading) (x : OrArray) : OrArray :=
  let fresh := { x with
    state := endState s a, program := none, content := {}, orphaned := false
    levels := x.content.levels, scales := x.content.scales, levelSums := x.content.levelSums
    stuck := stuck, suspects := [], tracking := [], lastStep := [], sparesWritten := x.sparesPending, verified := true, unproven := false
    everServed := false }
  if programHeld s x p then { fresh with ownerKind := ownerCode p.owner, owner := p.handle, generation := p.generation.toNat, due := true }
  else { fresh with ownerKind := 0, owner := 0, generation := 0 }

theorem arrGet_programEnds (s : State) (a : Nat) (p : Programming) (stuck : List CellReading) : arrGet (programEnds s a p stuck) a =
    if (arrGet s a).eraseAfter then erasedAtEnd (programOwned s a p stuck (arrGet s a)) else programOwned s a p stuck (arrGet s a) := by
  unfold programEnds
  refine (congrArg (fun m : Store OrArray => sgetD m a {}) (siteReleased_arrays _ (a / 8))).trans ?_
  exact arrGet_arrSet s a _

theorem programOwned_leaves (s : State) (a : Nat) (p : Programming) (stuck : List CellReading) (x : OrArray) :
    (programOwned s a p stuck x).stuck = stuck ∧ (programOwned s a p stuck x).levels = x.content.levels ∧
    (programOwned s a p stuck x).scales = x.content.scales ∧ (programOwned s a p stuck x).levelSums = x.content.levelSums ∧
    (programHeld s x p = true → (programOwned s a p stuck x).ownerKind = ownerCode p.owner ∧ (programOwned s a p stuck x).owner = p.handle ∧
      (programOwned s a p stuck x).generation = p.generation.toNat) ∧
    (programHeld s x p = false → (programOwned s a p stuck x).ownerKind = 0) ∧
    (programOwned s a p stuck x).state = endState s a ∧ (programOwned s a p stuck x).program = none := by
  unfold programOwned
  dsimp only
  cases programHeld s x p with
  | true => exact ⟨rfl, rfl, rfl, rfl, fun _ => ⟨rfl, rfl, rfl⟩, nofun, rfl, rfl⟩
  | false => exact ⟨rfl, rfl, rfl, rfl, nofun, fun _ => rfl, rfl, rfl⟩

/-- The waiting plan is none of what a programming operation that ends changes. -/
theorem programEnds_waiting (s : State) (a : Nat) (p : Programming) (stuck : List CellReading) :
    (programEnds s a p stuck).planner = s.planner := by
  unfold programEnds
  dsimp only
  rw [siteReleased_frame]
  rfl

theorem programCompletes_ends {a : Nat} {cells : List CellReading} {el : Nat} {s : State} {p : Programming} (hat : programAt s a = some p)
    (hcells : cells.all (passes (programTarget (arrGet s a))) = true) (hel : el ≤ 3000000) :
    programCompletes a cells el s = startPrograms (programEnds s a p []) := by
  unfold programCompletes
  rw [hat]
  exact if_pos ⟨hcells, hel⟩

theorem programCompletes_idle {a : Nat} {cells : List CellReading} {el : Nat} {s : State} (h : programAt s a = none ∨
    cells.all (passes (programTarget (arrGet s a))) = false ∨ 3000000 < el) : programCompletes a cells el s = s := by
  unfold programCompletes
  cases hat : programAt s a with
  | none => rfl
  | some p =>
    refine if_neg fun hall => ?_
    rcases h with h | h | h
    · rw [hat] at h
      cases h
    · rw [h] at hall
      exact Bool.false_ne_true hall.1
    · omega

/-- Cells that miss verify at the maximum time are stuck (R61). -/
theorem programTimesOut_ends {a : Nat} {cells : List CellReading} {offered : List (Nat × Nat × Nat × Nat)} {el : Nat} {s : State}
    {p : Programming} (hat : programAt s a = some p) (hel : 2500000 ≤ el) : ∃ new,
    programTimesOut a cells offered el s = startPrograms (absorbStuck (programEnds s a p
      (cells.filter (fun c => decide (200 < cellError (programTarget (arrGet s a)) c)))) a new offered false) := by
  have hstuck : cells.filter (fun c => !passes (programTarget (arrGet s a)) c) =
      cells.filter (fun c => decide (200 < cellError (programTarget (arrGet s a)) c)) := by
    simp [passes, ← decide_not]
  unfold programTimesOut
  rw [hat, Option.filter_some, if_pos (by simpa using hel)]
  dsimp only
  rw [hstuck]
  exact ⟨_, rfl⟩

theorem programTimesOut_idle {a : Nat} {cells : List CellReading} {offered : List (Nat × Nat × Nat × Nat)} {el : Nat} {s : State}
    (h : programAt s a = none ∨ el < 2500000) : programTimesOut a cells offered el s = s := by
  have hnone : (programAt s a).filter (fun _ => 2500000 ≤ el) = none := by
    rcases h with h | h
    · rw [h]
      rfl
    · exact Option.filter_eq_none_iff.mpr fun _ _ => by simpa using h
  unfold programTimesOut
  rw [hnone]

/-! ### A site whose diagnosis has ended (R108, R109) -/

/-- A site as the end of its diagnosis leaves it: without the readings, free, programmed, or diagnosed anew without a request. -/
structure SiteDiagnosed (x : Site) : Prop where
  activity : x.activity = .none ∨ x.activity = .diagnosing false ∨ ∃ a, x.activity = .programming a
  tested : x.tested = 0
  readings : x.readings = {}

/-- The same of a state in which no request of SITE_DIAG_RUN for the site waits. -/
structure Diagnosed (n : Nat) (s : State) : Prop where
  jobs : ∀ j ∈ s.jobs, j.work ≠ .siteDiag n
  site : SiteDiagnosed (siteGet s n)

theorem settleSwap_frame (x : Site) : settleSwap x =
    { x with spare := (settleSwap x).spare, swapDue := (settleSwap x).swapDue, rotations := (settleSwap x).rotations } := by
  unfold settleSwap advanceSpare
  split_ifs <;> rfl

theorem settleSwap_fixed {x : Site} (h : x.fixed = true) : (settleSwap x).spare = x.spare := by
  unfold settleSwap advanceSpare
  rw [if_pos h]
  split <;> rfl

theorem diagnosisStarts_frame (r : Bool) (x : Site) : diagnosisStarts r x = { x with
    activity := .diagnosing r, diagnose := false, tested := 0, readings := {}, control := (diagnosisStarts r x).control
    dac := (diagnosisStarts r x).dac, dacNow := (diagnosisStarts r x).dacNow, entries := (diagnosisStarts r x).entries } := by
  unfold diagnosisStarts setDiagWords
  split <;> rfl

section
variable {n : Nat} {s : State}

/-- What leaves jobs and the site leaves a diagnosis ended. -/
theorem Diagnosed.of_same (h : Diagnosed n s) {t : State} (hjobs : t.jobs = s.jobs) (hsites : t.sites = s.sites) : Diagnosed n t :=
  ⟨by rw [hjobs]; exact h.jobs, by unfold siteGet; rw [hsites]; exact h.site⟩

theorem Diagnosed.of_record (h : Diagnosed n s) {t : State} (hr : SameButRecord s t) : Diagnosed n t :=
  h.of_same ((congrArg State.jobs hr).trans rfl) ((congrArg State.sites hr).trans rfl)

theorem Diagnosed.siteMod (h : Diagnosed n s) (m : Nat) {f : Site → Site} (hf : SiteDiagnosed (siteGet s n) → SiteDiagnosed (f (siteGet s n))) :
    Diagnosed n (siteMod s m f) := by
  refine ⟨h.jobs, ?_⟩
  by_cases hm : n = m
  · subst hm
    rw [siteGet_siteMod]
    exact hf h.site
  · rw [siteGet_siteMod_other s m f hm]
    exact h.site

theorem Diagnosed.settleDiagnosis (h : Diagnosed n s) (m : Nat) : Diagnosed n (settleDiagnosis s m) := by
  have hnone : s.jobs.any (fun j => j.work = .siteDiag n) = false := List.any_eq_false.mpr fun j hj => by simpa using h.jobs j hj
  refine ⟨by rw [settleDiagnosis_frame]; exact h.jobs, ?_⟩
  unfold Machine.settleDiagnosis
  dsimp only
  split
  · by_cases hm : n = m
    · subst hm
      rw [siteGet_siteMod, hnone, diagnosisStarts_frame]
      exact ⟨.inr (.inl rfl), rfl, rfl⟩
    · rw [siteGet_siteMod_other s m _ hm]
      exact h.site
  · exact h.site

theorem Diagnosed.siteReleased (h : Diagnosed n s) (m : Nat) : Diagnosed n (siteReleased s m) :=
  (h.siteMod m fun hx => by
    rw [settleSwap_frame]
    exact ⟨.inl rfl, hx.tested, hx.readings⟩).settleDiagnosis m

theorem Diagnosed.reloadSite (h : Diagnosed n s) (m : Nat) : Diagnosed n (reloadSite s m) :=
  (h.siteMod m fun hx => by
    rw [settleSwap_frame]
    exact ⟨.inl rfl, hx.tested, hx.readings⟩).settleDiagnosis m

theorem Diagnosed.startDiagnosis (h : Diagnosed n s) (m : Nat) : Diagnosed n (startDiagnosis s m) :=
  (h.siteMod m fun hx => ⟨hx.activity, hx.tested, hx.readings⟩).settleDiagnosis m

theorem Diagnosed.finishJobs (h : Diagnosed n s) (answer : Job → Option (Status × Nat × Bytes)) : Diagnosed n (finishJobs s answer) := by
  have hframe := finishJobs_frame s answer
  refine ⟨fun j hj => ?_, ?_⟩
  · rw [hframe] at hj
    exact h.jobs j (List.mem_filter.mp hj).1
  · rw [hframe]
    exact h.site

theorem Diagnosed.settleCal (h : Diagnosed n s) (a : Nat) : Diagnosed n (settleCal s a) := by
  unfold Machine.settleCal
  extract_lets st bad busy s1
  split
  · exact h
  · refine Diagnosed.finishJobs ?_ _
    dsimp only [s1]
    split
    · exact h.siteReleased _
    · exact h

theorem Diagnosed.replaceContents (h : Diagnosed n s) (a : Nat) : Diagnosed n (replaceContents s a) := by
  unfold Machine.replaceContents
  split
  · exact h.of_same rfl rfl
  · exact h

theorem Diagnosed.quarantineOnly (h : Diagnosed n s) (a : Nat) : Diagnosed n (quarantineOnly s a) := by
  unfold Machine.quarantineOnly
  split
  · exact h
  · refine Diagnosed.replaceContents (Diagnosed.settleCal ?_ a) a
    refine h.of_same ?_ ?_
    · refine Eq.trans (b := (wideLayersOf s a).jobs) rfl ?_
      rw [wideLayersOf_lanes]
    · refine Eq.trans (b := (wideLayersOf s a).sites) rfl ?_
      rw [wideLayersOf_lanes]

theorem Diagnosed.quarantineSite (h : Diagnosed n s) (m : Nat) : Diagnosed n (quarantineSite s m) :=
  List.foldlRecOn (motive := fun t : State => Diagnosed n t) _ _ h fun _ ht _ _ => ht.quarantineOnly _

theorem Diagnosed.sliceFails (h : Diagnosed n s) (m slice : Nat) : Diagnosed n (sliceFails s m slice) := by
  unfold Machine.sliceFails
  dsimp only
  split
  · exact h
  · split
    · exact ((h.quarantineSite m).startDiagnosis m).of_record (report_frame ..)
    · refine Diagnosed.of_record ?_ (report_frame ..)
      exact (h.siteMod m (f := spareFixed slice) fun hx => ⟨hx.activity, hx.tested, hx.readings⟩).of_same rfl rfl

theorem Diagnosed.beginProgram (h : Diagnosed n s) (p : Programming) : Diagnosed n (beginProgram s p) := by
  unfold Machine.beginProgram
  extract_lets a wear s0 s1
  have h1 : Diagnosed n s1 := h.of_same rfl rfl
  have h2 := (h1.siteMod (a / 8) (f := fun x => { x with activity := .programming a })
    fun hx => ⟨.inr (.inr ⟨a, rfl⟩), hx.tested, hx.readings⟩).settleCal a
  unfold reportWear
  split
  · exact h2.of_record (report_frame ..)
  · exact h2

theorem Diagnosed.programAgain (h : Diagnosed n s) (a : Nat) : Diagnosed n (programAgain s a) := by
  rcases programAgain_cases s a with hs | ⟨p, -, -, hs⟩
  · rw [hs]
    exact h
  · rw [hs]
    exact h.beginProgram p

/-- What a verdict does leaves the diagnosis ended. -/
theorem Diagnosed.actVerdict (h : Diagnosed n s) (d : DiagReadings) (v : Nat) : Diagnosed n (actVerdict s n d v) := by
  have hfold : ∀ {α : Type} (l : List α) (f : State → α → State), (∀ t x, Diagnosed n t → Diagnosed n (f t x)) → Diagnosed n (l.foldl f s) :=
    fun l f hf => List.foldlRecOn (motive := fun t : State => Diagnosed n t) l f h fun t ht x _ => hf t x ht
  unfold Machine.actVerdict
  dsimp only
  split
  · cases (failedPositions d).head? with
    | none => exact h
    | some q => exact h.sliceFails n q
  · split
    · exact (h.quarantineSite n).of_record (report_frame ..)
    · split
      · refine hfold _ _ fun t a ht => Diagnosed.programAgain ?_ a
        exact List.foldlRecOn (motive := fun t : State => Diagnosed n t) _ _ ht fun u hu _ _ => hu.of_same rfl rfl
      · split
        · exact hfold _ _ fun t i ht => ht.quarantineOnly _
        · split
          · exact h.quarantineSite n
          · exact hfold _ _ fun t a ht => ht.of_same rfl rfl

end

/-! ### What verdicts do to the arrays (R109) -/

/-- A change that a second time does nothing, of the arrays of a list. -/
theorem foldl_arrMod_arrGet {f : OrArray → OrArray} (hf : ∀ x, f (f x) = f x) (l : List Nat) (s : State) (b : Nat) :
    arrGet (l.foldl (fun t a => arrMod t a f) s) b = if b ∈ l then f (arrGet s b) else arrGet s b := by
  induction l generalizing s with
  | nil => rfl
  | cons a l ih =>
    rw [List.foldl_cons, ih]
    by_cases hb : b = a
    · subst hb
      rw [arrGet_arrMod, hf, if_pos List.mem_cons_self, ite_self]
    · rw [arrGet_arrMod_other s a f hb]
      simp [hb]

/-- Whether a pair of an array is to be remapped. -/
def Remapped (s : State) (a pair : Nat) : Prop := ∃ e ∈ (arrGet s a).sparesPending, e.1 = pair

theorem arrGet_programAgain (s : State) (a b : Nat) : (b ≠ a → arrGet (programAgain s a) b = arrGet s b) ∧
    (arrGet (programAgain s a) b).sparesPending = (arrGet s b).sparesPending := by
  rcases programAgain_cases s a with h | ⟨p, hp, -, h⟩
  · rw [h]
    exact ⟨fun _ => rfl, rfl⟩
  · rw [h]
    obtain ⟨hother, -, hpending, -⟩ := beginProgram_arrays s p b
    exact ⟨fun hb => hother (hp ▸ hb), hpending⟩

/-- The arrays of a list, each with a faulty pair remapped and programmed again if it may be (R109, R153). -/
def remapEach (pair : Nat) (l : List Nat) (s : State) : State := l.foldl (fun t a => programAgain (remapFaulty t a pair) a) s

theorem remapFaulty_remapped {s : State} {a b pair : Nat} (h : Remapped s b pair) : Remapped (remapFaulty s a pair) b pair := by
  unfold Remapped remapFaulty at *
  by_cases hb : b = a
  · subst hb
    obtain ⟨e, he, hpair⟩ := h
    rw [arrGet_arrMod, if_pos (.inr (.inr (.inl (List.any_eq_true.mpr ⟨e, List.mem_append_right _ he, by simpa using hpair⟩))))]
    exact ⟨e, he, hpair⟩
  · rw [arrGet_arrMod_other s a _ hb]
    exact h

theorem remapEach_remapped {pair b : Nat} (l : List Nat) {s : State} (h : Remapped s b pair) : Remapped (remapEach pair l s) b pair :=
  List.foldlRecOn (motive := fun t : State => Remapped t b pair) l _ h fun t ht a _ => by
    unfold Remapped
    rw [(arrGet_programAgain (remapFaulty t a pair) a b).2]
    exact remapFaulty_remapped ht

/-- An array of the list that can be remapped is. -/
theorem remapEach_pends {pair b : Nat} {l : List Nat} {s : State} (hb : b ∈ l) (hlt : pair < 512) (hwear : (arrGet s b).wearLimited = false)
    (hnew : ∀ e ∈ (arrGet s b).spares ++ (arrGet s b).sparesPending, e.1 ≠ pair) (hfree : (freeSpare (arrGet s b)).isSome = true) :
    Remapped (remapEach pair l s) b pair := by
  induction l generalizing s with
  | nil => cases hb
  | cons a l ih =>
    by_cases hba : b = a
    · subst hba
      refine remapEach_remapped l ?_
      unfold Remapped
      rw [(arrGet_programAgain (remapFaulty s b pair) b b).2]
      unfold remapFaulty
      have hgo : ¬((arrGet s b).wearLimited = true ∨ 512 ≤ pair ∨
          ((arrGet s b).spares ++ (arrGet s b).sparesPending).any (fun e => e.1 = pair) = true ∨ (freeSpare (arrGet s b)).isNone = true) := by
        simp only [hwear, List.any_eq_true, decide_eq_true_eq, not_or, not_exists, not_and]
        exact ⟨Bool.false_ne_true, by omega, fun e he => hnew e he, by simpa [Option.isSome_iff_ne_none] using hfree⟩
      rw [arrGet_arrMod, if_neg hgo]
      exact ⟨_, List.mem_append_right _ List.mem_cons_self, rfl⟩
    · have hsame : arrGet (programAgain (remapFaulty s a pair) a) b = arrGet s b :=
        ((arrGet_programAgain (remapFaulty s a pair) a b).1 hba).trans (arrGet_arrMod_other s a _ hba)
      exact ih ((List.mem_cons.mp hb).resolve_left hba) (by rw [hsame]; exact hwear) (by rw [hsame]; exact hnew) (by rw [hsame]; exact hfree)

/-- An array recovers from a transient fault: scrubbed and calibrated before it is free (R109). -/
def recovered (x : OrArray) : OrArray :=
  if x.state = .quarantined then
    { x with state := .programmed, active := none, staged := none, calibrated := false, verified := false, recovering := true, due := true }
  else x

theorem recovered_recovered (x : OrArray) : recovered (recovered x) = recovered x := by
  unfold recovered
  by_cases h : x.state = .quarantined
  · rw [if_pos h, if_neg (by simp)]
  · rw [if_neg h, if_neg h]

section
variable (s : State) (n : Nat) (d : DiagReadings)

theorem actVerdict_slice {q : Nat} (hq : (failedPositions d).head? = some q) : actVerdict s n d 0 = sliceFails s n q := by
  unfold actVerdict
  dsimp only
  rw [if_pos rfl, hq]
  rfl

theorem actVerdict_site {v : Nat} (hv : v = 1 ∨ v = 4) {i : Nat} (hi : i < 8) :
    arrGet (actVerdict s n d v) (8 * n + i) = quarantined (arrGet s (8 * n + i)) := by
  rcases hv with rfl | rfl
  · unfold actVerdict
    dsimp only
    rw [if_neg one_ne_zero, if_pos rfl, arrGet_report, quarantineSite_arrGet s n hi]
  · exact quarantineSite_arrGet s n hi

theorem actVerdict_tiers {i : Nat} (hi : i ∈ tierFails s n d) :
    arrGet (actVerdict s n d 3) (8 * n + i) = quarantined (arrGet s (8 * n + i)) := by
  have h : actVerdict s n d 3 = ((tierFails s n d).map (fun i => 8 * n + i)).foldl quarantineOnly s := (List.foldl_map ..).symm
  rw [h, foldl_quarantineOnly_arrGet]
  exact if_pos (List.mem_map_of_mem hi)

theorem actVerdict_pair {pair : Nat} (hp : failedPairs d = [pair]) :
    actVerdict s n d 2 = remapEach pair ((List.range 8).map (8 * n + ·)) s := by
  unfold actVerdict
  dsimp only
  rw [hp]
  rfl

theorem actVerdict_transient {i : Nat} (hi : i < 8) : arrGet (actVerdict s n d 5) (8 * n + i) = recovered (arrGet s (8 * n + i)) := by
  have h : actVerdict s n d 5 = ((List.range 8).map (8 * n + ·)).foldl (fun t a => arrMod t a recovered) s := rfl
  rw [h, foldl_arrMod_arrGet recovered_recovered]
  exact if_pos (List.mem_map.mpr ⟨i, List.mem_range.mpr hi, rfl⟩)

end

/-! ### The end of a diagnosis, and of the host's control -/

theorem settleDiagnosis_arrays (s : State) (n : Nat) : (settleDiagnosis s n).arrays = s.arrays := by rw [settleDiagnosis_frame]

theorem arrGet_reloadSite (s : State) (n a : Nat) : arrGet (reloadSite s n) a = arrGet s a :=
  congrArg (fun m : Store OrArray => sgetD m a {}) (settleDiagnosis_arrays _ n)

/-- A site taken back (R111, log entry 95). -/
def reloaded (x : Site) : Site :=
  settleSwap { x with
    control := restControl x 0, dac := 0, dacNow := 0, entries := List.replicate 16 0
    activity := .none, halting := false, waits := false, sweepsRun := 0, sweep := [], corrected := [] }

theorem reloadSite_eq (s : State) (n : Nat) : reloadSite s n = settleDiagnosis (siteMod s n reloaded) n := rfl

/-- A spare that stands in for good does so still at a site taken back. -/
theorem reloadSite_fixed {s : State} {n : Nat} (h : (siteGet s n).fixed = true) : (siteGet (reloadSite s n) n).fixed = true ∧
    (siteGet (reloadSite s n) n).spare = (siteGet s n).spare ∧ (siteGet (reloadSite s n) n).failedSlice = (siteGet s n).failedSlice := by
  have hx : siteGet (siteMod s n reloaded) n = reloaded (siteGet s n) := siteGet_siteMod s n _
  have hspare : (reloaded (siteGet s n)).spare = (siteGet s n).spare := settleSwap_fixed h
  have hrest : (reloaded (siteGet s n)).fixed = (siteGet s n).fixed ∧ (reloaded (siteGet s n)).failedSlice = (siteGet s n).failedSlice := by
    unfold reloaded
    rw [settleSwap_frame]
    exact ⟨rfl, rfl⟩
  rw [reloadSite_eq]
  rcases siteGet_settleDiagnosis (siteMod s n reloaded) n with hs | ⟨r, hs⟩
  · rw [hs, hx]
    exact ⟨hrest.1.trans h, hspare, hrest.2⟩
  · rw [hs, hx, diagnosisStarts_frame]
    exact ⟨hrest.1.trans h, hspare, hrest.2⟩

/-- The state in which the verdict of a diagnosis is acted on. -/
def diagnosisAnswered (s : State) (n v : Nat) : State :=
  finishJobs (siteMod s n (fun x => { x with activity := .none, tested := 0, readings := {} })) (fun j => match j.work with
    | .siteDiag m => if m = n then some (.ok, 0, leBytes 1 v) else none
    | _ => none)

theorem diagnosisAnswered_diagnosed (s : State) (n v : Nat) : Diagnosed n (diagnosisAnswered s n v) := by
  have hframe := finishJobs_frame (siteMod s n (fun x => { x with activity := .none, tested := 0, readings := {} })) (fun j => match j.work with
    | .siteDiag m => if m = n then some (.ok, 0, leBytes 1 v) else none
    | _ => none)
  unfold diagnosisAnswered
  refine ⟨fun j hj hw => ?_, ?_⟩
  · rw [hframe] at hj
    have hnone := (List.mem_filter.mp hj).2
    rw [hw] at hnone
    simp at hnone
  · rw [hframe]
    have hsite := siteGet_siteMod s n (fun x => { x with activity := .none, tested := 0, readings := {} })
    refine Eq.mpr (congrArg SiteDiagnosed hsite) ⟨.inl rfl, rfl, rfl⟩

theorem siteGet_diagnosisAnswered (s : State) (n v : Nat) :
    siteGet (diagnosisAnswered s n v) n = { siteGet s n with activity := .none, tested := 0, readings := {} } := by
  unfold diagnosisAnswered
  rw [finishJobs_frame]
  exact siteGet_siteMod s n (fun x => { x with activity := .none, tested := 0, readings := {} })

theorem diagnosisAnswered_arrays (s : State) (n v : Nat) : (diagnosisAnswered s n v).arrays = s.arrays := finishJobs_arrays _ _

theorem arrGet_diagnosisAnswered (s : State) (n v a : Nat) : arrGet (diagnosisAnswered s n v) a = arrGet s a :=
  congrArg (fun m : Store OrArray => sgetD m a {}) (diagnosisAnswered_arrays s n v)

/-- The site is taken back once it is free. -/
def takenBack (s : State) (n : Nat) : State := if (siteGet s n).activity = .none then reloadSite s n else s

theorem arrGet_takenBack (s : State) (n a : Nat) : arrGet (takenBack s n) a = arrGet s a := by
  unfold takenBack
  split
  · exact arrGet_reloadSite s n a
  · rfl

theorem Diagnosed.takenBack {n : Nat} {s : State} (h : Diagnosed n s) : Diagnosed n (takenBack s n) := by
  unfold Proofs.takenBack
  split
  · exact h.reloadSite n
  · exact h

theorem takenBack_fixed {s : State} {n : Nat} (h : (siteGet s n).fixed = true) : (siteGet (takenBack s n) n).fixed = true ∧
    (siteGet (takenBack s n) n).spare = (siteGet s n).spare ∧ (siteGet (takenBack s n) n).failedSlice = (siteGet s n).failedSlice := by
  unfold takenBack
  split
  · exact reloadSite_fixed h
  · exact ⟨h, rfl, rfl⟩

theorem diagnosisEnds_acts {n : Nat} {more d : DiagReadings} {s : State} {b : Bool} {v : Nat} (hact : (siteGet s n).activity = .diagnosing b)
    (hd : d = joinReadings (siteGet s n).readings more) (hv : verdictOf s n d = v) :
    diagnosisEnds n more s = report (takenBack (actVerdict (diagnosisAnswered s n v) n d v) n) 0x08 (if v = 5 then 1 else 3) (siteUid n 0)
      (leBytes 1 v ++ leBytes 1 (firstFailure s n d)) := by
  subst hd hv
  exact if_pos (by rw [hact]; rfl)

theorem diagnosisEnds_idle {n : Nat} {d : DiagReadings} {s : State} (h : ∀ b, (siteGet s n).activity ≠ .diagnosing b) :
    diagnosisEnds n d s = s := by
  refine if_neg fun hd => ?_
  unfold isDiagnosing at hd
  split at hd
  · next b hb => exact h b hb
  · cases hd

/-- The engine takes a site back from the host (R111): it is free, or diagnosed; without a diagnosis that waits it is as loaded (log entry 95). -/
theorem reloadSite_leaves (s : State) (n : Nat) : reloadSite s n = { s with sites := (reloadSite s n).sites } ∧
    ((siteGet (reloadSite s n) n).activity = .none ∨ ∃ b, (siteGet (reloadSite s n) n).activity = .diagnosing b) ∧
    ((siteGet s n).diagnose = false → (siteGet s n).starting = [] → (siteGet (reloadSite s n) n).activity = .none ∧
      (siteGet (reloadSite s n) n).control = siteControl (siteGet s n).delay 1 0 ∧
      (siteGet (reloadSite s n) n).entries = List.replicate 16 0 ∧ (siteGet (reloadSite s n) n).dac = 0) := by
  have hx : siteGet (siteMod s n reloaded) n = reloaded (siteGet s n) := siteGet_siteMod s n _
  have hact : (reloaded (siteGet s n)).activity = .none := by
    unfold reloaded
    rw [settleSwap_frame]
  refine ⟨?_, ?_, fun hdiag hstart => ?_⟩
  · rw [reloadSite_eq, settleDiagnosis_frame]
    rfl
  · rw [reloadSite_eq]
    rcases siteGet_settleDiagnosis (siteMod s n reloaded) n with hs | ⟨r, hs⟩
    · rw [hs, hx]
      exact .inl hact
    · rw [hs, diagnosisStarts_activity]
      exact .inr ⟨r, rfl⟩
  · have hstay : settleDiagnosis (siteMod s n reloaded) n = siteMod s n reloaded := by
      refine if_neg fun hgo => ?_
      have hd := hgo.1
      rw [hx] at hd
      unfold reloaded at hd
      rw [settleSwap_frame, hdiag] at hd
      cases hd
    rw [reloadSite_eq, hstay, hx]
    unfold reloaded
    rw [settleSwap_frame]
    unfold restControl
    rw [hstart]
    exact ⟨rfl, rfl, rfl, rfl⟩

theorem controlTimesOut_late {n : Nat} {s : State} {t : Nat} (h : (siteGet s n).activity = .host t) (ht : t ≤ hostTime s) :
    controlTimesOut n s = reloadSite s n := by
  unfold controlTimesOut
  rw [h]
  exact if_pos ht

theorem controlTimesOut_early {n : Nat} {s : State} {t : Nat} (h : (siteGet s n).activity = .host t) (ht : hostTime s < t) :
    controlTimesOut n s = s := by
  unfold controlTimesOut
  rw [h]
  exact if_neg (by omega)

/-- Settles O49: what an ended operation leaves in its array, and what a verdict makes of its site. -/
theorem programmingAndDiagnosis : Obligations.ProgrammingAndDiagnosis := by
  refine ⟨fun a s p hat => ⟨fun cells el hcells hel herase => ?_, fun cells el hcells hel herase hwaiting => ?_,
      fun cells adj el stuck hstuck hel herase => ?_⟩,
    fun a cells el s => ⟨fun h => congrArg Host.Outcome.next (programCompletes_idle h),
      fun h adj => congrArg Host.Outcome.next (programTimesOut_idle h)⟩,
    fun n more d s b v hact hd hv => ?_, fun n d s h => congrArg Host.Outcome.next (diagnosisEnds_idle h),
    fun n s t hact => ⟨fun ht => ?_, fun ht => congrArg Host.Outcome.next (controlTimesOut_early hact ht)⟩⟩
  · have hrun := programCompletes_ends hat hcells hel
    have hsteady := programCompletes_steady (a := a.val) (cells := cells) (elapsed := el) (s := s)
    rw [hrun] at hsteady
    have hends := arrGet_programEnds s a.val p []
    rw [if_neg (by simp [herase])] at hends
    obtain ⟨hstuck, hlevels, hscales, hsums, hheld, hgone, hstate, hprogram⟩ := programOwned_leaves s a.val p [] (arrGet s a.val)
    have hk := startPrograms_cellsKept (programEnds s a.val p []) a.val
    rw [hends] at hk
    refine ⟨_, congrArg Host.Outcome.next hrun, hsteady.fuses, hsteady.boot, hk.stuck.trans hstuck, hk.levels.trans hlevels,
      hk.scales.trans hscales, hk.levelSums.trans hsums, fun h => ?_, fun h => hk.ownerKind.trans (hgone h), fun hwaiting => ?_⟩
    · obtain ⟨hkind, howner, hgen⟩ := hheld h
      exact ⟨hk.ownerKind.trans hkind, hk.owner.trans howner, hk.generation.trans hgen⟩
    · rw [startPrograms_none (by rw [programEnds_waiting, hwaiting]), hends]
      exact ⟨hstate, hprogram⟩
  · have hrun := programCompletes_ends hat hcells hel
    have hsteady := programCompletes_steady (a := a.val) (cells := cells) (elapsed := el) (s := s)
    rw [hrun] at hsteady
    have hends := arrGet_programEnds s a.val p []
    rw [if_pos herase] at hends
    obtain ⟨-, -, -, -, -, -, hstate, -⟩ := programOwned_leaves s a.val p [] (arrGet s a.val)
    refine ⟨_, congrArg Host.Outcome.next hrun, hsteady.fuses, ?_⟩
    rw [startPrograms_none (by rw [programEnds_waiting, hwaiting]), hends]
    refine ⟨rfl, rfl, fun hprog => ?_⟩
    unfold erasedAtEnd
    dsimp only
    rw [hstate]
    unfold endState restState
    rw [hprog]
    dsimp only
    cases inService s a.val <;> rfl
  · subst hstuck
    obtain ⟨new, hrun⟩ := programTimesOut_ends (cells := cells) (offered := adj) hat hel
    have hsteady := programTimesOut_steady (a := a.val) (cells := cells) (offered := adj) (elapsed := el) (s := s)
    rw [hrun] at hsteady
    generalize cells.filter (fun c => decide (200 < cellError (programTarget (arrGet s a.val)) c)) = stuck at hrun hsteady
    have hends := arrGet_programEnds s a.val p stuck
    rw [if_neg (by simp [herase])] at hends
    obtain ⟨hst, hlevels, -⟩ := programOwned_leaves s a.val p stuck (arrGet s a.val)
    have hk1 := absorbStuck_cellsKept (programEnds s a.val p stuck) a.val new adj false a.val
    have hk2 := startPrograms_cellsKept (absorbStuck (programEnds s a.val p stuck) a.val new adj false) a.val
    have hk := hk1.trans hk2
    rw [hends] at hk
    refine ⟨_, congrArg Host.Outcome.next hrun, hsteady.fuses, hsteady.boot, hk.stuck.trans hst, hk.levels.trans hlevels, fun h => ?_⟩
    exact hk2.retired (absorbStuck_retires (by rw [hends, hst]; exact h) new adj false)
  · have hrun := diagnosisEnds_acts hact hd hv
    have hsteady := diagnosisEnds_steady (n := n.val) (more := more) (s := s)
    rw [hrun] at hsteady
    generalize hs0 : diagnosisAnswered s n.val v = s0 at hrun hsteady
    have hdone : Diagnosed n.val s0 := hs0 ▸ diagnosisAnswered_diagnosed s n.val v
    have harr : ∀ c, arrGet s0 c = arrGet s c := hs0 ▸ arrGet_diagnosisAnswered s n.val v
    have hend : Diagnosed n.val (report (takenBack (actVerdict s0 n.val d v) n.val) 0x08 (if v = 5 then 1 else 3) (siteUid n.val 0)
        (leBytes 1 v ++ leBytes 1 (firstFailure s n.val d))) := ((hdone.actVerdict d v).takenBack).of_record (report_frame ..)
    have hout : ∀ c, arrGet (report (takenBack (actVerdict s0 n.val d v) n.val) 0x08 (if v = 5 then 1 else 3) (siteUid n.val 0)
        (leBytes 1 v ++ leBytes 1 (firstFailure s n.val d))) c = arrGet (actVerdict s0 n.val d v) c := fun c => by
      rw [arrGet_report, arrGet_takenBack]
    refine ⟨_, congrArg Host.Outcome.next hrun, hsteady.fuses, hsteady.boot, hend.jobs, hend.site.activity, hend.site.tested, hend.site.readings,
      fun h0 q hq hfixed hspare => ?_, fun h2 pair hp hlt i hi x hx hwear hnew hfree => ?_, fun h14 i hi => ?_, fun h3 i hi => ?_,
      fun h5 i hi hquar => ?_⟩
    · subst h0
      have hsite : siteGet s0 n.val = { siteGet s n.val with activity := .none, tested := 0, readings := {} } := by
        rw [← hs0]
        exact siteGet_diagnosisAnswered s n.val 0
      rw [actVerdict_slice s0 n.val d hq, sliceFails_fixes (by rw [hsite]; exact hfixed) (by rw [hsite]; exact hspare)]
      obtain ⟨h1, h2, h3, -⟩ := fixSpare_leaves (s := s0) (n := n.val) (slice := q) (by rw [hsite]; exact hfixed)
      rw [siteGet_report]
      obtain ⟨hb1, hb2, hb3⟩ := takenBack_fixed (s := report (fixSpare s0 n.val q) 0x06 2 (siteUid n.val q) (leBytes 1 q)) (n := n.val)
        (by rw [siteGet_report]; exact h1)
      rw [siteGet_report] at hb2 hb3
      exact ⟨hb1, hb2.trans h2, hb3.trans h3⟩
    · subst h2 hx
      rw [hout, actVerdict_pair s0 n.val d hp]
      refine remapEach_pends (List.mem_map.mpr ⟨i, List.mem_range.mpr hi, rfl⟩) hlt ?_ ?_ ?_
      · rw [harr]
        exact hwear
      · rw [harr]
        exact hnew
      · rw [harr]
        exact hfree
    · rw [hout, actVerdict_site s0 n.val d h14 hi, harr]
      exact quarantined_state _
    · subst h3
      have htiers : tierFails s0 n.val d = tierFails s n.val d := by
        unfold tierFails
        simp only [harr]
      rw [hout, actVerdict_tiers s0 n.val d (htiers ▸ hi), harr]
      exact quarantined_state _
    · subst h5
      rw [hout, actVerdict_transient s0 n.val d hi, harr]
      unfold recovered
      rw [if_pos hquar]
      exact ⟨rfl, rfl, rfl⟩
  · obtain ⟨hframe, hactivity, hrest⟩ := reloadSite_leaves s n.val
    exact ⟨_, congrArg Host.Outcome.next (controlTimesOut_late hact ht), hframe, hactivity, hrest⟩

end Sys2Proof.Proofs
end

section
/-! Array scrubs, and the training of repair adapters (R62, R149, R150, R154, R156, R174, R510). -/

namespace Sys2Proof.Proofs
open Sys2Proof Sys2Proof.Machine Sys2Proof.Safety Sys2Proof.Laws

/-! ### An array programmed again (R150, R153) -/

section
variable {s : State} {a : Nat}

/-- Whether an array may be programmed depends on its own state and wear limit, and not on the rest of it. -/
theorem mayProgram_arrMod {f : OrArray → OrArray} (h : programmable (f (arrGet s a)) = programmable (arrGet s a)) :
    mayProgram (arrMod s a f) a = mayProgram s a := by
  unfold mayProgram
  rw [arrGet_arrMod, h]
  rfl

/-- An array that holds the same levels of the same generation. -/
structure SameHeld (x y : OrArray) : Prop where
  levels : y.levels = x.levels
  ownerKind : y.ownerKind = x.ownerKind
  owner : y.owner = x.owner
  generation : y.generation = x.generation
  source : y.source = x.source

/-- What an array is programmed with again depends on what it holds. -/
theorem sameContents_arrMod {f : OrArray → OrArray} (h : SameHeld (arrGet s a) (f (arrGet s a))) :
    sameContents (arrMod s a f) a = sameContents s a := by
  have hobjects : (arrMod s a f).objects = s.objects := rfl
  unfold sameContents
  rw [arrGet_arrMod, hobjects]
  simp only [h.ownerKind, h.owner, h.generation]

/-- Whether contents are at hand depends on what the array holds and for whom. -/
theorem contentFor_arrMod {f : OrArray → OrArray} {p : Programming} (hp : p.array.val = a) (h : SameHeld (arrGet s a) (f (arrGet s a))) :
    (contentFor (arrMod s a f) p).isSome = (contentFor s p).isSome := by
  subst hp
  unfold contentFor
  dsimp only
  rw [arrGet_arrMod, show goldenPlace (arrMod s p.array.val f) p.array.val p.owner p.handle p.generation.toNat =
    goldenPlace s p.array.val p.owner p.handle p.generation.toNat from rfl]
  cases goldenPlace s p.array.val p.owner p.handle p.generation.toNat with
  | some e => simp only [Option.isSome_some]
  | none =>
    unfold sameOwner
    rw [h.levels, h.ownerKind, h.owner, h.generation, h.source]
    dsimp only
    rw [show generationDigest (arrMod s p.array.val f) p.owner p.handle p.generation.toNat =
      generationDigest s p.owner p.handle p.generation.toNat from rfl]
    split <;> rfl

/-- A programming operation that begins is under way at its array. -/
theorem beginProgram_begins (s : State) (p : Programming) : (arrGet (beginProgram s p) p.array.val).state = .programming ∧
    (arrGet (beginProgram s p) p.array.val).program = some p := by
  unfold beginProgram
  extract_lets a wear s0 s1
  have hwear : ∀ t, (reportWear t a).arrays = t.arrays := fun t => by
    unfold reportWear
    split
    · exact reportOf_arrays ..
    · rfl
  have harr : arrGet (reportWear (settleCal (siteMod s1 (a / 8) (fun x => { x with activity := .programming a })) a) a) a = arrGet s1 a :=
    congrArg (fun m : Store OrArray => sgetD m a {}) ((hwear _).trans (settleCal_arrays _ a))
  rw [harr, show arrGet s1 a = _ from arrGet_arrMod s0 a _]
  exact ⟨rfl, rfl⟩

/-- An array that waits to be programmed again, and may be, is. -/
theorem programAgain_begins {p : Programming} (hwants : wantsProgram (arrGet s a) = true) (hmay : mayProgram s a = true)
    (hp : sameContents s a = some p) (hcontent : (contentFor s p).isSome = true) :
    (arrGet (programAgain s a) a).state = .programming ∧ (arrGet (programAgain s a) a).program = some p := by
  have hrun : programAgain s a = beginProgram s p := by
    unfold programAgain
    rw [if_pos ⟨hwants, hmay⟩, hp]
    exact if_pos hcontent
  have ha := sameContents_array hp
  subst ha
  rw [hrun]
  exact beginProgram_begins s p

/-- An array marked to be programmed again, and that may be, is. -/
theorem programAgain_marked {f : OrArray → OrArray} {p : Programming} (hf : SameHeld (arrGet s a) (f (arrGet s a)))
    (hstate : (f (arrGet s a)).state = (arrGet s a).state)
    (hwear : (f (arrGet s a)).wearLimited = (arrGet s a).wearLimited) (hmark : (f (arrGet s a)).reprogram = true)
    (hserves : (arrGet s a).state = .programmed ∨ (arrGet s a).state = .serving) (hlimit : (arrGet s a).wearLimited = false)
    (hmay : mayProgram s a = true) (hp : sameContents s a = some p) (hcontent : (contentFor s p).isSome = true) :
    (arrGet (programAgain (arrMod s a f) a) a).state = .programming ∧ (arrGet (programAgain (arrMod s a f) a) a).program = some p := by
  refine programAgain_begins ?_ ?_ ((sameContents_arrMod hf).trans hp) ?_
  · rw [arrGet_arrMod]
    unfold wantsProgram
    rw [hmark, hstate, hwear, hlimit]
    simpa using hserves
  · rw [mayProgram_arrMod (by unfold programmable; rw [hstate, hwear])]
    exact hmay
  · rw [contentFor_arrMod (sameContents_array hp) hf]
    exact hcontent

end

/-! ### Array scrubs (R149, R150) -/

section
variable {s : State} {a : Nat} {cells : List CellReading} {adj : List (Nat × Nat × Nat × Nat)} {p : Programming} {x : OrArray}

/-- Cells a scrub found more than 0.6 level off. -/
def cellsOff (y : OrArray) (cells : List CellReading) : List CellReading := cells.filter (fun c => decide (600 < cellError y c))

/-- Of those, the ones that the scrub before found too (R149). -/
def cellsStuck (x : OrArray) (off : List CellReading) : List CellReading :=
  off.filter (fun c => x.suspects.any (fun e => decide (e = (c.pair, c.row, c.positive))) && !x.stuck.any (sameCell c))

/-- An array as a scrub leaves it, before its stuck cells are absorbed. -/
def scrubbed (off new : List CellReading) (rms : Bool) (y : OrArray) : OrArray :=
  { y with suspects := off.map (fun c => (c.pair, c.row, c.positive)), stuck := y.stuck ++ new, verified := y.verified || !rms
           unproven := false, due := y.due || y.active.isNone }

theorem arrayScrubbed_refused (h : mayScrub s a = false) : arrayScrubbed a cells adj s = s := by
  have hnone : (sameContents s a).filter (fun _ => mayScrub s a) = none := Option.filter_eq_none_iff.mpr fun _ _ => by simp [h]
  unfold arrayScrubbed
  rw [hnone]

/-- A scrub against the levels of the golden copy. -/
theorem arrayScrubbed_runs {lv : List (List Int)} {rms : Bool} (hx : arrGet s a = x) (hmay : mayScrub s a = true)
    (hp : sameContents s a = some p) (hlv : goldenLevels s a p = some lv)
    (hrms : rms = rmsHigh { x with levels := lv } (if lv = x.levels then cells else allCells x cells)) :
    arrayScrubbed a cells adj s = if rms = true ∧ (x.unproven = true ∨ (x.verified = false ∧ x.wearLimited = true)) then verificationFails s a (some lv)
      else settleRecovered (absorbStuck (arrMod s a (scrubbed (cellsOff { x with levels := lv } cells)
        (cellsStuck x (cellsOff { x with levels := lv } cells)) rms)) a (cellsStuck x (cellsOff { x with levels := lv } cells)) adj
        (rms || decide (1200 < x.sigma))) a := by
  subst hx
  unfold arrayScrubbed
  rw [hp, Option.filter_some, if_pos hmay]
  dsimp only
  rw [hlv]
  simp only [Option.getD_some, Option.isNone_some, Bool.false_or, ← hrms, Bool.not_eq_true', Bool.decide_and, Bool.and_eq_true, decide_eq_true_eq]
  rfl

/-- A scrub of an array for which no plan says what it is to hold. -/
theorem arrayScrubbed_unplaced (hx : arrGet s a = x) (hmay : mayScrub s a = true) (hp : sameContents s a = some p)
    (hlv : goldenLevels s a p = none) (hun : x.unproven = true) : arrayScrubbed a cells adj s = verificationFails s a none := by
  subst hx
  unfold arrayScrubbed
  rw [hp, Option.filter_some, if_pos hmay]
  dsimp only
  rw [hlv]
  exact if_pos ⟨rfl, .inl hun⟩

/-- Recovery settled leaves what an array's cells are. -/
theorem settleRecovered_cells (t : State) (b : Nat) : (arrGet (settleRecovered t b) b).stuck = (arrGet t b).stuck ∧
    (arrGet (settleRecovered t b) b).suspects = (arrGet t b).suspects ∧ (arrGet (settleRecovered t b) b).state = (arrGet t b).state ∧
    (arrGet (settleRecovered t b) b).program = (arrGet t b).program := by
  obtain ⟨o, ho⟩ := settleRecovered_leaves t b
  rw [ho]
  exact ⟨rfl, rfl, rfl, rfl⟩

/-- No new stuck cells, and the array refreshed: it is programmed again. -/
theorem absorbStuck_refreshes (hfew : (arrGet s a).stuck.length ≤ 64) (adj : List (Nat × Nat × Nat × Nat)) (hlimit : (arrGet s a).wearLimited = false) :
    absorbStuck s a [] adj true = programAgain (arrMod s a (fun x => { x with reprogram := x.reprogram || (true && !x.wearLimited) })) a :=
  if_neg (by omega)

end

/-! ### Repair adapters (R154, R156, R174) -/

/-- Each iteration of a training is kept or dropped (R174), and changes no more than the running mean beside. -/
theorem watchIteration_counts (e : RepairAdapter) (n : F32 × Option F32) : ∃ m k d,
    watchIteration e n = { e with mean := m, kept := k, dropped := d } ∧ k + d = e.kept + e.dropped + 1 := by
  unfold watchIteration
  dsimp only
  split
  · next h => exact ⟨n.1, 1, e.dropped, rfl, by omega⟩
  · split
    · exact ⟨_, e.kept + 1, e.dropped, rfl, by omega⟩
    · split
      · split
        · exact ⟨e.mean, e.kept, e.dropped + 1, rfl, by omega⟩
        · exact ⟨_, e.kept + 1, e.dropped, rfl, by omega⟩
      · exact ⟨e.mean, e.kept, e.dropped + 1, rfl, by omega⟩

theorem foldl_watchIteration_counts (l : List (F32 × Option F32)) (e : RepairAdapter) : ∃ m k d,
    l.foldl watchIteration e = { e with mean := m, kept := k, dropped := d } ∧ k + d = e.kept + e.dropped + l.length := by
  induction l generalizing e with
  | nil => exact ⟨e.mean, e.kept, e.dropped, rfl, rfl⟩
  | cons n l ih =>
    obtain ⟨m, k, d, he, hsum⟩ := watchIteration_counts e n
    obtain ⟨m1, k1, d1, he1, hsum1⟩ := ih (watchIteration e n)
    rw [he] at he1 hsum1
    refine ⟨m1, k1, d1, ?_, ?_⟩
    · rw [List.foldl_cons, he, he1]
    · rw [List.length_cons, hsum1]
      dsimp only
      omega

/-- The adapter of a layer and replica once a training result has come. -/
def trainedBy (s : State) (t : TrainedAdapter) (e : RepairAdapter) : RepairAdapter :=
  if adapterGood s e t then { t.norms.foldl watchIteration e with trained := some t } else t.norms.foldl watchIteration e

theorem trainedBy_leaves (s : State) (t : TrainedAdapter) {e : RepairAdapter} (h : e.trained = none) :
    trainedBy s t e = { e with trained := (trainedBy s t e).trained, mean := (trainedBy s t e).mean, kept := (trainedBy s t e).kept
                               dropped := (trainedBy s t e).dropped } ∧
    (trainedBy s t e).trained = (if adapterGood s e t then some t else none) ∧
    (trainedBy s t e).kept + (trainedBy s t e).dropped = e.kept + e.dropped + t.norms.length := by
  obtain ⟨m, k, d, he, hsum⟩ := foldl_watchIteration_counts t.norms e
  unfold trainedBy
  rw [he]
  split
  · exact ⟨rfl, rfl, hsum⟩
  · exact ⟨rfl, h, hsum⟩

theorem adapterTrained_eq (g : Nat) (t : TrainedAdapter) (s : State) : adapterTrained g t s = { s with repairAdapters := s.repairAdapters.map (fun e =>
    if e.lane = g ∧ e.node = t.node ∧ e.replica = t.replica ∧ e.trained.isNone then trainedBy s t e else e) } := rfl

/-- The arrays of adapters that have run out of time retire, and stay retired. -/
theorem foldl_retireReported (l : List ArrayNo) (s : State) :
    (∀ a ∈ l, (arrGet (l.foldl (fun u a => retireReported u a.val 2) s) a.val).state = .retired) ∧
    CellsKept s (l.foldl (fun u a => retireReported u a.val 2) s) ∧
    (l.foldl (fun u a => retireReported u a.val 2) s).repairAdapters = s.repairAdapters := by
  induction l generalizing s with
  | nil => exact ⟨nofun, .refl s, rfl⟩
  | cons b l ih =>
    obtain ⟨hall, hkept, hrest⟩ := ih (retireReported s b.val 2)
    refine ⟨fun a ha => ?_, (retireReported_cellsKept s b.val 2).trans hkept, hrest.trans ?_⟩
    · rcases List.mem_cons.mp ha with rfl | ha
      · refine (hkept a.val).retired ?_
        unfold retireReported
        rw [arrGet_report, arrGet_retireArray]
      · exact hall a ha
    · unfold retireReported
      refine (congrArg State.repairAdapters (report_frame ..)).trans ?_
      have h := (retireArray_worked s b.val).same
      unfold SameButArrays at h
      rw [h]

/-- An adapter that has run out of time is discarded. -/
def adapterDiscarded (t : State) (e : RepairAdapter) : State :=
  e.arrays.foldl (fun u a => retireReported u a.val 2) { t with repairAdapters := t.repairAdapters.filter (fun y => y ≠ e) }

theorem foldl_adapterDiscarded (l : List RepairAdapter) (s : State) :
    (∀ e ∈ l, ∀ a ∈ e.arrays, (arrGet (l.foldl adapterDiscarded s) a.val).state = .retired) ∧ CellsKept s (l.foldl adapterDiscarded s) ∧
    (l.foldl adapterDiscarded s).repairAdapters = s.repairAdapters.filter (fun y => !l.contains y) := by
  induction l generalizing s with
  | nil => exact ⟨nofun, .refl s, by simp⟩
  | cons b l ih =>
    obtain ⟨hall, hkept, hrest⟩ := ih (adapterDiscarded s b)
    obtain ⟨hall1, hkept1, hrest1⟩ := foldl_retireReported b.arrays { s with repairAdapters := s.repairAdapters.filter (fun y => y ≠ b) }
    have hk : CellsKept s (adapterDiscarded s b) := (CellsKept.of_arrays rfl).trans hkept1
    refine ⟨fun e he a ha => ?_, hk.trans hkept, hrest.trans ?_⟩
    · rcases List.mem_cons.mp he with rfl | he
      · exact (hkept a.val).retired (hall1 a ha)
      · exact hall e he a ha
    · rw [show (adapterDiscarded s b).repairAdapters = _ from hrest1, List.filter_filter]
      refine List.filter_congr fun y _ => ?_
      simp [Bool.and_comm, bne, Bool.not_or]

/-- Settles O50: scrub passes, array scrubs by their outcomes, and the two ends of an adapter's training. -/
theorem scrubsAndRepairAdapters : Obligations.ScrubsAndRepairAdapters := by
  refine ⟨fun _ _ _ => rfl, fun _ _ _ _ => rfl, fun a cells off new adj s x y p lv rms hx hmay hp hlv hy hrms hgo hoff hnew => ?_,
    fun a cells adj s x p hx hmay hp hun => ⟨fun hlv hlimit => ?_, fun lv hlv hrms => ⟨fun hlimit => ?_, fun hlimit hmayProg hcontent => ?_⟩⟩,
    fun a cells adj s h => congrArg Host.Outcome.next (arrayScrubbed_refused h), fun g t s => ⟨_, rfl, adapterTrained_eq g.val t s, fun e he => ⟨?_, ?_⟩⟩,
    fun g node s late hlate => ?_, fun g node s h => ?_⟩
  · subst hy
    have hrun := arrayScrubbed_runs (adj := adj) hx hmay hp hlv hrms
    have hsteady := arrayScrubbed_steady (a := a.val) (cells := cells) (offered := adj) (s := s)
    rw [if_neg hgo, show cellsOff { x with levels := lv } cells = off from hoff.symm, show cellsStuck x off = new from hnew.symm] at hrun
    rw [hrun] at hsteady
    have hs1 : arrGet (arrMod s a.val (scrubbed off new rms)) a.val = scrubbed off new rms x := by rw [arrGet_arrMod, hx]
    have hkept := absorbStuck_cellsKept (arrMod s a.val (scrubbed off new rms)) a.val new adj (rms || decide (1200 < x.sigma)) a.val
    rw [hs1] at hkept
    obtain ⟨hstuck, hsuspects, hstate, hprogram⟩ := settleRecovered_cells
      (absorbStuck (arrMod s a.val (scrubbed off new rms)) a.val new adj (rms || decide (1200 < x.sigma))) a.val
    refine ⟨_, congrArg Host.Outcome.next hrun, hsteady.fuses, hsteady.boot, hsuspects.trans hkept.suspects, hstuck.trans hkept.stuck,
      fun hmany => ?_, fun hnone hfew hhigh hlimit hmayProg hcontent => ?_⟩
    · rw [hstate]
      exact absorbStuck_retires (by rw [hs1]; exact hmany) new adj _
    · subst hx
      have hserves : (arrGet s a.val).state = .programmed ∨ (arrGet s a.val).state = .serving := by
        simp only [mayScrub, Bool.and_eq_true, decide_eq_true_eq] at hmay
        tauto
      rw [hstate, hprogram, hnone, hhigh, Bool.true_or, absorbStuck_refreshes (by rw [arrGet_arrMod]; simpa [scrubbed] using hfew) adj
        (by rw [arrGet_arrMod]; exact hlimit), arrMod_arrMod]
      exact programAgain_marked ⟨rfl, rfl, rfl, rfl, rfl⟩ rfl rfl (by simp [scrubbed, hlimit]) hserves hlimit hmayProg hp hcontent
  · have hrun := arrayScrubbed_unplaced (cells := cells) (adj := adj) hx hmay hp hlv hun
    subst hx
    refine congrArg Host.Outcome.next (hrun.trans ?_)
    unfold verificationFails
    rw [if_neg (by simp [hlimit])]
    rfl
  · have hrun := arrayScrubbed_runs (adj := adj) hx hmay hp hlv hrms.symm
    have hsteady := arrayScrubbed_steady (a := a.val) (cells := cells) (offered := adj) (s := s)
    subst hx
    rw [if_pos ⟨rfl, .inl hun⟩] at hrun
    rw [hrun] at hsteady
    refine ⟨_, congrArg Host.Outcome.next hrun, ?_, hsteady.fuses, hsteady.boot⟩
    unfold verificationFails
    rw [if_pos hlimit, arrGet_retireArray]
  · have hrun := arrayScrubbed_runs (adj := adj) hx hmay hp hlv hrms.symm
    subst hx
    rw [if_pos ⟨rfl, .inl hun⟩] at hrun
    have hserves : (arrGet s a.val).state = .programmed ∨ (arrGet s a.val).state = .serving := by
      simp only [mayScrub, Bool.and_eq_true, decide_eq_true_eq] at hmay
      tauto
    refine ⟨_, congrArg Host.Outcome.next hrun, ?_⟩
    unfold verificationFails
    rw [if_neg (by simp [hlimit]), if_pos Option.isSome_some]
    exact programAgain_marked (f := fun y => { y with reprogram := true }) ⟨rfl, rfl, rfl, rfl, rfl⟩ rfl rfl rfl hserves hlimit hmayProg hp hcontent
  · rintro ⟨hlane, hnode, hreplica, hnone⟩
    obtain ⟨hframe, htrained, hsum⟩ := trainedBy_leaves s t hnone
    refine ⟨trainedBy s t e, List.mem_map.mpr ⟨e, he, if_pos ⟨hlane, hnode, hreplica, by simp [hnone]⟩⟩, hframe, htrained, hsum⟩
  · intro h
    exact List.mem_map.mpr ⟨e, he, if_neg (by simpa using h)⟩
  · subst hlate
    have hsteady := adapterTimesOut_steady (g := g.val) (node := node) (s := s)
    obtain ⟨hall, -, hrest⟩ := foldl_adapterDiscarded (s.repairAdapters.filter (fun e => decide (e.lane = g.val) &&
      decide (e.node = node) && e.trained.isNone && decide (e.startedAt + 2000000000 ≤ hostTime s))) s
    exact ⟨_, rfl, hall, hrest, hsteady.fuses, hsteady.boot⟩
  · have hnone : s.repairAdapters.filter (fun e => decide (e.lane = g.val) &&
        decide (e.node = node) && e.trained.isNone && decide (e.startedAt + 2000000000 ≤ hostTime s)) = [] :=
      List.filter_eq_nil_iff.mpr fun e he => by
        have := h e he
        simp [Nat.not_le.mpr this]
    refine congrArg Host.Outcome.next ?_
    unfold adapterTimesOut
    dsimp only
    rw [hnone]
    rfl

end Sys2Proof.Proofs
end

section
/-! Fabric ports: training, flits, datagrams and refusals (R472 to R475, R478 to R482). -/

namespace Sys2Proof.Proofs
open Sys2Proof Sys2Proof.Machine Sys2Proof.Safety Sys2Proof.Laws

/-! ### Ports -/

section
variable {s : State} {n : Nat} {p : Port}

theorem portGet_of (h : s.ports[n]? = some p) : portGet s n = p := by
  unfold portGet lgetD
  rw [h]
  rfl

/-- A port that is there reads as it was changed. -/
theorem portGet_portMod (h : s.ports[n]? = some p) (f : Port → Port) : portGet (portMod s n f) n = f p := by
  refine portGet_of ((List.getElem?_modify_eq ..).trans ?_)
  rw [h]
  rfl

/-- A change of a port that is there. -/
theorem portMod_eq (h : s.ports[n]? = some p) (f : Port → Port) : portMod s n f = { s with ports := s.ports.set n (f p) } := by
  unfold portMod lmod
  rw [List.modify_eq_set_getElem?, h]
  rfl

/-- A change that leaves the port leaves the state. -/
theorem portMod_same (h : s.ports[n]? = some p) {f : Port → Port} (hf : f p = p) : portMod s n f = s := by
  obtain ⟨hn, hp⟩ := List.getElem?_eq_some_iff.mp h
  rw [portMod_eq h, hf, ← hp, List.set_getElem_self]

theorem ports_portMod (h : s.ports[n]? = some p) (f : Port → Port) : (portMod s n f).ports[n]? = some (f p) := by
  refine (List.getElem?_modify_eq ..).trans ?_
  rw [h]
  rfl

theorem reportPort_ports (s : State) (n severity lanes : Nat) : (reportPort s n severity lanes).ports = s.ports :=
  (congrArg State.ports (report_frame s _ _ _ _)).trans rfl

theorem reportPort_fuses (s : State) (n severity lanes : Nat) : (reportPort s n severity lanes).fuses = s.fuses :=
  (congrArg State.fuses (report_frame s _ _ _ _)).trans rfl

end

/-! ### Training and lanes (R472–R474, R476) -/

section
variable {s : State} {n : Nat} {p : Port}

theorem tryPair_alone (h : s.pair.partner = none) : tryPair s = s := by
  unfold tryPair
  rw [h]

theorem drainPort_idle (h : p.queued = []) : drainPort p = p := if_neg (by simp [h])

/-- A port whose training has ended (R472, R474). -/
def portTrained (now k : Nat) (p : Port) : Port :=
  { p with state := if k = 4 then 2 else 3, lanes := k, profile := if p.offeredBackplane then 1 else 2
           retraining := false, failCount := 0, lastHeartbeatIn := now }

/-- Training ends in a mode that the lanes allow. -/
theorem portComesUp_trained {k : Nat} (h : s.ports[n]? = some p) (hstate : p.state = 1) (hk : k ≠ 0) (hmode : p.mode = 2 → k = 4)
    (hqueued : p.queued = []) : portComesUp n p.offeredBackplane k s =
      { s with ports := s.ports.set n (portTrained s.now k p) } := by
  have hgo : ¬(p.state ≠ 1 ∨ k = 0 ∨ p.offeredBackplane ≠ p.offeredBackplane ∨ (p.mode = 2 ∧ k ≠ 4)) := by
    simp only [hstate, ne_eq, not_true_eq_false, hk, false_or, not_and, not_not]
    exact hmode
  unfold portComesUp
  rw [portMod_eq h, if_neg hgo]
  exact congrArg (fun q => { s with ports := s.ports.set n q }) (drainPort_idle (p := portTrained s.now k p) hqueued)

/-- A lane that fails on a port that carries traffic. -/
theorem laneFails_up (h : s.ports[n]? = some p) (hup : portUp p = true) : laneFails n s =
    if p.mode = 1 then
      if fewerLanes p.lanes = 0 then reportPort (portMod s n (fun q => { q with state := 4, lanes := 0 })) n 3 0
      else reportPort (portMod s n (fun q => { q with state := 3, lanes := fewerLanes p.lanes })) n 2 (fewerLanes p.lanes)
    else reportPort (portMod s n (fun q => { q with state := 0, lanes := 0 })) n 2 0 := by
  unfold laneFails
  dsimp only
  rw [portGet_of h, if_neg (by simp [hup])]

theorem laneFails_down (h : s.ports[n]? = some p) (hup : portUp p = false) : laneFails n s = s := by
  unfold laneFails
  dsimp only
  rw [portGet_of h, if_pos (by simp [hup])]

theorem retrainTimesOut_fails (h : s.ports[n]? = some p) (hstate : p.state = 1) (hre : p.retraining = true) :
    retrainTimesOut n s = reportPort (portMod s n (fun q => { q with state := 4, lanes := 0, retraining := false })) n 3 0 := by
  unfold retrainTimesOut
  dsimp only
  rw [portGet_of h, if_pos ⟨hstate, hre⟩]

theorem retrainTimesOut_idle (h : s.ports[n]? = some p) (hre : p.retraining = false) : retrainTimesOut n s = s := by
  unfold retrainTimesOut
  dsimp only
  rw [portGet_of h, if_neg (by simp [hre])]

/-- A port reported keeps what was set of it. -/
theorem reportPort_set (h : s.ports[n]? = some p) (f : Port → Port) (severity lanes : Nat) :
    (reportPort (portMod s n f) n severity lanes).ports = s.ports.set n (f p) ∧ (reportPort (portMod s n f) n severity lanes).fuses = s.fuses := by
  rw [reportPort_ports, reportPort_fuses, portMod_eq h]
  exact ⟨rfl, rfl⟩

end

/-! ### Flits (R475, R476) -/

/-- What sending queued data leaves of a port. -/
structure SameIncoming (p q : Port) : Prop where
  rxNext : q.rxNext = p.rxNext
  acked : q.acked = p.acked
  naks : q.naks = p.naks

theorem noteAsked_incoming (k : Nat) (d : BitVec 128) (ask : Option Purpose) (p : Port) : SameIncoming p (noteAsked k d ask p) := by
  unfold noteAsked
  split <;> exact ⟨rfl, rfl, rfl⟩

theorem drainQueue_incoming (l : List (Bytes × Option Purpose)) (p : Port) : SameIncoming p (drainQueue l p) := by
  induction l generalizing p with
  | nil => exact ⟨rfl, rfl, rfl⟩
  | cons e l ih =>
    unfold drainQueue
    split
    · obtain ⟨hrx, hack, hnak⟩ := ih (flitLeaves 1 2 e.1 (noteAsked p.txNext 0 e.2 p))
      obtain ⟨hrx1, hack1, hnak1⟩ := noteAsked_incoming p.txNext 0 e.2 p
      exact ⟨hrx.trans hrx1, hack.trans hack1, hnak.trans hnak1⟩
    · exact ⟨rfl, rfl, rfl⟩

theorem drainPort_incoming (p : Port) : SameIncoming p (drainPort p) := by
  unfold drainPort
  split
  · exact drainQueue_incoming p.queued p
  · exact ⟨rfl, rfl, rfl⟩

theorem satAdd32_zero (w : Word) : satAdd32 w 0 = w := by
  unfold satAdd32
  apply BitVec.eq_of_toNat_eq
  have := w.isLt
  simp only [Nat.add_zero, BitVec.toNat_ofNat]
  omega

section
variable {s : State} {n : Nat} {p : Port} {f : Bytes}

/-- A port with a data flit taken in its turn (R475). -/
def flitInTurn (f : Bytes) (p : Port) : Port :=
  { takeAck f { p with corrected := satAdd32 p.corrected 0 } with
    rxNext := (p.rxNext + 1) % flitMod, freed := lmod p.freed (leAt f 0 1 % 4) (· + 1) }

theorem flitArrives_inTurn (h : s.ports[n]? = some p) (hup : portUp p = true) (hmode : p.mode = 1) (hok : flitOk f = true)
    (hkind : leAt f 0 1 / 4 = 1) (hseq : leAt f 1 3 = p.rxNext) :
    flitArrives n f 0 false s = { s with ports := s.ports.set n (drainPort (flitInTurn f p)) } := by
  unfold flitArrives
  rw [portMod_eq h]
  dsimp only
  rw [if_neg (by simp [hup, hmode]), if_neg (by simp [hok]), if_neg (by omega), if_neg (by omega)]
  unfold takeAck
  dsimp only
  rw [if_pos hseq, if_neg (by omega)]
  rfl

theorem flitArrives_bad (h : s.ports[n]? = some p) (hup : portUp p = true) (hmode : p.mode = 1) (hok : flitOk f = false) :
    flitArrives n f 0 false s = { s with ports := s.ports.set n { p with naks := p.rxNext :: p.naks } } := by
  unfold flitArrives
  rw [portMod_eq h]
  dsimp only
  rw [if_neg (by simp [hup, hmode]), if_pos (by simp [hok]), satAdd32_zero]
  rfl

/-- Failures of a flit once it is asked for again (R476). -/
def flitFails (p : Port) (q : Nat) : Nat := if p.failCount ≠ 0 ∧ p.failSeq = q then p.failCount + 1 else 1

/-- A negative acknowledgement on a port in Hachate mode that is up. -/
theorem resendFrom_up {q : Nat} (h : s.ports[n]? = some p) (hup : portUp p = true) (hmode : p.mode = 1) : resendFrom n q s =
    { s with ports := s.ports.set n (
      if flitFails p q < 8 then
        { p with resends := min 65535 (p.resends + (p.retry.filter (fun e => flitUpTo q e.1)).length), failSeq := q
                 failCount := flitFails p q
                 sent := ((p.retry.filter (fun e => flitUpTo q e.1)).map (·.2)).reverse ++ p.sent }
      else { p with state := 1, retraining := true, offeredBackplane := decide (p.profile = 1), failSeq := q, failCount := 0 }) } := by
  unfold resendFrom
  rw [portMod_eq h]
  dsimp only
  rw [if_neg (by simp [hup, hmode])]
  rfl

end

/-! ### Datagrams and refusals (R479–R482) -/

section
variable {s : State} {n : Nat} {p : Port} {src : BitVec 128} {b : Bytes}

/-- A port with a numbered datagram taken in its turn: what it acknowledges waits no longer, and it is acknowledged (R479, R482). -/
def datagramInTurn (src : BitVec 128) (b : Bytes) (p : Port) : Port :=
  { p with unacked := p.unacked.filter (fun x => ¬(x.destination = src ∧ x.sequence ≤ leAt b 8 4))
           dgRx := sput p.dgRx src.toNat (leAt b 4 4), sent := datagramBytes 4 0 (leAt b 4 4) [] :: p.sent }

theorem takeInTurn_inTurn (h : s.ports[n]? = some p) (hseq : leAt b 4 4 = sgetD p.dgRx src.toNat 0 + 1) (act : State → State) :
    takeInTurn n src b act (takeAcknowledged n src b s) = act { s with ports := s.ports.set n (datagramInTurn src b p) } := by
  obtain ⟨hn, -⟩ := List.getElem?_eq_some_iff.mp h
  have hget : (portGet (takeAcknowledged n src b s) n).dgRx = p.dgRx := by
    unfold takeAcknowledged
    rw [portGet_portMod h]
  unfold takeInTurn
  dsimp only
  rw [hget, if_pos hseq]
  congr 1
  unfold takeAcknowledged sendAck
  have h1 := ports_portMod h (fun q => { q with unacked := q.unacked.filter (fun x => ¬(x.destination = src ∧ x.sequence ≤ leAt b 8 4)) })
  have h2 := ports_portMod h1 (fun q => { q with dgRx := sput q.dgRx src.toNat (leAt b 4 4) })
  rw [portMod_eq h2, portMod_eq h1, portMod_eq h]
  dsimp only
  rw [List.set_set, List.set_set, sgetD_sput_same]
  rfl

theorem datagramArrives_response (h : s.ports[n]? = some p) (hup : portUp p = true) (hmode : p.mode = 2) (hok : datagramOk b = true)
    (hkind : leAt b 1 1 = 2) (hseq : leAt b 4 4 = sgetD p.dgRx src.toNat 0 + 1) :
    datagramArrives n src b s = { s with ports := s.ports.set n (datagramInTurn src b p) } := by
  unfold datagramArrives
  dsimp only
  rw [portGet_of h, if_neg (by simp [hup, hmode, hok]), if_neg (by omega), takeInTurn_inTurn h hseq, if_pos hkind]

theorem datagramArrives_malformed (h : datagramOk b = false) : datagramArrives n src b s = s := if_pos (by simp [h])

/-- A refusal in its turn on a network port that is up. -/
theorem refusalArrives_inTurn (h : s.ports[n]? = some p) (hup : portUp p = true) (hmode : p.mode = 2) (hok : refusalOk b = true)
    (hseq : leAt b 4 4 = sgetD p.dgRx src.toNat 0 + 1) : refusalArrives n src b s =
      refused n (leAt b 28 4) src { s with ports := s.ports.set n (datagramInTurn src b p) } := by
  unfold refusalArrives
  dsimp only
  rw [portGet_of h, if_neg (by simp [hup]), if_pos hmode, if_neg (by simp [hok]), takeInTurn_inTurn h hseq]

theorem refusalArrives_malformed (h : s.ports[n]? = some p) (hmode : p.mode = 2) (hok : refusalOk b = false) : refusalArrives n src b s = s := by
  unfold refusalArrives
  dsimp only
  rw [portGet_of h]
  split
  · rfl
  · exact if_pos (by simp [hok])

theorem portGet_set (h : s.ports[n]? = some p) (q : Port) : portGet { s with ports := s.ports.set n q } n = q := by
  obtain ⟨hn, -⟩ := List.getElem?_eq_some_iff.mp h
  exact portGet_of (List.getElem?_set_self hn)

theorem refused_unknown {seq : Nat} (h : (portGet s n).asked.find? (fun a => a.sequence = seq ∧ a.destination = src) = none) :
    refused n seq src s = s := by
  unfold refused
  rw [h]

theorem refused_block {seq k i : Nat}
    (h : ((portGet s n).asked.find? (fun a => a.sequence = seq ∧ a.destination = src)).map (·.purpose) = some (.block k i)) :
    refused n seq src s = writeRefused n k i s := by
  obtain ⟨a, ha, hpurpose⟩ := Option.map_eq_some_iff.mp h
  unfold refused
  rw [ha]
  dsimp only
  rw [hpurpose]

/-- A block that does not leave for a peer is not sent. -/
theorem copyBlock_elsewhere {k i : Nat} {y : Block} (hy : (sget s.requests k).bind (fun r => r.blocks[i]?) = some y) (h : y.dest ≠ .peer) :
    copyBlock k s i = s := by
  unfold copyBlock
  rw [hy]
  exact if_neg (fun hc => h hc.2)

/-- A block that a peer refuses goes to the start of the swap area, if that is the next destination (R334, R481). -/
theorem writeRefused_toSwap {k i : Nat} {r : Request} {y : Block} (hr : sget s.requests k = some r) (hy : r.blocks[i]? = some y)
    (hloc : y.location = .leaving) (hdest : y.dest = .peer) (hport : y.port = n)
    (hcopy : copyDestination { s with kv := { s.kv with peers := smod s.kv.peers n (fun p => { p with full := true }) } } [y.bytes] =
      some (.hostSwap, 0, [0])) :
    writeRefused n k i s = { s with
      kv := { s.kv with peers := smod s.kv.peers n (fun p => { p with full := true }) }
      requests := smod s.requests k (fun q => { q with blocks := lmod q.blocks i (fun x => { x with dest := .hostSwap, port := 0, destAt := 0 }) }) } := by
  unfold writeRefused
  rw [hr, Option.bind_some, hy]
  dsimp only
  rw [if_neg (by simp [hloc, hdest, hport]), hcopy]
  dsimp only
  have hmod : sget (smod s.requests k (fun q => { q with blocks := lmod q.blocks i (fun x => { x with dest := .hostSwap, port := 0, destAt := 0 }) })) k =
      some { r with blocks := lmod r.blocks i (fun x => { x with dest := .hostSwap, port := 0, destAt := 0 }) } := by
    rw [sget_smod_same, hr]
    rfl
  have hblock : (lmod r.blocks i (fun x => { x with dest := .hostSwap, port := 0, destAt := 0 }))[i]? =
      some { y with dest := .hostSwap, port := 0, destAt := 0 } := by
    refine (List.getElem?_modify_eq ..).trans ?_
    rw [hy]
    rfl
  have hbind : (sget (smod s.requests k (fun q => { q with blocks := lmod q.blocks i (fun x =>
      { x with dest := .hostSwap, port := 0, destAt := 0 }) })) k).bind (fun r => r.blocks[i]?) =
      some { y with dest := .hostSwap, port := 0, destAt := 0 } := by
    rw [hmod]
    exact hblock
  exact copyBlock_elsewhere hbind (by simp)

/-! ### Datagrams without an answer, networks and neighbours (R478, R482) -/

theorem datagramResends_again {x : Unacked} (h : s.ports[n]? = some p) (hx : p.unacked.find? (fun y => y.sentAt + 200000 ≤ s.now) = some x)
    (ht : x.attempts < 8) : datagramResends n s = { s with ports := s.ports.set n { p with
      sent := x.payload :: p.sent
      unacked := p.unacked.map (fun y => if y = x then { y with attempts := y.attempts + 1, sentAt := s.now } else y) } } := by
  unfold datagramResends
  dsimp only
  rw [portGet_of h, hx]
  dsimp only
  rw [if_pos ht, portMod_eq h]

theorem datagramResends_givenUp {x : Unacked} (h : s.ports[n]? = some p) (hx : p.unacked.find? (fun y => y.sentAt + 200000 ≤ s.now) = some x)
    (ht : 8 ≤ x.attempts) (hfetch : x.fetch = none) (hasked : ∀ a ∈ p.asked, a.sequence ≠ x.sequence) :
    datagramResends n s = report { s with ports := s.ports.set n { p with unacked := p.unacked.filter (fun y => y ≠ x) } } 0x39 2 (fabricUid n)
      (leBytes 16 x.destination.toNat) := by
  have hnone : p.asked.find? (fun a => a.sequence = x.sequence ∧ a.destination = x.destination) = none :=
    List.find?_eq_none.mpr fun a ha => by simp [hasked a ha]
  unfold datagramResends
  dsimp only
  rw [portGet_of h, hx]
  dsimp only
  rw [if_neg (by omega), hfetch]
  dsimp only
  rw [hnone, portMod_eq h]

theorem neighbourHeard_kept {a : BitVec 64} {m : BitVec 128 × BitVec 48} (h : s.ports[n]? = some p) (hup : portUp p = true) (hmode : p.mode = 2)
    (hnew : a ∉ p.networks) : neighbourHeard n (some a) (some m) s = { s with ports := s.ports.set n { p with
      networks := p.networks ++ [a], neighbours := p.neighbours.filter (fun x => x.1 ≠ m.1) ++ [m] } } := by
  unfold neighbourHeard
  rw [portMod_eq h]
  dsimp only
  rw [if_neg (by simp [hup, hmode]), if_neg (by simpa using hnew)]

/-- A flit other than a heartbeat that moved the port on is no more than a flit (R485). -/
theorem flitTaken_plain {f : Bytes} {c : Nat} {u : Bool}
    (h : leAt f 0 1 / 4 ≠ 3 ∨ (portGet (flitArrives n f c u s) n).rxNext = (portGet s n).rxNext) : flitTaken n f c u s = flitArrives n f c u s :=
  if_neg fun hc => h.elim (fun hk => hk hc.2.1) (fun hr => hc.2.2 hr)

end

/-- Settles O55: port by port, through what each event makes of the port. -/
theorem fabricEvents : Obligations.FabricEvents := by
  intro n s p h
  refine ⟨fun hstate => ?_, fun k hstate hk hmode hqueued halone => ?_, fun k hk hmode halone => ?_, fun hup hmode hlanes => ?_,
    fun hup hmode hlanes => ?_, fun hup hmode => ?_, fun hup => congrArg Host.Outcome.next (laneFails_down h hup), fun hstate hre => ?_,
    fun hre => congrArg Host.Outcome.next (retrainTimesOut_idle h hre), fun f hup hmode hok hkind hseq => ?_, fun f hup hmode hok => ?_,
    fun q hup hmode hcount => ?_, fun q hup hmode hseq hcount => ?_, fun src b hup hmode hok hkind hseq => ?_,
    fun src b hok => congrArg Host.Outcome.next (datagramArrives_malformed hok), fun src b hup hmode hok hseq hasked => ?_,
    fun src b hmode hok => congrArg Host.Outcome.next (refusalArrives_malformed h hmode hok),
    fun src b k i r y hup hmode hok hseq hasked hr hy hloc hdest hport hcopy => ?_,
    fun x hx => ⟨fun ht => congrArg Host.Outcome.next (datagramResends_again h hx ht),
      fun ht hfetch hasked => congrArg Host.Outcome.next (datagramResends_givenUp h hx ht hfetch hasked)⟩,
    fun a m hup hmode hnew => congrArg Host.Outcome.next (neighbourHeard_kept h hup hmode hnew)⟩
  · refine congrArg Host.Outcome.next ((portMod_eq h _).trans ?_)
    rw [if_pos hstate]
  · have hrise := portComesUp_trained (k := k.val) h hstate (fun hc => hk (Fin.ext hc)) (fun hm => congrArg Fin.val (hmode hm)) hqueued
    refine congrArg Host.Outcome.next (Eq.trans (congrArg tryPair hrise) ?_)
    exact tryPair_alone halone
  · have hsame : portComesUp n.val p.offeredBackplane k.val s = s :=
      portMod_same h (if_pos (.inr (.inr (.inr ⟨hmode, fun hc => hk (Fin.ext hc)⟩))))
    exact congrArg Host.Outcome.next ((congrArg tryPair hsame).trans (tryPair_alone halone))
  · have hfails := laneFails_up h hup
    have hfewer : fewerLanes p.lanes = if 2 < p.lanes then 2 else 1 := by
      unfold fewerLanes
      split
      · rfl
      · rw [if_pos (by omega)]
    have hne : (if 2 < p.lanes then 2 else 1) ≠ 0 := by split <;> decide
    rw [if_pos hmode, hfewer, if_neg hne] at hfails
    exact ⟨_, congrArg Host.Outcome.next hfails, reportPort_set h _ _ _⟩
  · have hfails := laneFails_up h hup
    have hfewer : fewerLanes p.lanes = 0 := by
      unfold fewerLanes
      rw [if_neg (by omega), if_neg (by omega)]
    rw [if_pos hmode, if_pos hfewer] at hfails
    exact ⟨_, congrArg Host.Outcome.next hfails, reportPort_set h _ _ _⟩
  · have hfails := laneFails_up h hup
    rw [if_neg (by omega)] at hfails
    exact ⟨_, congrArg Host.Outcome.next hfails, reportPort_set h _ _ _⟩
  · exact ⟨_, congrArg Host.Outcome.next (retrainTimesOut_fails h hstate hre), reportPort_set h _ _ _⟩
  · have hflit := flitArrives_inTurn h hup hmode hok hkind hseq
    have htaken := (flitTaken_plain (n := n.val) (s := s) (c := 0) (u := false) (.inl (by omega : leAt f 0 1 / 4 ≠ 3))).trans hflit
    obtain ⟨hrx, hack, hnak⟩ := drainPort_incoming (flitInTurn f p)
    refine ⟨_, congrArg Host.Outcome.next htaken, rfl, ?_, ?_, ?_, fun hqueued => ?_, fun m hm => ?_⟩
    · rw [portGet_set h]
      exact hrx
    · rw [portGet_set h]
      exact hack
    · rw [portGet_set h]
      exact hnak
    · rw [portGet_set h, drainPort_idle (p := flitInTurn f p) hqueued]
      rfl
    · exact congrArg (fun x : Option Port => x.getD {}) (List.getElem?_set_ne (Ne.symm hm))
  · have hflit := flitArrives_bad h hup hmode hok
    have hsame : (portGet (flitArrives n.val f 0 false s) n.val).rxNext = (portGet s n.val).rxNext := by
      rw [hflit, portGet_set h, portGet_of h]
    exact congrArg Host.Outcome.next ((flitTaken_plain (.inr hsame)).trans hflit)
  · refine congrArg Host.Outcome.next ((resendFrom_up (q := q.toNat) h hup hmode).trans ?_)
    have hone : flitFails p q.toNat = 1 := if_neg (fun hc => hc.1 hcount)
    rw [hone, if_pos (by decide)]
  · refine congrArg Host.Outcome.next ((resendFrom_up (q := q.toNat) h hup hmode).trans ?_)
    have height : flitFails p q.toNat = 8 := (if_pos ⟨by omega, hseq⟩).trans (by rw [hcount])
    rw [height, if_neg (by decide), ← hseq]
  · refine ⟨_, congrArg Host.Outcome.next (datagramArrives_response h hup hmode hok hkind hseq), rfl, ?_⟩
    rw [portGet_set h]
    exact ⟨sget_sput_same _ _ _, rfl, rfl⟩
  · have hin := refusalArrives_inTurn h hup hmode hok hseq
    rw [refused_unknown (by rw [portGet_set h]; exact hasked)] at hin
    refine ⟨_, congrArg Host.Outcome.next hin, rfl, ?_⟩
    rw [portGet_set h]
    exact ⟨sget_sput_same _ _ _, rfl, rfl⟩
  · have hin := refusalArrives_inTurn h hup hmode hok hseq
    rw [refused_block (by rw [portGet_set h]; exact hasked),
      writeRefused_toSwap (s := { s with ports := s.ports.set n.val (datagramInTurn src b p) }) hr hy hloc hdest hport (hcopy _ rfl rfl)] at hin
    exact ⟨_, congrArg Host.Outcome.next hin, rfl, rfl⟩

end Sys2Proof.Proofs
end

section
/-! The pair: heartbeats, loss and partition, mirroring, and a pairing without its partner (R485, R490 to R496). -/

namespace Sys2Proof.Proofs
open Sys2Proof Sys2Proof.Machine Sys2Proof.Safety Sys2Proof.Laws

/-! ### Records that no longer wait -/

/-- Requests that end, and records written, leave the pair. -/
theorem SameButEnds.pair {s t : State} (h : SameButEnds s t) : t.pair = s.pair := by
  unfold SameButEnds at h
  rw [h]

theorem SameButEnds.foldl {α : Type} {f : State → α → State} (h : ∀ s x, SameButEnds s (f s x)) (l : List α) (s : State) :
    SameButEnds s (l.foldl f s) :=
  List.foldlRecOn (motive := fun t : State => SameButEnds s t) l f (.refl s) fun t ht x _ => ht.trans (h t x)

theorem flushAwaiting_foldl_frame (l : List Nat) (s : State) : SameButEnds s (l.foldl flushAwaiting s) :=
  .foldl (fun s h => (flushAwaiting_ending s h).same) l s

/-- No lane is protected by a partner. -/
def Unprotected (s : State) : Prop := ∀ e ∈ s.lanes, e.2.protected_ = false

section
variable {s : State}

theorem Unprotected.of_lanes (h : Unprotected s) {t : State} (hl : t.lanes = s.lanes) : Unprotected t := by
  unfold Unprotected
  rw [hl]
  exact h

theorem Unprotected.unlane (h : Unprotected s) (g k : Nat) : Unprotected (unlane s g k) := fun e he => by
  unfold Machine.unlane at he
  dsimp only at he
  rcases mem_smod (m := s.lanes) he with ⟨-, hmem⟩ | ⟨-, l, hmem, hv⟩
  · exact h e hmem
  · rw [hv]
    exact h _ hmem

theorem settleClosing_lanes (s : State) : (settleClosing s).lanes = s.lanes := by
  unfold settleClosing
  dsimp only
  rw [finishJobs_frame]
  rfl

theorem Unprotected.dropRequest (h : Unprotected s) (k : Nat) : Unprotected (dropRequest s k) := by
  unfold Machine.dropRequest
  split
  · exact h
  · rename_i r _
    refine Unprotected.of_lanes (s := Machine.unlane (if r.ran then s else addLevel s r.account r.cls (Int.ofNat (r.charge * 1024)) true) r.graph k)
      (.unlane ?_ _ _) (settleClosing_lanes _)
    split
    · exact h
    · exact h.of_lanes rfl

theorem Unprotected.recordWritten (h : Unprotected s) (e : RingEntry) : Unprotected (recordWritten s e) := by
  unfold Machine.recordWritten
  split
  · exact h
  · rename_i k _
    extract_lets s1
    have h1 : Unprotected s1 := by
      dsimp only [s1]
      split
      · split
        · exact h.of_lanes rfl
        · exact h
      · exact h
    split
    · exact h1.dropRequest k
    · exact h1

theorem Unprotected.pushRecord (h : Unprotected s) (k : Nat) (e : RingEntry) : Unprotected (pushRecord s k e) := by
  unfold Machine.pushRecord
  split
  · exact h
  · rename_i r _
    have hpost : Unprotected (ringPost s r.ring e).1 := h.of_lanes (by rw [ringPost_frame])
    split
    rename_i s1 written heq
    rw [heq] at hpost
    split
    · exact hpost.recordWritten e
    · split
      · exact (hpost.unlane r.graph k).of_lanes rfl
      · exact hpost

theorem Unprotected.flushAwaiting (h : Unprotected s) (k : Nat) : Unprotected (flushAwaiting s k) := by
  unfold Machine.flushAwaiting
  split
  · exact h
  · exact List.foldlRecOn (motive := fun t : State => Unprotected t) _ _ (h.of_lanes rfl) fun t ht e _ => ht.pushRecord k e

end

/-! ### Protection of lanes, and its report (R488, R495) -/

/-- A lane is protected only in a pair whose partner is not Dormant. -/
theorem protectLanes_lanes (s : State) : ∀ e ∈ (protectLanes s).lanes, e.2.protected_ = true →
    (s.pair.phase = .paired ∨ s.pair.phase = .partitioned) ∧ s.pair.partnerDormant = false := by
  intro e he hp
  unfold protectLanes at he
  dsimp only at he
  obtain ⟨l, -, hv⟩ := mem_smapAll (m := s.lanes) he
  rw [hv] at hp
  simp only [Bool.and_eq_true, decide_eq_true_eq, Bool.not_eq_true'] at hp
  exact ⟨hp.1.1.1, hp.1.1.2⟩

theorem protectLanes_unprotected {s : State} (h : (s.pair.phase ≠ .paired ∧ s.pair.phase ≠ .partitioned) ∨ s.pair.partnerDormant = true) :
    Unprotected (protectLanes s) := fun e he => by
  cases hp : e.2.protected_ with
  | false => rfl
  | true =>
    obtain ⟨hphase, hdormant⟩ := protectLanes_lanes s e he hp
    rcases h with ⟨h1, h2⟩ | h
    · exact absurd hphase (not_or.mpr ⟨h1, h2⟩)
    · rw [hdormant] at h
      cases h

theorem reportPair_lanes (s : State) (severity code : Nat) : (reportPair s severity code).lanes = s.lanes :=
  (congrArg State.lanes (report_frame s _ _ _ _)).trans rfl

theorem reportPair_pair (s : State) (severity code : Nat) : (reportPair s severity code).pair = s.pair :=
  (congrArg State.pair (report_frame s _ _ _ _)).trans rfl

theorem reportPair_requests (s : State) (severity code : Nat) : (reportPair s severity code).requests = s.requests :=
  (congrArg State.requests (report_frame s _ _ _ _)).trans rfl

/-! ### Loss and partition (R494–R496) -/

/-- A partition: each module serves its own requests, and no record waits (R495). -/
theorem partition_leaves (s : State) : (partition s).pair = { s.pair with phase := .partitioned, unacked := [] } ∧
    ∀ e ∈ (partition s).lanes, e.2.protected_ = true → s.pair.partnerDormant = false := by
  unfold partition
  dsimp only
  have hflush := flushAwaiting_foldl_frame (s.requests.map (·.1)) { s with pair := { s.pair with phase := .partitioned, unacked := [] } }
  rw [reportPair_pair, reportPair_lanes]
  refine ⟨hflush.pair, fun e he hp => ?_⟩
  have h := (protectLanes_lanes _ e he hp).2
  rw [hflush.pair] at h
  exact h

theorem takeOne_frame (s : State) (h : Nat) : SameButEnds s (takeOne s h) := by
  unfold takeOne
  split
  · exact .refl s
  · dsimp only
    split
    · exact .refl s
    · split
      · refine SameButEnds.trans ?_ (endRequest_ending _ h _).same
        rfl
      · split <;> rfl

/-- The loss of the partner: no lane stays protected, and no record waits (R494, R496). -/
theorem takeOver_leaves (s : State) : (takeOver s).pair = { s.pair with phase := .partnerLost, unacked := [] } ∧ Unprotected (takeOver s) := by
  unfold takeOver
  extract_lets mine s1 pair s2 s3
  have h1 : s1.pair = s.pair := List.foldlRecOn (motive := fun t : State => t.pair = s.pair) _ _ rfl fun t ht a _ => ht
  have h3 : SameButEnds s2 s3 := .foldl (fun t h => takeOne_frame t h) _ s2
  have hflush := flushAwaiting_foldl_frame (s3.requests.map (·.1)) s3
  have hpair : ((s3.requests.map (·.1)).foldl flushAwaiting s3).pair = { s.pair with phase := .partnerLost, unacked := [] } := by
    rw [hflush.pair, h3.pair, ← h1]
  refine ⟨(reportPair_pair ..).trans hpair, Unprotected.of_lanes (protectLanes_unprotected (.inl ?_)) (reportPair_lanes ..)⟩
  rw [hpair]
  exact ⟨nofun, nofun⟩

theorem silenceFound_silent {s : State} (hphase : s.pair.phase = .paired) (hsilent : heartbeatsSilent s = true) :
    silenceFound s = if s.pair.okIn then partition s else takeOver s := if_pos ⟨hphase, hsilent⟩

theorem silenceFound_heard {s : State} (h : s.pair.phase ≠ .paired ∨ heartbeatsSilent s = false) : silenceFound s = s := by
  refine if_neg fun hc => ?_
  rcases h with h | h
  · exact h hc.1
  · rw [h] at hc
    exact Bool.false_ne_true hc.2

/-! ### Heartbeats (R493) -/

theorem heartbeatGoes_out {s : State} {n : Nat} {p : Port} (h : s.ports[n]? = some p) (hconf : s.pair.configured = true) (hmode : p.mode = 1)
    (hup : portUp p = true) (hcredit : 0 < lgetD p.credits 1 0) (hroom : p.retry.length < 1024) :
    heartbeatGoes n s = { s with ports := s.ports.set n { flitLeaves 3 1 [] p with heartbeatsOut := p.heartbeatsOut + 1 } } := by
  have hmay : mayLeave 1 p = true := by
    unfold mayLeave
    have hno : ¬(lgetD p.credits 1 0 = 0 ∨ 1024 ≤ p.retry.length) := by omega
    simp [hno]
  have h1 := ports_portMod h (fun p => if mayLeave 1 p then flitLeaves 3 1 [] p else p)
  unfold heartbeatGoes
  rw [portGet_of h, if_pos ⟨hconf, hmode, hup⟩]
  unfold sendFlit
  rw [portMod_eq h1, portMod_eq h]
  dsimp only
  rw [List.set_set, if_pos hmay]
  rfl

theorem heartbeatGoes_unpaired {s : State} {n : Nat} (h : s.pair.configured = false) : heartbeatGoes n s = s := if_neg (by simp [h])

/-! ### Mirroring (R490) -/

section
variable {s : State}

theorem mirrorTaken_unpaired (h : s.pair.phase ≠ .paired) (m : MirrorMsg) : mirrorTaken m s = s := if_pos h

/-- Mirror messages that concern a request the partner mirrors here. -/
theorem mirrorTaken_request (hphase : s.pair.phase = .paired) {h : BitVec 32} {r : Request} (hr : sget s.requests h.toNat = some r) :
    mirrorTaken (.ended h) s = (if r.mirrored then { s with requests := sdel s.requests h.toNat } else s) ∧
    mirrorTaken (.preempted h) s =
      if r.mirrored then reqMod s h.toNat (fun q => { q with state := .preempted, preemptedAt := hostTime s }) else s := by
  unfold mirrorTaken
  refine ⟨(if_neg (not_not.mpr hphase)).trans ?_, (if_neg (not_not.mpr hphase)).trans ?_⟩
  · dsimp only
    rw [hr]
  · dsimp only
    rw [hr]

/-- What a mirrored step's room and keys change. -/
def SameButRequests (s t : State) : Prop := t = { s with requests := t.requests }

theorem SameButRequests.refl (s : State) : SameButRequests s s := rfl

theorem SameButRequests.trans {s t u : State} (h : SameButRequests s t) (k : SameButRequests t u) : SameButRequests s u := by
  unfold SameButRequests at *
  rw [k, h]

theorem SameButRequests.foldl {α : Type} {f : State → α → State} (h : ∀ s x, SameButRequests s (f s x)) (l : List α) (s : State) :
    SameButRequests s (l.foldl f s) :=
  List.foldlRecOn (motive := fun t : State => SameButRequests s t) l f (.refl s) fun t ht x _ => ht.trans (h t x)

theorem appendToken_frame (h g : Nat) (kv : List NewKv) (s : State) (i : Nat) : SameButRequests s (appendToken h g kv s i) := by
  unfold appendToken
  split
  · exact .refl s
  · split
    · exact .refl s
    · dsimp only
      split <;> rfl

theorem mirrorRoom_frame (g h n : Nat) (s : State) : SameButRequests s (mirrorRoom g h n s) := by
  unfold mirrorRoom
  split
  · exact .refl s
  · split
    · exact .refl s
    · dsimp only
      refine .trans ?_ (.foldl (f := fun t _ => reqMod t h (fun q => { q with reserved := q.reserved ++ [mirrorBlock t (sealedBytes t g) false] }))
        (fun _ _ => rfl) _ _)
      split
      · exact .refl s
      · rfl

theorem mirrorStep_leaves {h : Nat} {r : Request} (hr : sget s.requests h = some r) (hm : r.mirrored = true) (n : Nat)
    (token : Option (BitVec 32)) (res : Bytes) (kv : List NewKv) (carried : List (Nat × List F32)) (charge : Nat) :
    mirrorStep h n token res kv carried charge s = { s with
      requests := (mirrorStep h n token res kv carried charge s).requests
      accounts := smod s.accounts r.account (fun a => { a with buckets := lmod a.buckets r.cls (fun b =>
        { b with mirrored := b.mirrored - Int.ofNat (charge * 1024) }) }) } := by
  have hframe : SameButRequests s (appendKv (mirrorRoom r.graph h n s) h r.graph n kv) :=
    (mirrorRoom_frame r.graph h n s).trans (.foldl (fun t i => appendToken_frame h r.graph kv t i) _ _)
  unfold mirrorStep
  rw [hr]
  dsimp only
  rw [if_neg (by simp [hm])]
  unfold SameButRequests at hframe
  rw [hframe]
  rfl

/-- A request the partner admits or defers is kept as mirrored (R490). -/
theorem mirrorOpened_new {h : Nat} (p : Pkt) (d : Bool) (hr : sget s.requests h = none) : ∃ q, q.mirrored = true ∧ (d = true → q.state = .deferred) ∧
    mirrorOpened h p d s = { s with requests := sput s.requests h q, nextOrder := s.nextOrder + 1 } := by
  unfold mirrorOpened
  rw [hr]
  refine ⟨_, ?_, ?_, rfl⟩
  · rfl
  · rintro rfl
    rfl

theorem settlePair_frame (s : State) (fresh : Bool) : (settlePair s fresh).pair = s.pair ∧ (settlePair s fresh).requests = s.requests := by
  unfold settlePair
  dsimp only
  split
  · exact ⟨reportPair_pair .., reportPair_requests ..⟩
  · exact ⟨rfl, rfl⟩

theorem mirrorTaken_paired (hphase : s.pair.phase = .paired) :
    (∀ h n token res kv carried charge, mirrorTaken (.step h n token res kv carried charge) s =
      mirrorStep h.toNat n token res kv carried charge s) ∧
    (∀ h p d, mirrorTaken (.opened h p d) s = mirrorOpened h.toNat p d s) ∧
    (∀ a cls l, mirrorTaken (.level a cls l) s = { s with accounts := smod s.accounts a.val (fun x => { x with
      buckets := lmod x.buckets cls.val (fun b => { b with mirrored := l }) }) }) ∧
    (∀ ds, mirrorTaken (.lanes ds) s =
      settlePair { s with pair := { s.pair with partner := s.pair.partner.map (fun p => { p with lanes := ds }) } } false) ∧
    mirrorTaken (.dormant false) s = protectLanes { s with pair := { s.pair with partnerDormant := false } } := by
  have hgo : ¬s.pair.phase ≠ .paired := not_not.mpr hphase
  exact ⟨fun _ _ _ _ _ _ _ => if_neg hgo, fun _ _ _ => if_neg hgo, fun _ _ _ => if_neg hgo, fun _ => if_neg hgo, if_neg hgo⟩

/-- The lanes once the partner is Dormant: none protected. -/
def partnerSleeps (s : State) : State :=
  let s1 := protectLanes { s with pair := { s.pair with partnerDormant := true } }
  (s1.requests.map (·.1)).foldl flushAwaiting { s1 with pair := { s1.pair with unacked := [] } }

theorem mirrorTaken_dormant (hphase : s.pair.phase = .paired) : mirrorTaken (.dormant true) s = partnerSleeps s := if_neg (not_not.mpr hphase)

theorem partnerSleeps_leaves (s : State) : (partnerSleeps s).pair = { s.pair with partnerDormant := true, unacked := [] } ∧
    Unprotected (partnerSleeps s) := by
  unfold partnerSleeps
  dsimp only
  refine ⟨(flushAwaiting_foldl_frame _ _).pair, ?_⟩
  refine List.foldlRecOn (motive := fun t : State => Unprotected t) _ _ ?_ fun t ht h _ => ht.flushAwaiting h
  exact Unprotected.of_lanes (protectLanes_unprotected (s := { s with pair := { s.pair with partnerDormant := true } }) (.inr rfl)) rfl

theorem mirrorAcknowledged_awaited {g : Nat} (h : g ∈ s.pair.unacked) :
    (mirrorAcknowledged g s).pair = { s.pair with unacked := s.pair.unacked.filter (fun x => x ≠ g) } := by
  unfold mirrorAcknowledged
  rw [if_pos (List.contains_iff_mem.mpr h)]
  exact (flushAwaiting_foldl_frame _ _).pair

theorem mirrorAcknowledged_unawaited {g : Nat} (h : g ∉ s.pair.unacked) : mirrorAcknowledged g s = s := if_neg (by simpa using h)

/-! ### A pairing without its partner (R485) -/

/-- A pairing that ends leaves no packet at work on it. -/
theorem pairRefused_pairJob (s : State) (st : Status) : pairJob (pairRefused s st) = false := by
  unfold pairRefused pairJob
  dsimp only
  rw [finishJobs_frame]
  refine List.any_eq_false.mpr fun j hj => ?_
  have hkept := (List.mem_filter.mp hj).2
  cases hw : j.work with
  | pair x =>
    rw [hw] at hkept
    cases hkept
  | _ => exact Bool.false_ne_true

end

/-- Settles O54: event by event, through what each leaves of the pair and of the lanes it protects. -/
theorem pairEvents : Obligations.PairEvents := by
  refine ⟨fun n s hconf hmode hup hlen hcredit hroom => ?_, fun n s h => congrArg Host.Outcome.next (heartbeatGoes_unpaired h),
    fun s hphase hsilent => ⟨fun hok => ?_, fun hok => ?_⟩, fun s h => congrArg Host.Outcome.next (silenceFound_heard h), fun s => rfl,
    fun s hok hphase => ?_, fun s m h => congrArg Host.Outcome.next (mirrorTaken_unpaired h m), fun s hphase => ?_,
    fun g s h => ⟨_, rfl, mirrorAcknowledged_awaited h, mirrorAcknowledged_steady.fuses, mirrorAcknowledged_steady.boot⟩,
    fun g s h => congrArg Host.Outcome.next (mirrorAcknowledged_unawaited h), fun s hphase hjob hlate hpartner => ?_, fun s h => ?_⟩
  · have hn : n.val < s.ports.length := by omega
    have hp : s.ports[n.val]? = some (portGet s n.val) := by
      have hat := List.getElem?_eq_getElem hn
      rw [hat, portGet_of hat]
    refine ⟨_, congrArg Host.Outcome.next (heartbeatGoes_out hp hconf hmode hup hcredit hroom), rfl, ?_⟩
    rw [portGet_set hp]
    refine ⟨rfl, rfl, List.length_append .., fun m hm => ?_⟩
    exact congrArg (fun x : Option Port => x.getD {}) (List.getElem?_set_ne (Ne.symm hm))
  · have hrun := silenceFound_silent hphase hsilent
    rw [if_pos hok] at hrun
    have hsteady := silenceFound_steady (s := s)
    rw [hrun] at hsteady
    obtain ⟨hpair, hlanes⟩ := partition_leaves s
    exact ⟨_, congrArg Host.Outcome.next hrun, by rw [hpair], by rw [hpair], hlanes, hsteady.fuses, hsteady.boot⟩
  · have hrun := silenceFound_silent hphase hsilent
    rw [if_neg (by simp [hok])] at hrun
    have hsteady := silenceFound_steady (s := s)
    rw [hrun] at hsteady
    obtain ⟨hpair, hlanes⟩ := takeOver_leaves s
    exact ⟨_, congrArg Host.Outcome.next hrun, by rw [hpair], by rw [hpair], hlanes, hsteady.fuses, hsteady.boot⟩
  · have hrun : okInChanges false s = takeOver { s with pair := { s.pair with okIn := false } } := by
      unfold okInChanges
      rw [if_neg (by simp [hok]), hphase]
    obtain ⟨hpair, hlanes⟩ := takeOver_leaves { s with pair := { s.pair with okIn := false } }
    exact ⟨_, congrArg Host.Outcome.next hrun, by rw [hpair], by rw [hpair], hlanes⟩
  · obtain ⟨hstep, hopened, hlevel, hlanes, hawake⟩ := mirrorTaken_paired hphase
    refine ⟨fun h r hr hm => ?_, fun h r hr hm => ?_, fun h p d hr => ?_, fun a cls l => congrArg Host.Outcome.next (hlevel a cls l), fun ds => ?_,
      congrArg Host.Outcome.next hawake, ?_⟩
    · obtain ⟨hended, hpre⟩ := mirrorTaken_request hphase hr
      refine ⟨congrArg Host.Outcome.next (hended.trans (if_pos hm)), congrArg Host.Outcome.next (hpre.trans (if_pos hm)),
        fun n token res kv carried charge => ?_⟩
      have hleaves := mirrorStep_leaves hr hm n token res kv carried charge
      exact ⟨_, congrArg Host.Outcome.next ((hstep h n token res kv carried charge).trans hleaves), rfl, rfl⟩
    · obtain ⟨hended, hpre⟩ := mirrorTaken_request hphase hr
      exact ⟨congrArg Host.Outcome.next (hended.trans (if_neg (by simp [hm]))), congrArg Host.Outcome.next (hpre.trans (if_neg (by simp [hm])))⟩
    · obtain ⟨q, hm, hd, hnew⟩ := mirrorOpened_new p d hr
      exact ⟨_, q, congrArg Host.Outcome.next ((hopened h p d).trans hnew), rfl, sget_sput_same _ _ _, hm, hd⟩
    · exact ⟨_, congrArg Host.Outcome.next (hlanes ds), settlePair_frame _ false⟩
    · exact ⟨_, congrArg Host.Outcome.next (mirrorTaken_dormant hphase), partnerSleeps_leaves s⟩
  · have hrun : pairTimesOut s = pairRefused s .busy := if_pos ⟨hphase, hjob, hlate, by simp [hpartner]⟩
    have hsteady := pairTimesOut_steady (s := s)
    rw [hrun] at hsteady
    have hpair := pairRefused_leaves s .busy
    exact ⟨_, congrArg Host.Outcome.next hrun, by rw [hpair], by rw [hpair], pairRefused_pairJob s .busy, hsteady.fuses, hsteady.boot⟩
  · exact congrArg Host.Outcome.next (if_neg fun hc => by omega)

end Sys2Proof.Proofs
end

section

/-! Temperature and the output level (R422, R571–R573, R576–R583). -/

namespace Sys2Proof.Proofs
open Sys2Proof Sys2Proof.Machine Sys2Proof.Safety Sys2Proof.Laws

/-! ### Samples (R571, R572, R576, R579) -/

/-- What sampling the dies leaves of the Lodge, the supplies and the fuses. -/
def Watched (s t : State) : Prop := t.lodge.alive = s.lodge.alive ∧ t.power = s.power ∧ t.fuses = s.fuses

theorem report_watched (s : State) (k v : Nat) (u : Word) (d : Bytes) : Watched s (report s k v u d) :=
  ⟨report_alive s k v u d, report_power s k v u d, report_steady.fuses⟩

theorem sampleChannel_watched (s : State) (e : Nat × Reading) : Watched s (sampleChannel s e) := by
  unfold sampleChannel
  extract_lets c why old s1
  clear_value why
  cases why with
  | none => exact ⟨rfl, rfl, rfl⟩
  | some w => exact report_watched s1 _ _ _ _

theorem samples_watched (s : State) (l : List (Nat × Reading)) : Watched s (l.foldl sampleChannel s) :=
  List.foldlRecOn (motive := fun t : State => Watched s t) _ _ ⟨rfl, rfl, rfl⟩ fun t ⟨halive, hpower, hfuses⟩ e _ =>
    have ⟨ka, kp, kf⟩ := sampleChannel_watched t e
    ⟨ka.trans halive, kp.trans hpower, kf.trans hfuses⟩

/-- A sample of a Lodge that runs is judged with what the channels now read. -/
theorem exec_diodeSample {rs : List Reading} {s t : State} (halive : s.lodge.alive = true)
    (ht : t = recomputeDue s ((numbered (rs.take 18)).foldl sampleChannel s)) :
    exec (.diodeSample rs) s = .next (judgeTemperature t) ∧ Watched s t := by
  rw [ht]
  exact ⟨congrArg Host.Outcome.next (if_pos halive), samples_watched s _⟩

/-- No sample at re-arm or above arms the shutdown; one the Lodge does not watch does nothing else. -/
theorem judgeTemperature_unwatched {t : State} (hrearm : t.thermal.rearm ≤ moduleTemp t.thermal) (h : watching t = false) :
    judgeTemperature t = t := by
  unfold judgeTemperature
  dsimp only
  rw [if_neg (Int.not_lt.mpr hrearm), if_pos (by simp [h])]

/-- Below the shutdown threshold a first warning is reported (R576). -/
theorem judgeTemperature_warns {t : State} (hwatch : watching t = true) (hrearm : t.thermal.rearm ≤ moduleTemp t.thermal)
    (hbelow : moduleTemp t.thermal < t.thermal.shutdown) (hfirst : t.thermal.inWarning = false)
    (hwarn : t.thermal.warning ≤ moduleTemp t.thermal) (hcool : moduleTemp t.thermal < t.thermal.throttle) :
    judgeTemperature t = report { t with thermal := { t.thermal with inWarning := true } } 0x40 2
      (sensorUid (hotChannel t.thermal)) (leBytes 1 (hotChannel t.thermal) ++ [0] ++ leBytes 2 (twos 16 (moduleTemp t.thermal))) := by
  unfold judgeTemperature
  dsimp only
  rw [if_neg (Int.not_lt.mpr hrearm), if_neg (by simp [hwatch]), if_neg (by omega),
    if_pos (show (!t.thermal.inWarning) = true ∧ t.thermal.warning ≤ moduleTemp t.thermal from ⟨by simp [hfirst], hwarn⟩), if_neg]
  rw [report_thermal]
  simp [hcool]

/-- A sample at the throttle threshold within the warning state begins the throttle state (R579). -/
theorem judgeTemperature_throttles {t : State} (hwatch : watching t = true) (hrearm : t.thermal.rearm ≤ moduleTemp t.thermal)
    (hbelow : moduleTemp t.thermal < t.thermal.shutdown) (hsecond : t.thermal.inWarning = true)
    (hwarn : t.thermal.warningClear ≤ moduleTemp t.thermal) (hcool : t.thermal.inThrottle = false)
    (hhot : t.thermal.throttle ≤ moduleTemp t.thermal) :
    judgeTemperature t = report { t with thermal := { t.thermal with
        inThrottle := true, thermalLevel := min t.thermal.thermalLevel (throttleValue t.thermal),
        lowestLevel := min t.thermal.thermalLevel (throttleValue t.thermal), throttleAt := hostTime t, lastRiseAt := t.now } } 0x41 2
      (sensorUid 0) (leBytes 2 (twos 16 (moduleTemp t.thermal)) ++ leBytes 1 (min t.thermal.thermalLevel (throttleValue t.thermal))) := by
  unfold judgeTemperature
  dsimp only
  rw [if_neg (Int.not_lt.mpr hrearm), if_neg (by simp [hwatch]), if_neg (by omega),
    if_neg (show ¬ ((!t.thermal.inWarning) = true ∧ t.thermal.warning ≤ moduleTemp t.thermal) by simp [hsecond]),
    if_neg (show ¬ (t.thermal.inWarning = true ∧ moduleTemp t.thermal < t.thermal.warningClear) by omega),
    if_pos ⟨by simp [hcool], hhot⟩]

/-- An armed sample at the shutdown threshold shuts the module down (R582). -/
theorem judgeTemperature_shuts {t : State} (hwatch : watching t = true) (hrearm : t.thermal.rearm ≤ moduleTemp t.thermal)
    (harmed : t.thermal.armed = true) (hhot : t.thermal.shutdown ≤ moduleTemp t.thermal) :
    judgeTemperature t = thermalShutdown t (hotChannel t.thermal) false := by
  unfold judgeTemperature
  dsimp only
  rw [if_neg (Int.not_lt.mpr hrearm), if_neg (by simp [hwatch]), if_pos ⟨harmed, hhot⟩]

/-! ### Shutdown (R577, R582, R583) -/

/-- What rails turned off leave of FATAL and of the comparators' latch. -/
theorem railsOff_keeps (s : State) (why : Nat) : (railsOff s why).boot.fatal = s.boot.fatal ∧
    (railsOff s why).boot.fatalCause = s.boot.fatalCause ∧ (railsOff s why).thermal.tripLatch = s.thermal.tripLatch := by
  have hboot : (flushCounts s).boot = s.boot := flushCounts_steady.boot
  have hthermal : (flushCounts s).thermal = s.thermal := by rw [flushCounts_frame]
  rw [← hboot, ← hthermal]
  unfold railsOff
  dsimp only
  split
  · exact ⟨rfl, rfl, rfl⟩
  · rw [report_boot, report_thermal]
    exact ⟨rfl, rfl, rfl⟩

/-- What a thermal shutdown leaves: the rails off for that reason, FATAL cause 5, the latch if the comparator tripped. -/
theorem thermalShutdown_leaves (s : State) (channel : Nat) (hard : Bool) :
    (thermalShutdown s channel hard).power.railsOn = false ∧ (thermalShutdown s channel hard).power.state = .standby ∧
    (thermalShutdown s channel hard).power.offReason = 2 ∧ (thermalShutdown s channel hard).boot.fatal = true ∧
    (thermalShutdown s channel hard).boot.fatalCause = 5 ∧ (thermalShutdown s channel hard).requests = [] ∧
    (thermalShutdown s channel hard).fuses = s.fuses ∧
    (hard = true → (thermalShutdown s channel hard).thermal.tripLatch = some channel) := by
  unfold thermalShutdown
  extract_lets uid times s1 s2 thermal s3
  have hboot : s3.boot = s1.boot := by
    dsimp only [s3, s2]
    split
    · rfl
    · exact report_boot _ _ _ _ _
  have hfuses : s3.fuses = s.fuses := by
    have h1 : s1.fuses = s.fuses := by
      dsimp only [s1]
      rw [enterFatal_frame]
      rfl
    dsimp only [s3, s2]
    split
    · exact h1
    · exact (report_steady (s := s1)).fuses.trans h1
  obtain ⟨hrails, hstate, hwhy, -, hrequests, -, hkept⟩ := railsOff_leaves s3 2
  obtain ⟨hfatal, hcause, hlatch⟩ := railsOff_keeps s3 2
  rw [hboot] at hfatal hcause
  dsimp only [s1] at hfatal hcause
  rw [enterFatal_boot] at hfatal hcause
  exact ⟨hrails, hstate, hwhy, hfatal, hcause, hrequests, hkept.trans hfuses, fun h => hlatch.trans (if_pos h)⟩

/-! ### The throttle and power levels (R579, R580) -/

theorem watching_of {s : State} (halive : s.lodge.alive = true) (hon : s.power.railsOn = true) : watching s = true := by
  simp [watching, halive, hon]

/-- A lower value is taken at once. -/
theorem throttleMoves_falls {s : State} (hin : s.thermal.inThrottle = true) (hwatch : watching s = true)
    (hlower : throttleValue s.thermal < s.thermal.thermalLevel) (hpart : throttleValue s.thermal < 100) :
    throttleMoves s = { s with thermal := { s.thermal with
      thermalLevel := throttleValue s.thermal, lowestLevel := min s.thermal.lowestLevel (throttleValue s.thermal), lastRiseAt := s.now } } := by
  unfold throttleMoves
  dsimp only
  rw [if_neg (by simp [hin, hwatch]), if_pos hlower, if_neg (by omega), if_pos (.inl (by omega))]

/-- A higher value is approached by a point when 10 ms have passed. -/
theorem throttleMoves_rises {s : State} (hin : s.thermal.inThrottle = true) (hwatch : watching s = true)
    (hhigher : s.thermal.thermalLevel < throttleValue s.thermal) (hdue : s.thermal.lastRiseAt + 10000000 ≤ s.now)
    (hpart : s.thermal.thermalLevel < 99) :
    throttleMoves s = { s with thermal := { s.thermal with
      thermalLevel := s.thermal.thermalLevel + 1, lowestLevel := min s.thermal.lowestLevel (s.thermal.thermalLevel + 1), lastRiseAt := s.now } } := by
  unfold throttleMoves
  dsimp only
  rw [if_neg (by simp [hin, hwatch]), if_neg (Nat.not_lt.mpr (Nat.le_of_lt hhigher)),
    if_pos (And.intro hhigher hdue), if_neg (by omega), if_pos (.inr (by omega))]

/-- The throttle state ends below its clear threshold, with the level at 100. -/
theorem throttleMoves_ends {s : State} (hin : s.thermal.inThrottle = true) (hwatch : watching s = true)
    (hlevel : s.thermal.thermalLevel = 100) (hcool : moduleTemp s.thermal < s.thermal.throttleClear)
    (hfull : throttleValue s.thermal = 100) :
    (throttleMoves s).thermal.inThrottle = false ∧ (throttleMoves s).thermal.thermalLevel = 100 := by
  unfold throttleMoves
  dsimp only
  rw [if_neg (by simp [hin, hwatch]), if_neg (show ¬ throttleValue s.thermal < s.thermal.thermalLevel by omega),
    if_neg (by omega : ¬ (s.thermal.thermalLevel < throttleValue s.thermal ∧ _)), if_pos ⟨hcool, hlevel⟩, report_thermal]
  exact ⟨rfl, hlevel⟩

/-- Beyond a power limit the level falls by 5 points; the first fall is reported. -/
theorem powerMoves_falls {s : State} {m k : Nat} (hwatch : watching s = true) (hover : s.lodge.powerLimit < m ∨ 2600 < k) :
    powerMoves m k s =
      if s.thermal.powerLevel = 100 then
        report { s with thermal := { s.thermal with powerLevel := max 25 (s.thermal.powerLevel - 5), mean1s := m } } 0x45 2
          (sensorUid 0) (leBytes 2 m ++ leBytes 1 (max 25 (s.thermal.powerLevel - 5)))
      else { s with thermal := { s.thermal with powerLevel := max 25 (s.thermal.powerLevel - 5), mean1s := m } } := by
  unfold powerMoves
  dsimp only
  rw [if_neg (by simp [hwatch]), if_pos hover]

/-! ### The coolant (R573) -/

theorem coolantSampled_within {s : State} {i o : Reading} {x : List Reading} (halive : s.lodge.alive = true)
    (hwithin : coolantBad i o = false) : coolantSampled i o x s = { s with thermal := { s.thermal with
      inlet := i, outlet := o, external := x.take 2, coolantRecordAt := none } } := by
  unfold coolantSampled
  simp [halive, hwithin]

theorem coolantSampled_leaves {s : State} {i o : Reading} {x : List Reading} (halive : s.lodge.alive = true)
    (hbad : coolantBad i o = true) (hfirst : s.thermal.coolantRecordAt = none) : coolantSampled i o x s =
      report { s with thermal := { s.thermal with
        inlet := i, outlet := o, external := x.take 2, coolantRecordAt := some s.now } } 0x47 2 (sensorUid 0)
        (readingField false i ++ readingField false o) := by
  unfold coolantSampled
  simp [halive, hbad, hfirst]

/-- Settles O53: each sample is judged against the thresholds in turn, and each level moves by R579's and R580's steps. -/
theorem temperatureAndOutputLevel : Obligations.TemperatureAndOutputLevel := by
  refine ⟨fun rs s t halive ht hbelow hrearm => ?sample, fun rs s t halive ht hon hrearm harmed hhot => ?shuts,
    fun s hin halive hon => ⟨fun hlower hpart => ?falls, fun hhigher hdue hpart => ?rises, fun hlevel hcool hfull => ?ends⟩,
    fun m k s halive hon => ⟨fun hover hpart => ?lowers, fun hover hfull => ?first, fun hunder hshort => ?raises⟩,
    fun s hchanged => ?applied, fun s hsame => congrArg Host.Outcome.next (if_pos hsame),
    fun s halive => congrArg Host.Outcome.next (if_pos halive), fun c s hon => ?trips,
    fun s halive hstandby hwhy hfree hcool => ?rearms, fun s hheld => ?held, fun i o x s halive => ?coolant⟩
  case sample =>
    obtain ⟨hexec, hlodge, hpower, -⟩ := exec_diodeSample halive ht
    refine ⟨fun hoff => ?_, fun hon hfirst hwarn hcool => ?_, fun hon hsecond hwarn hcool hhot v hv => ?_⟩
    · exact hexec.trans (congrArg _ (judgeTemperature_unwatched hrearm (by simp [watching, hpower, hoff])))
    · exact hexec.trans (congrArg _ (judgeTemperature_warns (watching_of (hlodge.trans halive) (by rw [hpower]; exact hon)) hrearm hbelow
        hfirst hwarn hcool))
    · rw [hv]
      exact hexec.trans (congrArg _ (judgeTemperature_throttles (watching_of (hlodge.trans halive) (by rw [hpower]; exact hon)) hrearm
        hbelow hsecond hwarn hcool hhot))
  case shuts =>
    obtain ⟨hexec, hlodge, hpower, hfuses⟩ := exec_diodeSample halive ht
    obtain ⟨hrails, hstate, hwhy, hfatal, hcause, hrequests, hkept, -⟩ := thermalShutdown_leaves t (hotChannel t.thermal) false
    refine ⟨_, hexec.trans (congrArg _ (judgeTemperature_shuts (watching_of (hlodge.trans halive) (by rw [hpower]; exact hon)) hrearm
      harmed hhot)), hrails, hstate, hwhy, hfatal, hcause, hrequests, hkept.trans hfuses⟩
  case falls => exact congrArg Host.Outcome.next (throttleMoves_falls hin (watching_of halive hon) hlower hpart)
  case rises => exact congrArg Host.Outcome.next (throttleMoves_rises hin (watching_of halive hon) hhigher hdue hpart)
  case ends => exact ⟨_, rfl, throttleMoves_ends hin (watching_of halive hon) hlevel hcool hfull⟩
  case lowers => exact congrArg Host.Outcome.next ((powerMoves_falls (watching_of halive hon) hover).trans (if_neg hpart))
  case first =>
    refine congrArg Host.Outcome.next ((powerMoves_falls (watching_of halive hon) hover).trans ((if_pos hfull).trans ?_))
    rw [hfull]
    rfl
  case raises =>
    refine congrArg Host.Outcome.next (?_ : powerMoves m k s = _)
    unfold powerMoves
    dsimp only
    rw [if_neg (by simp [watching_of halive hon]), if_neg (by omega), if_pos hunder]
  case applied =>
    refine ⟨_, congrArg Host.Outcome.next (if_neg hchanged), rfl, rfl, fun e he st hst => ?_⟩
    dsimp only at he
    obtain ⟨l, -, hl⟩ := mem_smapAll he
    rw [hl] at hst ⊢
    obtain ⟨st0, -, rfl⟩ := Option.map_eq_some_iff.mp hst
    exact ⟨Nat.min_le_right _ _, fun hlow => by simp [hlow]⟩
  case trips =>
    obtain ⟨hrails, hstate, -, hfatal, hcause, -, hfuses, hlatch⟩ := thermalShutdown_leaves s c.val true
    exact ⟨_, congrArg Host.Outcome.next (if_pos hon), hrails, hstate, hlatch rfl, hfatal, hcause, hfuses⟩
  case rearms =>
    refine ⟨_, congrArg Host.Outcome.next (if_pos ⟨halive, hstandby, hwhy, by simp [hfree], hcool⟩), rfl, rfl, ?_, ?_, flushCounts_fuses _⟩
    · refine (?_ : (flushCounts { s with thermal := { s.thermal with armed := true } }).thermal.shutdowns = _)
      rw [flushCounts_frame]
    · refine (?_ : (flushCounts { s with thermal := { s.thermal with armed := true } }).thermal.armed = _)
      rw [flushCounts_frame]
  case held => exact congrArg Host.Outcome.next (if_neg (by simp [hheld]))
  case coolant =>
    exact ⟨fun hwithin => congrArg Host.Outcome.next (coolantSampled_within halive hwithin),
      fun hbad hfirst => congrArg Host.Outcome.next (coolantSampled_leaves halive hbad hfirst)⟩

end Sys2Proof.Proofs
end

section

/-! What ends of requests leave of the lanes; memory errors, lost stacks and quarters (R207, R500–R506, R533, R534). -/

namespace Sys2Proof.Proofs
open Sys2Proof Sys2Proof.Machine Sys2Proof.Safety Sys2Proof.Laws

/-! ### What is kept of every lane -/

/-- Reading a map of a store's values. -/
theorem sget_map {α β : Type} (f : α → β) (m : Store α) (g : Nat) : sget (m.map fun e => (e.1, f e.2)) g = (sget m g).map f := by
  induction m with
  | nil => rfl
  | cons e m ih =>
    obtain ⟨k, v⟩ := e
    simp only [List.map_cons, sget]
    split
    · rfl
    · exact ih

/-- What `f` reads of each lane is as it was, and no lane comes or goes. -/
def LanesKeep {α : Type} (f : Lane → α) (s t : State) : Prop :=
  t.lanes.map (fun e => (e.1, f e.2)) = s.lanes.map (fun e => (e.1, f e.2))

namespace LanesKeep
variable {α β : Type} {f : Lane → α} {s t u : State}

theorem refl (f : Lane → α) (s : State) : LanesKeep f s s := Eq.refl _

theorem trans (h : LanesKeep f s t) (k : LanesKeep f t u) : LanesKeep f s u := Eq.trans k h

theorem of_same (h : t.lanes = s.lanes) : LanesKeep f s t := by unfold LanesKeep; rw [h]

theorem foldl {γ : Type} {m : State → γ → State} (h : ∀ s x, LanesKeep f s (m s x)) (l : List γ) (s : State) :
    LanesKeep f s (l.foldl m s) :=
  List.foldlRecOn (motive := fun t : State => LanesKeep f s t) _ _ (refl f s) fun t ht x _ => trans ht (h t x)

/-- What is read of what is kept is kept. -/
theorem of_comp {k : Lane → β} (g : β → α) (hfg : ∀ l, f l = g (k l)) (h : LanesKeep k s t) : LanesKeep f s t := by
  have hmap := congrArg (List.map fun e : Nat × β => (e.1, g e.2)) h
  simpa only [LanesKeep, List.map_map, Function.comp_def, ← hfg] using hmap

theorem sget (h : LanesKeep f s t) (g : Nat) : (sget t.lanes g).map f = (sget s.lanes g).map f := by
  rw [← sget_map, ← sget_map, h]

theorem mem (h : LanesKeep f s t) {e : Nat × Lane} (he : e ∈ t.lanes) : ∃ l, (e.1, l) ∈ s.lanes ∧ f l = f e.2 := by
  have hin : (e.1, f e.2) ∈ s.lanes.map fun e => (e.1, f e.2) := h ▸ List.mem_map_of_mem (f := fun e : Nat × Lane => (e.1, f e.2)) he
  obtain ⟨⟨n, l⟩, hl, heq⟩ := List.mem_map.mp hin
  obtain ⟨rfl, hf⟩ := Prod.mk.inj heq
  exact ⟨l, hl, hf⟩

end LanesKeep

theorem laneMod_keeps {α : Type} {f : Lane → α} {m : Lane → Lane} (s : State) (g : Nat) (h : ∀ l, f (m l) = f l) :
    LanesKeep f s (laneMod s g m) := by
  refine (List.map_map ..).trans (List.map_congr_left fun e _ => ?_)
  dsimp only [Function.comp_apply]
  split
  · rw [h]
  · rfl

/-- A lane without the requests it serves and defers: all that ends of requests leave of it. -/
def bareLane (l : Lane) : Lane := { l with leftNow := 0, deferral := [], step := l.step.map (fun st => { st with batch := [] }) }

theorem bareLane_step (l : Lane) : (bareLane l).step.isSome = l.step.isSome := Option.isSome_map

/-! ### Ends of requests keep their lanes bare of them -/

theorem unlane_bare (s : State) (g h : Nat) : LanesKeep bareLane s (unlane s g h) :=
  laneMod_keeps s g fun l => by
    unfold bareLane
    simp only [Option.map_map]
    rfl

theorem finishJobs_bare (s : State) (answer : Job → Option (Status × Nat × Bytes)) : LanesKeep bareLane s (finishJobs s answer) :=
  .of_same (by rw [finishJobs_frame])

theorem settleClosing_bare (s : State) : LanesKeep bareLane s (settleClosing s) :=
  LanesKeep.trans (.of_same rfl) (finishJobs_bare _ _)

theorem dropRequest_bare (s : State) (h : Nat) : LanesKeep bareLane s (dropRequest s h) := by
  unfold dropRequest
  split
  · exact .refl _ s
  · rename_i r _
    dsimp only
    have hcharge : LanesKeep bareLane s (if r.ran then s else addLevel s r.account r.cls (Int.ofNat (r.charge * 1024)) true) :=
      .of_same (by split <;> rfl)
    exact hcharge.trans ((unlane_bare _ _ _).trans (LanesKeep.trans (.of_same rfl) (settleClosing_bare _)))

theorem markEnded_bare (s : State) (h g : Nat) : LanesKeep bareLane s (markEnded s h g) :=
  (unlane_bare s g h).trans (.of_same rfl)

theorem ringPost_bare (s : State) (n : Nat) (e : RingEntry) : LanesKeep bareLane s (ringPost s n e).1 :=
  .of_same (by rw [ringPost_frame])

theorem recordWritten_bare (s : State) (e : RingEntry) : LanesKeep bareLane s (recordWritten s e) := by
  unfold recordWritten
  split
  · exact .refl _ s
  · rename_i h _
    extract_lets s1
    have hcharge : LanesKeep bareLane s s1 := by
      refine .of_same ?_
      dsimp only [s1]
      split
      · split <;> rfl
      · rfl
    split
    · exact hcharge.trans (dropRequest_bare s1 h)
    · exact hcharge

theorem pushRecord_bare (s : State) (h : Nat) (e : RingEntry) : LanesKeep bareLane s (pushRecord s h e) := by
  unfold pushRecord
  split
  · exact .refl _ s
  · rename_i r _
    have hpost := ringPost_bare s r.ring e
    split
    rename_i s1 written heq
    rw [heq] at hpost
    split
    · exact hpost.trans (recordWritten_bare s1 e)
    · split
      · exact hpost.trans (markEnded_bare s1 h r.graph)
      · exact hpost

theorem postRecord_bare (s : State) (h : Nat) (e : RingEntry) : LanesKeep bareLane s (postRecord s h e) := by
  unfold postRecord
  split
  · exact .refl _ s
  · rename_i r _
    extract_lets s1
    split
    · exact pushRecord_bare s h e
    · split
      · exact LanesKeep.trans (.of_same rfl) (markEnded_bare s1 h r.graph)
      · exact .of_same rfl

theorem endRequest_bare (s : State) (h : Nat) (st : Status) : LanesKeep bareLane s (endRequest s h st) := by
  unfold endRequest
  split
  · exact .refl _ s
  · exact postRecord_bare s h _

/-! ### Containment (R511) -/

/-- What a chip reset leaves of the lanes and of the stacks that are mapped out. -/
theorem chipReset_units (s : State) (last cause : Nat) : (∀ e ∈ (chipReset s last cause).lanes, e.2.step = none) ∧
    (chipReset s last cause).planner.lostStacks = s.planner.lostStacks := by
  refine ⟨fun e he => ?_, ?_⟩
  · dsimp only [chipReset, engineRestart, refreshPairOk] at he
    obtain ⟨l, -, hl⟩ := mem_smapAll he
    rw [hl]
  · have hends := dropRequests_frame s ((s.requests.filter (fun e => !e.2.mirrored)).map (·.1))
    have hplanner := congrArg State.planner hends
    exact (congrArg Planner.lostStacks hplanner :)

/-- What containing a failure of a running engine leaves: the chip reset, or the engine halted. -/
theorem containAs_leaves {s : State} (kind severity : Nat) (uid : Word) (detail : Bytes) (op : Option OpInfo)
    (hrun : s.boot.state = .running) :
    ((containAs s kind severity uid detail op).boot.state = .chipReset ∨ (containAs s kind severity uid detail op).boot.state = .halted) ∧
    (containAs s kind severity uid detail op).boot.dmaStopped = true ∧
    (∀ e ∈ (containAs s kind severity uid detail op).lanes, e.2.step = none) ∧
    (containAs s kind severity uid detail op).fuses = s.fuses ∧
    ((containAs s kind severity uid detail op).boot.state = .chipReset → (containAs s kind severity uid detail op).requests = []) ∧
    (containAs s kind severity uid detail op).planner.lostStacks = s.planner.lostStacks := by
  unfold containAs
  rw [if_pos hrun]
  extract_lets s1 halted s2
  split
  · have hlanes : s2.lanes = s1.lanes := by dsimp only [s2]; rw [enterFatal_frame]
    have hplanner : s2.planner = s.planner := by dsimp only [s2]; rw [enterFatal_frame]; rfl
    have hfuses : s2.fuses = s.fuses := by dsimp only [s2]; rw [enterFatal_frame]; rfl
    have hboot : s2.boot.state = .halted ∧ s2.boot.dmaStopped = true := by
      dsimp only [s2]
      rw [enterFatal_boot]
      exact ⟨rfl, rfl⟩
    rw [report_frame, reportOf_frame]
    dsimp only
    rw [hlanes, hplanner, hfuses]
    exact ⟨.inr hboot.1, hboot.2, stopSteps_lanes s, rfl, fun h => absurd (hboot.1.symm.trans h) (by decide), rfl⟩
  · have hkept : (flushCounts (reportOf (enterFatal s1 4 uid) kind severity uid detail 0 op)).fuses = s.fuses ∧
        (flushCounts (reportOf (enterFatal s1 4 uid) kind severity uid detail 0 op)).planner = s.planner := by
      rw [flushCounts_frame, reportOf_frame, enterFatal_frame]
      exact ⟨rfl, rfl⟩
    unfold containmentReset
    generalize hs3 : flushCounts (reportOf (enterFatal s1 4 uid) kind severity uid detail 0 op) = s3
    rw [hs3] at hkept
    obtain ⟨hstate, -, hdma, hrequests, -, -, -, -, -, -, -, -, hfuses⟩ := chipReset_leaves s3 3 kind
    obtain ⟨hlanes, hlost⟩ := chipReset_units s3 3 kind
    exact ⟨.inl hstate, hdma, hlanes, hfuses.trans hkept.1, fun _ => hrequests, hlost.trans (congrArg (·.lostStacks) hkept.2)⟩

/-! ### The memory tier (R500, R502) -/

theorem repairRow_frame (s : State) (l : HbmLoc) : repairRow s l = { s with
    reliability := (repairRow s l).reliability, planner := (repairRow s l).planner, counts := (repairRow s l).counts,
    fns := (repairRow s l).fns, hostMem := (repairRow s l).hostMem, lodge := (repairRow s l).lodge } := by
  unfold repairRow
  extract_lets row region
  split
  · split <;> rfl
  · rw [report_frame]
    rfl

/-- What a row's repair leaves of the counts kept of other things. -/
theorem repairRow_counts (s : State) (l : HbmLoc) : (repairRow s l).reliability.pseudoCorrections = s.reliability.pseudoCorrections ∧
    (repairRow s l).reliability.symbolCorrections = s.reliability.symbolCorrections ∧
    (l.spareRows ≠ 0 → rowKey l ∈ (repairRow s l).reliability.rowRepairs) := by
  unfold repairRow
  extract_lets row region
  split
  · rename_i hnone
    split
    · exact ⟨rfl, rfl, fun h => absurd hnone h⟩
    · exact ⟨rfl, rfl, fun h => absurd hnone h⟩
  · rw [report_frame]
    exact ⟨rfl, rfl, fun _ => List.mem_append_right _ List.mem_cons_self⟩

theorem loggedBy_logBy (k n : Nat) (keep : Nat → Bool) (l : List (Nat × List Nat)) :
    loggedBy k (logBy k n keep l) = n :: (loggedBy k l).filter keep := by
  simp [loggedBy, logBy]

/-- The module with a corrected read counted (R500). -/
def correctedRead (s : State) (l : HbmLoc) (symbol : Nat) : State :=
  relMod s (fun r => { r with
    pseudoCorrections := (pseudoKey l, (((r.pseudoCorrections.find? (fun e => e.1 = pseudoKey l)).map (·.2)).getD 0) + 1)
      :: r.pseudoCorrections.filter (fun e => e.1 ≠ pseudoKey l)
    rowCorrections := logBy (rowKey l) (hostTime s) (fun t => decide (hostTime s ≤ t + 86400000000000)) r.rowCorrections
    symbolCorrections := logBy (pseudoKey l * 68 + symbol) (hostTime s) (fun t => decide (hostTime s ≤ t + 3600000000000))
      r.symbolCorrections })

/-- While a pin's corrections stay within R503, a corrected read counts, is reported, and has its row repaired when due. -/
theorem hbmCorrected_within {s : State} {l : HbmLoc} {symbol : Nat} {s2 : State}
    (hfew : (loggedBy (pseudoKey l * 68 + symbol) s.reliability.symbolCorrections).length < 1000)
    (hs2 : s2 = report (correctedRead s l symbol) 0x13 1 (locUid l) (leBytes 8 l.address.toNat ++ leBytes 1 symbol)) :
    hbmCorrected s l symbol none =
      if 2 ≤ (loggedBy (rowKey l) s2.reliability.rowScrubs).length ∨ 16 ≤ (loggedBy (rowKey l) s2.reliability.rowCorrections).length then
        repairRow s2 l else s2 := by
  have hpin : s2.reliability.symbolCorrections = (correctedRead s l symbol).reliability.symbolCorrections := by rw [hs2, report_frame]
  have hshort : ∀ t : State, t.reliability.symbolCorrections = s2.reliability.symbolCorrections →
      ¬ (1000 < (loggedBy (pseudoKey l * 68 + symbol) t.reliability.symbolCorrections).length ∧
        (!t.reliability.laneRepairsDue.contains (pseudoKey l * 68 + symbol)) = true) := by
    rintro t ht ⟨hmany, -⟩
    rw [ht, hpin] at hmany
    dsimp only [correctedRead, relMod] at hmany
    rw [loggedBy_logBy] at hmany
    have hkept := List.length_filter_le (fun t => decide (hostTime s ≤ t + 3600000000000))
      (loggedBy (pseudoKey l * 68 + symbol) s.reliability.symbolCorrections)
    rw [List.length_cons] at hmany
    omega
  unfold hbmCorrected
  extract_lets h row pin s1 t2 t3
  have ht2 : t2 = s2 := hs2.symm
  rw [if_neg]
  · dsimp only [t3]
    rw [ht2]
  · refine hshort t3 ?_
    dsimp only [t3]
    rw [ht2]
    split
    · exact (repairRow_counts s2 l).2.1
    · rfl

/-! ### A lost quarter (R533) -/

theorem readShard_frame (k : ObjKind) (h gen : Nat) (s : State) (e : Nat × Shard) :
    readShard k h gen s e = { s with ports := (readShard k h gen s e).ports } := by
  unfold readShard
  extract_lets x
  split
  · rfl
  · split
    · rfl
    · rename_i w _
      refine List.foldlRecOn (motive := fun t : State => t = { s with ports := t.ports }) _ _ rfl fun t ht i _ => ?_
      extract_lets len
      unfold sendMessage
      split
      · rw [ht]
        rfl
      · rw [ht]
        rfl

theorem refetchQuarter_frame (q : Nat) (named : List (ObjKind × Fin 16384 × Nat)) (s : State) :
    refetchQuarter q named s = { s with objects := (refetchQuarter q named s).objects, ports := (refetchQuarter q named s).ports } := by
  unfold refetchQuarter
  extract_lets lost s1
  refine List.foldlRecOn (motive := fun t : State => t = { s with objects := t.objects, ports := t.ports }) _ _ rfl fun t ht e _ => ?_
  rw [readShard_frame, ht]

/-- What requests that lose their blocks leave: the planner, and every lane bare of its requests. -/
theorem losesBlocks_leaves (s : State) (h : Nat) : (losesBlocks s h).planner = s.planner ∧ LanesKeep bareLane s (losesBlocks s h) := by
  unfold losesBlocks
  split
  · exact ⟨rfl, .refl _ s⟩
  · split
    · exact ⟨rfl, .refl _ s⟩
    · split
      · exact ⟨rfl, .of_same rfl⟩
      · refine ⟨?_, endRequest_bare s h _⟩
        rw [(endRequest_ending s h _).same]

theorem foldl_losesBlocks (hs : List Nat) (s : State) : (hs.foldl losesBlocks s).planner = s.planner ∧
    LanesKeep bareLane s (hs.foldl losesBlocks s) :=
  List.foldlRecOn (motive := fun t : State => t.planner = s.planner ∧ LanesKeep bareLane s t) _ _ ⟨rfl, .refl _ s⟩
    fun t ⟨hp, hl⟩ h _ => ⟨(losesBlocks_leaves t h).1.trans hp, hl.trans (losesBlocks_leaves t h).2⟩

theorem settleIdle_frame (s : State) : settleIdle s = { s with power := (settleIdle s).power } := by
  unfold settleIdle
  split <;> rfl

theorem dropSiteSteps_planner (s : State) (k : LayerKey) : (dropSiteSteps s k).planner = s.planner := by
  unfold dropSiteSteps
  extract_lets mine s1
  refine List.foldlRecOn (motive := fun t : State => t.planner = s.planner) _ _ rfl fun t ht e _ => ?_
  rw [settleDiagnosis_frame]
  exact ht

/-- A quarter that is lost: its lanes sit out without a step, and a build without it is forced. -/
theorem loseQuarter_leaves {q : Nat} {rs : List (BitVec 32)} {xs : List (ObjKind × Fin 16384 × Nat)} {s : State}
    (hrun : isRunning s = true) (hnew : q ∉ s.planner.lostQuarters) :
    (loseQuarter q rs xs s).planner.lostQuarters = s.planner.lostQuarters ++ [q] ∧
    BuildCause.quarter ∈ (loseQuarter q rs xs s).planner.queued ∧
    (∀ e ∈ (loseQuarter q rs xs s).lanes, e.2.plan.quarters.toNat.testBit q = true → e.2.step = none ∧ e.2.sitsOut = true) := by
  unfold loseQuarter
  rw [if_neg (by simp [hrun, hnew])]
  extract_lets uses hit s1 s2 dropped old s3 s4
  have hplanner : s3.planner.lostQuarters = s.planner.lostQuarters ++ [q] := by
    have h2 : s2.planner = s.planner := by
      refine List.foldlRecOn (motive := fun t : State => t.planner = s.planner) _ _ ?_ fun t ht k _ => (dropSiteSteps_planner t k).trans ht
      dsimp only [s1]
      rw [report_frame]
    exact congrArg (fun p : Planner => p.lostQuarters ++ [q]) h2
  have hlanes : ∀ e ∈ s3.lanes, e.2.plan.quarters.toNat.testBit q = true → e.2.step = none ∧ e.2.sitsOut = true := by
    intro e he huses
    dsimp only [s3] at he
    obtain ⟨l, -, hl⟩ := mem_smapAll he
    rw [hl] at huses ⊢
    cases hu : uses l with
    | true => exact ⟨rfl, rfl⟩
    | false =>
      rw [hu] at huses
      exact absurd (hu.symm.trans huses) (by decide)
  obtain ⟨hp4, hl4⟩ := foldl_losesBlocks (rs.map (·.toNat)) s3
  have hs4 : s4.planner = s3.planner ∧ s4.lanes = ((rs.map (·.toNat)).foldl losesBlocks s3).lanes := by
    dsimp only [s4]
    rw [refetchQuarter_frame]
    exact ⟨hp4, rfl⟩
  rw [settleIdle_frame]
  refine ⟨?_, mem_forceBuild_queued s4 _, fun e he huses => ?_⟩
  · exact (congrArg (·.lostQuarters) hs4.1).trans hplanner
  · have he4 : e ∈ ((rs.map (·.toNat)).foldl losesBlocks s3).lanes := hs4.2 ▸ he
    obtain ⟨l, hl, hbare⟩ := hl4.mem he4
    have hplan : l.plan = e.2.plan := congrArg (·.plan) hbare
    obtain ⟨hstep, hsits⟩ := hlanes _ hl (by rw [hplan]; exact huses)
    refine ⟨?_, (congrArg (·.sitsOut) hbare).symm.trans hsits⟩
    have hsome := (bareLane_step l).symm.trans ((congrArg (·.step.isSome) hbare).trans (bareLane_step e.2))
    dsimp only at hstep
    rw [hstep] at hsome
    exact Option.isNone_iff_eq_none.mp (by simpa using hsome.symm)

/-- Settles O52: each error is counted, reported, repaired or contained; each loss is taken once. -/
theorem memoryErrorsAndLostUnits : Obligations.MemoryErrorsAndLostUnits := by
  refine ⟨⟨fun l k s hfew => ?corrected, fun l lanes s => ⟨rfl, rfl, fun hrun i hi => ?uncorrected⟩,
    fun e s hin => ⟨fun htransient => ?transient, fun hlasting hfew hheld => ?remapped, fun hlasting hmany hheld q b hbank => ?exhausted⟩,
    fun e s hretired => congrArg Host.Outcome.next (if_pos (by simpa using hretired))⟩,
    fun q k s hrun hnew => ?stack, fun q k s hlost => congrArg Host.Outcome.next (if_pos (by simpa using hlost)),
    fun q rs xs s hrun hnew => ?quarter, fun q rs xs s hlost => congrArg Host.Outcome.next (if_pos (by simp [hlost]))⟩
  case corrected =>
    generalize hs2 : report (correctedRead s l k.val) 0x13 1 (locUid l) (leBytes 8 l.address.toNat ++ leBytes 1 k.val) = s2
    have hrel : s2.reliability = (correctedRead s l k.val).reliability := by rw [← hs2, report_frame]
    have hframe : s2 = { s with reliability := s2.reliability, counts := s2.counts, fns := s2.fns, hostMem := s2.hostMem, lodge := s2.lodge } := by
      rw [← hs2, report_frame]
      rfl
    have hcount : s2.reliability.pseudoCorrections.find? (fun e => e.1 = pseudoKey l) = some (pseudoKey l,
        (((s.reliability.pseudoCorrections.find? (fun e => e.1 = pseudoKey l)).map (·.2)).getD 0) + 1) := by
      rw [hrel]
      exact List.find?_cons_of_pos (by simp)
    have hrow : (loggedBy (rowKey l) s2.reliability.rowCorrections).length =
        ((loggedBy (rowKey l) s.reliability.rowCorrections).filter (fun t => decide (hostTime s ≤ t + 86400000000000))).length + 1 := by
      rw [hrel]
      exact congrArg List.length (loggedBy_logBy (rowKey l) _ _ _)
    obtain ⟨hpseudo, -, hrepaired⟩ := repairRow_counts s2 l
    refine ⟨_, congrArg Host.Outcome.next (hbmCorrected_within hfew hs2.symm), ?_⟩
    split
    · refine ⟨by rw [hpseudo]; exact hcount, ?_, fun _ => hrepaired⟩
      rw [repairRow_frame, hframe]
    · rename_i hnot
      refine ⟨hcount, ?_, fun hmany => absurd (.inr (by omega)) hnot⟩
      rw [hframe]
  case uncorrected =>
    have hleaves := containAs_leaves 0x17 4 (locUid l) (memDetail l.address.toNat 0) none hrun
    obtain ⟨hboot, hdma, hlanes, hfuses, hrequests, -⟩ := hleaves
    refine ⟨contain s 0x17 (locUid l) (memDetail l.address.toNat 0) none, ?_, hboot, hdma, hlanes, hfuses, hrequests⟩
    rcases List.mem_pair.mp hi with rfl | rfl
    · rfl
    · rfl
  case transient =>
    refine congrArg Host.Outcome.next ((if_neg (by simpa using hin)).trans ((if_pos htransient).trans ?_))
    rw [if_pos rfl]
  case remapped =>
    refine congrArg Host.Outcome.next ((if_neg (by simpa using hin)).trans ((if_neg (by simp [hlasting])).trans
      ((if_neg (by omega)).trans ?_)))
    unfold rebuildLine
    rcases hheld with h | h
    · rw [h]
      rfl
    · rw [h]
      rfl
  case exhausted =>
    have hrun : sramError e true s = bankExhausted s e :=
      (if_neg (by simpa using hin)).trans ((if_neg (by simp [hlasting])).trans (if_pos hmany))
    refine ⟨_, congrArg Host.Outcome.next hrun, ?_⟩
    unfold bankExhausted rebuildLine
    rw [hbank, hheld]
    dsimp only
    rw [report_frame]
    exact ⟨rfl, mem_forceBuild_queued _ _⟩
  case stack =>
    obtain ⟨hboot, -, hlanes, hfuses, -, hlost⟩ := containAs_leaves
      (s := { s with planner := { s.planner with lostStacks := s.planner.lostStacks ++ [(q.val, k.val)] } })
      0x62 3 (hbmUid q.val k.val 0) (leBytes 1 k.val) none hrun
    exact ⟨_, congrArg Host.Outcome.next (if_neg (by simpa using hnew)), hlost, mem_forceBuild_queued _ _, hboot, hlanes, hfuses⟩
  case quarter =>
    obtain ⟨hlost, hqueued, hlanes⟩ := loseQuarter_leaves (rs := rs) (xs := xs) (by simp [isRunning, hrun]) hnew
    have hsteady : Steady s (loseQuarter q.val rs xs s) := loseQuarter_steady
    exact ⟨_, rfl, hlost, hqueued, hlanes, hsteady.boot, hsteady.fuses⟩

end Sys2Proof.Proofs
end

section

/-! Windows, remote accesses and links (R240, R244, R246, R256–R262). -/

namespace Sys2Proof.Proofs
open Sys2Proof Sys2Proof.Machine Sys2Proof.Safety Sys2Proof.Laws

/-! ### A core and its windows -/

theorem coreGet_coreMod (s : State) (c : Nat) (f : Core → Core) : coreGet (coreMod s c f) c = f (coreGet s c) :=
  sgetD_sput_same _ _ _ _

theorem lgetD_lmod {α : Type} {l : List α} {i : Nat} (f : α → α) (d : α) (hi : i < l.length) : lgetD (lmod l i f) i d = f (lgetD l i d) := by
  simp [lgetD, lmod, List.getElem?_modify, hi]

theorem slotGet_slotMod {s : State} {c i : Nat} (f : Window → Window) (hi : i < (coreGet s c).windows.length) :
    slotGet (slotMod s c i f) c i = f (slotGet s c i) := by
  unfold slotGet slotMod
  rw [coreGet_coreMod]
  exact lgetD_lmod f {} hi

/-- A slot that reads as no closed, untouched window lies within the core's windows. -/
theorem slot_lt {s : State} {c i : Nat} (h : slotGet s c i ≠ {}) : i < (coreGet s c).windows.length := by
  by_contra hout
  refine h ?_
  unfold slotGet lgetD
  rw [List.getElem?_eq_none (Nat.le_of_not_lt hout)]
  rfl

theorem slot_lt_of_open {s : State} {c i : Nat} (h : (slotGet s c i).open_ = true) : i < (coreGet s c).windows.length :=
  slot_lt fun hnone => by
    rw [hnone] at h
    cases h

theorem getElem?_of_mem_numbered {α : Type} {l : List α} {i : Nat} {x : α} (h : (i, x) ∈ numbered l) : l[i]? = some x := by
  obtain ⟨k, hk, heq⟩ := List.mem_iff_getElem.mp h
  rw [show (numbered l)[k] = (k, l[k]'(by simpa [numbered] using hk)) by simp [numbered]] at heq
  obtain ⟨rfl, rfl⟩ := Prod.mk.inj heq
  exact List.getElem?_eq_getElem _

/-- A slot whose window holds the line is that window. -/
theorem slotGet_of_mem {t : State} {r : Remote} {i : Nat} {w : Window} (h : (i, w) ∈ slotsOf t r) :
    slotGet t (coreKey r.owner) i = w ∧ i < (coreGet t (coreKey r.owner)).windows.length := by
  have hat := getElem?_of_mem_numbered (List.mem_filter.mp h).1
  refine ⟨?_, (List.getElem?_eq_some_iff.mp hat).1⟩
  unfold slotGet lgetD
  rw [hat]
  rfl

/-- Beside lanes, cores change, and of this core its windows alone. -/
structure SameButWindows (c : Nat) (s t : State) : Prop where
  frame : t = { s with cores := t.cores, lanes := t.lanes }
  core : coreGet t c = { coreGet s c with windows := (coreGet t c).windows }

theorem SameButWindows.refl (c : Nat) (s : State) : SameButWindows c s s := ⟨rfl, rfl⟩

theorem SameButWindows.trans {c : Nat} {s t u : State} (h : SameButWindows c s t) (k : SameButWindows c t u) : SameButWindows c s u where
  frame := by rw [k.frame, h.frame]
  core := by rw [k.core, h.core]

theorem slotMod_windows (s : State) (c i : Nat) (f : Window → Window) : SameButWindows c s (slotMod s c i f) where
  frame := rfl
  core := by unfold slotMod; rw [coreGet_coreMod]

theorem reopenWindows_windows (s : State) (c : Nat) : SameButWindows c s (reopenWindows s c) where
  frame := rfl
  core := by unfold reopenWindows; rw [coreGet_coreMod]

/-- A core that waited at the exchange: the lane's step notes it (R247). -/
theorem exchangeWaited_frame (s : State) (w : Window) : exchangeWaited s w = { s with lanes := (exchangeWaited s w).lanes } := by
  unfold exchangeWaited
  split <;> rfl

theorem coreGet_exchangeWaited (s : State) (w : Window) (c : Nat) : coreGet (exchangeWaited s w) c = coreGet s c := by
  rw [exchangeWaited_frame]
  rfl

theorem closeWindow_windows (s : State) (c i : Nat) : SameButWindows c s (closeWindow s c i) := by
  unfold closeWindow
  exact .trans ⟨by rw [exchangeWaited_frame], by rw [coreGet_exchangeWaited]⟩ (slotMod_windows _ c i _)

/-- When the core has computed from what a closing window brought (R246). -/
def computedAt (s : State) (c i : Nat) : Nat :=
  max s.now ((((slotGet s c i).other.map (slotGet s c)).map (·.computed)).getD 0) + (slotGet s c i).compute

theorem slotGet_closeWindow {s : State} {c i : Nat} (hi : i < (coreGet s c).windows.length) :
    slotGet (closeWindow s c i) c i = { slotGet s c i with
      open_ := false, computed := computedAt s c i
      reopens := if (slotGet s c i).spans.isEmpty then none else some (computedAt s c i) } := by
  have hcore := coreGet_exchangeWaited s (slotGet s c i) c
  have hslot : slotGet (exchangeWaited s (slotGet s c i)) c i = slotGet s c i := by
    unfold slotGet at *
    rw [hcore]
  unfold closeWindow
  dsimp only
  rw [slotGet_slotMod _ (by rw [hcore]; exact hi), hslot]
  rfl

theorem settleWindow_windows (s : State) (c i : Nat) : SameButWindows c s (settleWindow s c i) := by
  unfold settleWindow
  split
  · exact closeWindow_windows s c i
  · exact .refl c s

/-- A window whose condition holds closes; what it has counted stays. -/
theorem slotGet_settleWindow {s : State} {c i : Nat} (hopen : (slotGet s c i).open_ = true) :
    (windowDone (slotGet s c i) = false → slotGet (settleWindow s c i) c i = slotGet s c i) ∧
    (windowDone (slotGet s c i) = true → (slotGet (settleWindow s c i) c i).open_ = false) ∧
    (slotGet (settleWindow s c i) c i).marks = (slotGet s c i).marks ∧
    (slotGet (settleWindow s c i) c i).written = (slotGet s c i).written := by
  have hi := slot_lt_of_open hopen
  unfold settleWindow
  cases hdone : windowDone (slotGet s c i) with
  | false =>
    rw [if_neg (by simp)]
    exact ⟨fun _ => rfl, fun h => absurd h (by decide), rfl, rfl⟩
  | true =>
    rw [if_pos ⟨hopen, rfl⟩, slotGet_closeWindow hi]
    exact ⟨fun h => absurd h (by decide), fun _ => rfl, rfl, rfl⟩

/-! ### What becomes of an access (R259, R260) -/

theorem judgeAccess_open {t : State} {r : Remote} {i : Nat} {w : Window} (wrong : Fin 3)
    (h : (slotsOf t r).find? (fun e => e.2.open_ && decide (e.2.tag = r.tag)) = some (i, w)) :
    judgeAccess t r wrong = if w.direction = wrong then .violation else .through i := by
  unfold judgeAccess
  dsimp only
  rw [h]

theorem judgeAccess_late {t : State} {r : Remote} {i : Nat} {w : Window} {rest : List (Nat × Window)} (wrong : Fin 3)
    (h : (slotsOf t r).find? (fun e => e.2.open_ && decide (e.2.tag = r.tag)) = none) (hslots : slotsOf t r = (i, w) :: rest) :
    judgeAccess t r wrong = .late i w := by
  unfold judgeAccess
  dsimp only
  rw [h, hslots]
  rfl

theorem judgeAccess_outside {t : State} {r : Remote} (wrong : Fin 3) (hslots : slotsOf t r = []) :
    judgeAccess t r wrong = .violation := by
  unfold judgeAccess
  dsimp only
  rw [hslots]
  rfl

/-! ### Credits (R244) -/

/-- A core's credits change and nothing else. -/
structure SameButCredits (key : Nat) (s t : State) : Prop where
  frame : t = { s with cores := t.cores }
  core : coreGet t key = { coreGet s key with credits := (coreGet t key).credits }

theorem SameButCredits.refl (key : Nat) (s : State) : SameButCredits key s s := ⟨rfl, rfl⟩

theorem setCredits_credits (s : State) (key : Nat) (source : Word) (n : Nat) : SameButCredits key s (setCredits s key source n) where
  frame := rfl
  core := by unfold setCredits; rw [coreGet_coreMod]

/-- An access takes place between what the credit takes and grants. -/
theorem onCredit_takes {r : Remote} {s : State} (take : State → State)
    (h : r.vc2 = true → creditsOf (coreGet s (coreKey r.owner)) r.source ≠ 0) :
    ∃ s1, SameButCredits (coreKey r.owner) s s1 ∧ SameButCredits (coreKey r.owner) (take s1) (onCredit r take s) := by
  unfold onCredit
  dsimp only
  cases hvc : r.vc2 with
  | false => exact ⟨s, .refl _ s, .refl _ _⟩
  | true =>
    rw [if_pos rfl]
    unfold sendLine
    rw [if_neg (h hvc)]
    exact ⟨_, setCredits_credits s _ r.source _, setCredits_credits _ _ r.source _⟩

/-- An access that needs no credit takes place at once. -/
theorem onCredit_free {r : Remote} (take : State → State) (s : State) (h : r.vc2 = false) : onCredit r take s = take s := by
  unfold onCredit
  exact if_neg (by simp [h])

/-- Without a credit nothing is sent. -/
theorem onCredit_none {r : Remote} {s : State} (take : State → State) (hvc : r.vc2 = true)
    (h : creditsOf (coreGet s (coreKey r.owner)) r.source = 0) : onCredit r take s = s := by
  unfold onCredit
  dsimp only
  rw [if_pos hvc]
  unfold sendLine
  rw [if_pos h]

/-- Credits leave the windows where an access is judged. -/
theorem slotsOf_credits {r : Remote} {s s1 : State} (h : SameButCredits (coreKey r.owner) s s1) :
    slotsOf (reopenWindows s1 (coreKey r.owner)) r = slotsOf (reopenWindows s (coreKey r.owner)) r := by
  have hcore : (coreGet (reopenWindows s1 (coreKey r.owner)) (coreKey r.owner)).windows =
      (coreGet (reopenWindows s (coreKey r.owner)) (coreKey r.owner)).windows := by
    unfold reopenWindows
    rw [coreGet_coreMod, coreGet_coreMod, h.core, h.frame]
  unfold slotsOf
  rw [hcore]
  have hlanes : s1.lanes = s.lanes := by rw [h.frame]
  unfold windowCurrent
  rw [show (reopenWindows s1 (coreKey r.owner)).lanes = (reopenWindows s (coreKey r.owner)).lanes from hlanes]

/-- The bytes an access brings do not depend on the cores. -/
theorem remoteBytes_cores (s : State) (r : Remote) (cores : Store Core) : remoteBytes { s with cores := cores } r = remoteBytes s r := by
  unfold remoteBytes
  split <;> rfl

/-! ### Accesses that go through, are late, or violate (R257–R260, R262) -/

/-- A window notes a line that was written. -/
def lineWritten (line : Nat) (w : Window) : Window :=
  { w with written := if w.written.contains line then w.written else line :: w.written }

/-- A line written through a window's slot. -/
def throughSlot (r : Remote) (i : Nat) (t : State) : State :=
  settleWindow (slotMod (coreMod t (coreKey r.owner) (fun c => { c with tile := sput c.tile r.line (remoteBytes t r) })) (coreKey r.owner) i
    (lineWritten r.line)) (coreKey r.owner) i

/-- What a line written through a slot leaves of the tile and the window. -/
theorem throughSlot_leaves {r : Remote} {t : State} {i : Nat} (hi : i < (coreGet t (coreKey r.owner)).windows.length)
    (hopen : (slotGet t (coreKey r.owner) i).open_ = true) :
    throughSlot r i t = { t with cores := (throughSlot r i t).cores, lanes := (throughSlot r i t).lanes } ∧
    (coreGet (throughSlot r i t) (coreKey r.owner)).tile = sput (coreGet t (coreKey r.owner)).tile r.line (remoteBytes t r) ∧
    r.line ∈ (slotGet (throughSlot r i t) (coreKey r.owner) i).written := by
  unfold throughSlot
  generalize ht1 : coreMod t (coreKey r.owner) (fun c => { c with tile := sput c.tile r.line (remoteBytes t r) }) = t1
  have hcore : coreGet t1 (coreKey r.owner) = { coreGet t (coreKey r.owner) with
      tile := sput (coreGet t (coreKey r.owner)).tile r.line (remoteBytes t r) } := by rw [← ht1, coreGet_coreMod]
  have hslot : slotGet t1 (coreKey r.owner) i = slotGet t (coreKey r.owner) i := by
    unfold slotGet
    rw [hcore]
  have hframe : t1 = { t with cores := t1.cores } := by
    rw [← ht1]
    rfl
  have hwritten : slotGet (slotMod t1 (coreKey r.owner) i (lineWritten r.line)) (coreKey r.owner) i =
      lineWritten r.line (slotGet t (coreKey r.owner) i) := by
    rw [slotGet_slotMod _ (by rw [hcore]; exact hi), hslot]
  have hsame := (slotMod_windows t1 (coreKey r.owner) i (lineWritten r.line)).trans (settleWindow_windows _ (coreKey r.owner) i)
  refine ⟨?_, ?_, ?_⟩
  · rw [hsame.frame, hframe]
  · rw [hsame.core, hcore]
  · obtain ⟨-, -, -, hline⟩ := slotGet_settleWindow (s := slotMod t1 (coreKey r.owner) i (lineWritten r.line)) (c := coreKey r.owner) (i := i)
      (by rw [hwritten]; exact hopen)
    rw [hline, hwritten]
    unfold lineWritten
    dsimp only
    split
    · rename_i h
      simpa using h
    · exact List.mem_cons_self

theorem diagnoseUnit_frame (s : State) (uid : Word) : diagnoseUnit s uid = { s with sites := (diagnoseUnit s uid).sites } := by
  unfold diagnoseUnit
  extract_lets u
  split
  · exact startDiagnosis_frame s _
  · split
    · refine List.foldlRecOn (motive := fun t : State => t = { s with sites := t.sites }) _ _ rfl fun t ht n _ => ?_
      rw [startDiagnosis_frame, ht]
    · rfl

/-- A core with a late access counted at it and at the window's slot. -/
def lateCore (write : Bool) (i : Nat) (c : Core) : Core :=
  if write then { c with
    windows := lmod c.windows i (fun x => { x with lateWrites := x.lateWrites + 1 }), lateWrites := satAdd32 c.lateWrites 1 }
  else { c with windows := lmod c.windows i (fun x => { x with lateReads := x.lateReads + 1 }), lateReads := satAdd32 c.lateReads 1 }

/-- A late access counts at its core, which notes the epoch (R262). -/
theorem lateAccess_core (t : State) (r : Remote) (i : Nat) (w : Window) (write : Bool) :
    ∃ epochs, coreGet (lateAccess t r i w write) (coreKey r.owner) =
      { lateCore write i (coreGet t (coreKey r.owner)) with lateEpochs := epochs } := by
  unfold lateAccess
  extract_lets key c s1 detail s2
  have hs1 : coreGet s1 key = lateCore write i (coreGet t key) := by
    dsimp only [s1]
    unfold slotMod
    rw [coreGet_coreMod, coreGet_coreMod]
    cases write <;> rfl
  split
  · exact ⟨(coreGet s1 key).lateEpochs, by rw [hs1]⟩
  · have hs2 : coreGet s2 key = { coreGet s1 key with lateEpochs := (w.epoch :: (coreGet s1 key).lateEpochs).take 8 } := by
      dsimp only [s2]
      rw [reportOf_frame]
      exact coreGet_coreMod s1 key (fun x => { x with lateEpochs := (w.epoch :: x.lateEpochs).take 8 })
    refine ⟨(w.epoch :: (coreGet s1 key).lateEpochs).take 8, ?_⟩
    split
    · rw [diagnoseUnit_frame]
      exact hs2.trans (by rw [hs1])
    · exact hs2.trans (by rw [hs1])

/-- A late write: the tile as it was, and one more of both counts. -/
theorem lateWrite_leaves {t : State} {r : Remote} {i : Nat} {w : Window} (hslot : slotGet t (coreKey r.owner) i = w)
    (hi : i < (coreGet t (coreKey r.owner)).windows.length) :
    (coreGet (lateAccess t r i w true) (coreKey r.owner)).tile = (coreGet t (coreKey r.owner)).tile ∧
    (coreGet (lateAccess t r i w true) (coreKey r.owner)).lateWrites = satAdd32 (coreGet t (coreKey r.owner)).lateWrites 1 ∧
    (slotGet (lateAccess t r i w true) (coreKey r.owner) i).lateWrites = w.lateWrites + 1 := by
  obtain ⟨epochs, hcore⟩ := lateAccess_core t r i w true
  have hlate : slotGet (lateAccess t r i w true) (coreKey r.owner) i = { w with lateWrites := w.lateWrites + 1 } := by
    unfold slotGet
    rw [hcore, ← hslot]
    exact lgetD_lmod (fun x : Window => { x with lateWrites := x.lateWrites + 1 }) {} hi
  rw [hcore, hlate]
  exact ⟨rfl, rfl, rfl⟩

/-- A late read, answered with zeros: the tile as it was, and one more of both counts. -/
theorem lateRead_leaves {t : State} {r : Remote} {i : Nat} {w : Window} (hslot : slotGet t (coreKey r.owner) i = w)
    (hi : i < (coreGet t (coreKey r.owner)).windows.length) (zeros : Bytes) {u : State}
    (hu : u = coreMod (lateAccess t r i w false) (coreKey r.owner) (fun c => { c with lastRead := zeros })) :
    (coreGet u (coreKey r.owner)).tile = (coreGet t (coreKey r.owner)).tile ∧ (coreGet u (coreKey r.owner)).lastRead = zeros ∧
    (coreGet u (coreKey r.owner)).lateReads = satAdd32 (coreGet t (coreKey r.owner)).lateReads 1 ∧
    (slotGet u (coreKey r.owner) i).lateReads = w.lateReads + 1 := by
  obtain ⟨epochs, hcore⟩ := lateAccess_core t r i w false
  have hcoreU : coreGet u (coreKey r.owner) = { lateCore false i (coreGet t (coreKey r.owner)) with lateEpochs := epochs, lastRead := zeros } := by
    rw [hu, coreGet_coreMod, hcore]
  have hlate : slotGet u (coreKey r.owner) i = { w with lateReads := w.lateReads + 1 } := by
    unfold slotGet
    rw [hcoreU, ← hslot]
    exact lgetD_lmod (fun x : Window => { x with lateReads := x.lateReads + 1 }) {} hi
  rw [hcoreU, hlate]
  exact ⟨rfl, rfl, rfl, rfl⟩

/-! ### The two accesses -/

/-- A write once a credit is taken. -/
def writeTaken (r : Remote) (s1 : State) : State :=
  match judgeAccess (reopenWindows s1 (coreKey r.owner)) r 1 with
  | .through i => throughSlot r i (reopenWindows s1 (coreKey r.owner))
  | .late i w => lateAccess (reopenWindows s1 (coreKey r.owner)) r i w true
  | .violation => violation (reopenWindows s1 (coreKey r.owner)) 64

theorem writeRemote_eq (r : Remote) (s : State) : writeRemote r s = onCredit r (writeTaken r) s := rfl

/-- The answer to a read. -/
def answered (r : Remote) (b : Bytes) (t : State) : State := coreMod t (coreKey r.owner) (fun c => { c with lastRead := b })

/-- A line read through a window. -/
def throughRead (r : Remote) (t : State) : State :=
  answered r (tileLine t (coreKey r.owner) r.line) { (coreMod t (coreKey r.owner) (fun c => { c with
    tile := sput c.tile r.line (tileLine t (coreKey r.owner) r.line) })) with freeIdx := t.freeIdx + 64 }

/-- A read once a credit is taken. -/
def readTaken (r : Remote) (s1 : State) : State :=
  match judgeAccess (reopenWindows s1 (coreKey r.owner)) r 0 with
  | .through _ => throughRead r (reopenWindows s1 (coreKey r.owner))
  | .late i w => answered r (List.replicate 64 0) (lateAccess (reopenWindows s1 (coreKey r.owner)) r i w false)
  | .violation => answered r (List.replicate 64 0) (violation (reopenWindows s1 (coreKey r.owner)) 64)

theorem readRemote_eq (r : Remote) (s : State) : readRemote r s = onCredit r (readTaken r) s := rfl

/-- A write through an open window that serves it stores the line and notes it. -/
theorem writeRemote_through {r : Remote} {s : State} {i : Nat} {w : Window}
    (hfind : (slotsOf (reopenWindows s (coreKey r.owner)) r).find? (fun e => e.2.open_ && decide (e.2.tag = r.tag)) = some (i, w))
    (hcredit : r.vc2 = true → creditsOf (coreGet s (coreKey r.owner)) r.source ≠ 0) (hserves : w.direction ≠ 1) :
    writeRemote r s = { s with cores := (writeRemote r s).cores, lanes := (writeRemote r s).lanes } ∧
    (coreGet (writeRemote r s) (coreKey r.owner)).tile = sput (coreGet s (coreKey r.owner)).tile r.line (remoteBytes s r) ∧
    r.line ∈ (slotGet (writeRemote r s) (coreKey r.owner) i).written := by
  obtain ⟨s1, htaken, hgranted⟩ := onCredit_takes (writeTaken r) hcredit
  rw [← writeRemote_eq] at hgranted
  rw [← slotsOf_credits htaken] at hfind
  have hthrough : writeTaken r s1 = throughSlot r i (reopenWindows s1 (coreKey r.owner)) := by
    unfold writeTaken
    rw [judgeAccess_open 1 hfind, if_neg hserves]
  obtain ⟨hslot, hi⟩ := slotGet_of_mem (List.mem_of_find?_eq_some hfind)
  have hopen : w.open_ = true := by
    have := List.find?_some hfind
    simp only [Bool.and_eq_true] at this
    exact this.1
  obtain ⟨hframe, htile, hline⟩ := throughSlot_leaves hi (by rw [hslot]; exact hopen)
  rw [← hthrough] at hframe htile hline
  refine ⟨?_, ?_, ?_⟩
  · rw [hgranted.frame, hframe, (reopenWindows_windows s1 (coreKey r.owner)).frame, htaken.frame]
  · rw [hgranted.core]
    refine htile.trans ?_
    rw [(reopenWindows_windows s1 (coreKey r.owner)).core, htaken.core]
    have hbytes : remoteBytes (reopenWindows s1 (coreKey r.owner)) r = remoteBytes s r := by
      unfold reopenWindows coreMod
      rw [htaken.frame]
      exact remoteBytes_cores s r _
    rw [hbytes]
  · unfold slotGet at hline ⊢
    rw [hgranted.core]
    exact hline

/-- A read of a line the tile holds, through an open window that serves it, is answered with that line. -/
theorem readRemote_through {r : Remote} {s : State} {i : Nat} {w : Window} {b : Bytes}
    (hfind : (slotsOf (reopenWindows s (coreKey r.owner)) r).find? (fun e => e.2.open_ && decide (e.2.tag = r.tag)) = some (i, w))
    (hcredit : r.vc2 = true → creditsOf (coreGet s (coreKey r.owner)) r.source ≠ 0) (hserves : w.direction ≠ 0)
    (hline : sget (coreGet s (coreKey r.owner)).tile r.line = some b) :
    readRemote r s = { s with cores := (readRemote r s).cores, freeIdx := (readRemote r s).freeIdx } ∧
    (coreGet (readRemote r s) (coreKey r.owner)).lastRead = b := by
  obtain ⟨s1, htaken, hgranted⟩ := onCredit_takes (readTaken r) hcredit
  rw [← readRemote_eq] at hgranted
  rw [← slotsOf_credits htaken] at hfind
  have hthrough : readTaken r s1 = throughRead r (reopenWindows s1 (coreKey r.owner)) := by
    unfold readTaken
    rw [judgeAccess_open 0 hfind, if_neg hserves]
  have hb : tileLine (reopenWindows s1 (coreKey r.owner)) (coreKey r.owner) r.line = b := by
    unfold tileLine
    rw [(reopenWindows_windows s1 (coreKey r.owner)).core, htaken.core]
    exact congrArg (fun o : Option Bytes => o.getD _) hline
  refine ⟨?_, ?_⟩
  · have hv : throughRead r (reopenWindows s1 (coreKey r.owner)) =
      { s1 with cores := (throughRead r (reopenWindows s1 (coreKey r.owner))).cores,
                freeIdx := (throughRead r (reopenWindows s1 (coreKey r.owner))).freeIdx } := rfl
    rw [← hthrough] at hv
    generalize readTaken r s1 = v at hgranted hv
    rw [hgranted.frame, hv, htaken.frame]
  · rw [hgranted.core, hthrough]
    unfold throughRead answered
    rw [coreGet_coreMod]
    exact hb

/-! ### Openings and closings (R246, R257, R261) -/

/-- A window whose next opening has come is the next filling's. -/
theorem slotGet_reopenWindows {s : State} {c i : Nat} {w : Window} {at_ : Nat} (hw : w = slotGet s c i) (hat : w.reopens = some at_)
    (hdue : at_ ≤ s.now) : slotGet (reopenWindows s c) c i = nextOpening at_ w := by
  have hi : i < (coreGet s c).windows.length := slot_lt (s := s) (c := c) fun hnone => by
    rw [hw, hnone] at hat
    cases hat
  have hread : (coreGet s c).windows[i]? = some w := by
    rw [List.getElem?_eq_getElem hi, hw]
    unfold slotGet lgetD
    rw [List.getElem?_eq_getElem hi]
    rfl
  unfold slotGet reopenWindows lgetD
  rw [coreGet_coreMod]
  dsimp only
  rw [List.getElem?_map, hread]
  dsimp only [Option.map_some, Option.getD_some]
  rw [hat]
  exact if_pos hdue

/-- A completion mark of an open window that is read counts for its reader; the window closes when its condition then holds. -/
theorem markArrives_leaves {c : CoreId} {i : Nat} {rd : Word} {s t : State} {w w1 : Window} (ht : t = reopenWindows s (coreKey c))
    (hw : w = slotGet t (coreKey c) i) (hopen : w.open_ = true) (hread : w.direction ≠ 0) (hw1 : w1 = { w with
      completions := min 255 (w.completions + 1), marks := if w.marks.contains rd then w.marks else rd :: w.marks }) :
    markArrives c i rd s = { s with cores := (markArrives c i rd s).cores, lanes := (markArrives c i rd s).lanes } ∧
    (windowDone w1 = false → slotGet (markArrives c i rd s) (coreKey c) i = w1) ∧
    (windowDone w1 = true → (slotGet (markArrives c i rd s) (coreKey c) i).open_ = false ∧
      (slotGet (markArrives c i rd s) (coreKey c) i).marks = w1.marks) := by
  have hi := slot_lt_of_open (s := t) (c := coreKey c) (i := i) (by rw [← hw]; exact hopen)
  unfold markArrives
  extract_lets key t1
  rw [show t1 = t from ht.symm]
  generalize hm : slotMod t key i (fun w => if w.open_ ∧ w.direction ≠ 0 then
    { w with completions := min 255 (w.completions + 1), marks := if w.marks.contains rd then w.marks else rd :: w.marks } else w) = m
  have hmarked : slotGet m key i = w1 := by
    rw [← hm, slotGet_slotMod _ hi, ← hw, if_pos ⟨hopen, hread⟩, hw1]
  obtain ⟨hstays, hcloses, hmarks, -⟩ := slotGet_settleWindow (s := m) (c := key) (i := i) (by rw [hmarked, hw1]; exact hopen)
  rw [hmarked] at hstays hcloses hmarks
  have hsame := (reopenWindows_windows s key).trans (.trans (by rw [← ht, ← hm]; exact slotMod_windows t key i _) (settleWindow_windows m key i))
  exact ⟨hsame.frame, hstays, fun h => ⟨hcloses h, hmarks⟩⟩

/-- A flit that was sent again has failed once more (R240). -/
def linkFailed (key : Nat) (s : State) : State :=
  { s with reliability := { s.reliability with
      linkFails := (key, (((s.reliability.linkFails.find? (fun e => e.1 = key)).map (·.2)).getD 0) + 1) ::
        s.reliability.linkFails.filter (fun e => e.1 ≠ key) } }

/-- Settles O51: an access goes through its window, is late, or violates; a window closes and opens again by R246's and R257's terms. -/
theorem windowsAndLinks : Obligations.WindowsAndLinks := by
  refine ⟨fun r s t key i w hkey ht hfind hcredit => ?through, fun r s t key i w rest hkey ht hvc hnone hslots => ?late,
    fun r s t key hkey ht hvc hslots => ?outside, fun r s hvc hcredit => ?noCredit, fun c i s t key w hkey ht hw hopen => ?opened,
    fun c i s w at_ span spans hw hat hdue hspans hvc hopenings => ?reopens, fun c i s t ht hclosed => ?closed,
    fun q r p s => rfl, fun q r p s n hfind hmany hrun => ?flit⟩
  case through =>
    subst hkey ht
    refine ⟨fun hserves => ?_, fun hserves b hb => ?_, fun hwrong hvc => ?_, fun hwrong hvc => ?_⟩
    · obtain ⟨hframe, htile, hline⟩ := writeRemote_through hfind hcredit hserves
      refine ⟨_, rfl, hframe, by rw [htile, sget_sput_same], hline, fun n hn => ?_⟩
      rw [htile, sget_sput_other _ _ hn]
    · obtain ⟨hframe, hread⟩ := readRemote_through hfind hcredit hserves hb
      exact ⟨_, rfl, hframe, hread⟩
    · refine congrArg Host.Outcome.next ((onCredit_free (writeTaken r) s hvc).trans ?_)
      unfold writeTaken
      rw [judgeAccess_open 1 hfind, if_pos hwrong]
    · have hrun : readRemote r s = answered r (List.replicate 64 0) (violation (reopenWindows s (coreKey r.owner)) 64) := by
        refine (onCredit_free (readTaken r) s hvc).trans ?_
        unfold readTaken
        rw [judgeAccess_open 0 hfind, if_pos hwrong]
      exact ⟨_, congrArg Host.Outcome.next hrun, congrArg Core.lastRead (coreGet_coreMod _ _ _), rfl⟩
  case late =>
    subst hkey ht
    obtain ⟨hslot, hi⟩ := slotGet_of_mem (i := i) (w := w) (by rw [hslots]; exact List.mem_cons_self)
    have hcore := (reopenWindows_windows s (coreKey r.owner)).core
    have hkept : (coreGet (reopenWindows s (coreKey r.owner)) (coreKey r.owner)).tile = (coreGet s (coreKey r.owner)).tile ∧
        (coreGet (reopenWindows s (coreKey r.owner)) (coreKey r.owner)).lateWrites = (coreGet s (coreKey r.owner)).lateWrites ∧
        (coreGet (reopenWindows s (coreKey r.owner)) (coreKey r.owner)).lateReads = (coreGet s (coreKey r.owner)).lateReads := by
      rw [hcore]
      exact ⟨rfl, rfl, rfl⟩
    obtain ⟨htile, hwrites, hreads⟩ := hkept
    refine ⟨?_, ?_⟩
    · have hrun : writeRemote r s = lateAccess (reopenWindows s (coreKey r.owner)) r i w true := by
        refine (onCredit_free (writeTaken r) s hvc).trans ?_
        unfold writeTaken
        rw [judgeAccess_late 1 hnone hslots]
      obtain ⟨hlines, hcount, hlate⟩ := lateWrite_leaves hslot hi
      exact ⟨_, congrArg Host.Outcome.next hrun, hlines.trans htile, by rw [hcount, hwrites], hlate⟩
    · have hrun : readRemote r s = answered r (List.replicate 64 0) (lateAccess (reopenWindows s (coreKey r.owner)) r i w false) := by
        refine (onCredit_free (readTaken r) s hvc).trans ?_
        unfold readTaken
        rw [judgeAccess_late 0 hnone hslots]
      obtain ⟨hlines, hzeros, hcount, hlate⟩ := lateRead_leaves hslot hi (List.replicate 64 0) rfl
      exact ⟨_, congrArg Host.Outcome.next hrun, hlines.trans htile, hzeros, hcount.trans (by rw [hreads]), hlate⟩
  case outside =>
    subst hkey ht
    refine ⟨congrArg Host.Outcome.next ((onCredit_free (writeTaken r) s hvc).trans ?_), ?_⟩
    · unfold writeTaken
      rw [judgeAccess_outside 1 hslots]
    · have hrun : readRemote r s = answered r (List.replicate 64 0) (violation (reopenWindows s (coreKey r.owner)) 64) := by
        refine (onCredit_free (readTaken r) s hvc).trans ?_
        unfold readTaken
        rw [judgeAccess_outside 0 hslots]
      exact ⟨_, congrArg Host.Outcome.next hrun, congrArg Core.lastRead (coreGet_coreMod _ _ _), rfl⟩
  case noCredit =>
    exact ⟨congrArg Host.Outcome.next (onCredit_none (writeTaken r) hvc hcredit),
      congrArg Host.Outcome.next (onCredit_none (readTaken r) hvc hcredit)⟩
  case opened =>
    subst hkey
    refine ⟨fun rd w1 hread hw1 => ⟨_, rfl, markArrives_leaves ht hw hopen hread hw1⟩, fun hvc => ?_, fun hwritten hlong => ?_, fun hshort => ?_⟩
    · have hi := slot_lt_of_open (s := t) (c := coreKey c) (i := i.val) (by rw [← hw]; exact hopen)
      have hrun : closePoint c i.val s = closeWindow t (coreKey c) i.val := by
        unfold closePoint
        dsimp only
        rw [← ht, ← hw]
        exact if_pos ⟨hopen, hvc⟩
      have hslot := slotGet_closeWindow hi
      rw [← hw] at hslot
      have hframe := ((ht ▸ reopenWindows_windows s (coreKey c) : SameButWindows (coreKey c) s t).trans
        (closeWindow_windows t (coreKey c) i.val)).frame
      have hnow : t.now = s.now := by rw [ht]; rfl
      refine ⟨_, computedAt t (coreKey c) i.val, congrArg Host.Outcome.next hrun, hframe, ?_, hslot⟩
      unfold computedAt
      rw [← hw, hnow]
    · refine congrArg Host.Outcome.next (?_ : windowGuards c i.val s = _)
      unfold windowGuards
      dsimp only
      rw [← ht, ← hw]
      exact if_pos ⟨hopen, hwritten, hlong⟩
    · refine congrArg Host.Outcome.next (?_ : windowGuards c i.val s = _)
      unfold windowGuards
      dsimp only
      rw [← ht, ← hw]
      exact if_neg (by omega)
  case reopens =>
    have hslot := slotGet_reopenWindows hw hat hdue
    have hnext : nextOpening at_ w = { w with
        open_ := true, spans := spans, reopens := none, tag := w.tag + w.stride, openings := w.openings + 1, written := [], marks := []
        completions := 0, openedAt := at_, span := span, guard := max 2000 (8 * span) } := by
      unfold nextOpening
      rw [hspans]
      dsimp only
      rw [if_neg (Nat.ne_of_gt hopenings)]
      rfl
    have hrun : closePoint c i.val s = reopenWindows s (coreKey c) := by
      unfold closePoint
      dsimp only
      rw [hslot, hnext]
      exact if_neg (by simp [hvc])
    exact ⟨_, congrArg Host.Outcome.next hrun, hslot.trans hnext⟩
  case closed =>
    refine congrArg Host.Outcome.next (?_ : windowGuards c i.val s = _)
    unfold windowGuards
    dsimp only
    rw [← ht]
    exact if_neg (by simp [hclosed])
  case flit =>
    have hthird : 3 ≤ (((s.reliability.linkFails.find? (fun e => e.1 = (q.val * 128 + r.val) * 8 + p.val)).map (·.2)).getD 0) + 1 := by
      rw [hfind]
      exact Nat.succ_le_succ hmany
    obtain ⟨hboot, hdma, hlanes, -⟩ := containAs_leaves (s := linkFailed ((q.val * 128 + r.val) * 8 + p.val) s) 0x18 4
      (routerUid q.val r.val) (leBytes 2 r.val ++ leBytes 1 p.val) none hrun
    exact ⟨_, congrArg Host.Outcome.next (if_pos hthird), hboot, hdma, hlanes⟩

end Sys2Proof.Proofs
end

section

/-! What building, switching, serving and the work at a boundary leave of the plan and of the lanes: said once for each. -/

namespace Sys2Proof.Proofs
open Sys2Proof Sys2Proof.Machine Sys2Proof.Safety Sys2Proof.Laws

/-! ### What is left -/

/-- What a lane runs and where it stands in it. -/
def laneSeat (l : Lane) : LanePlan × Nat × Nat × Option LaneStep × Nat := (l.plan, l.epoch, l.level, l.step, l.stepNo)

/-- Whether a lane is in a step, and in which. -/
def lanePace (l : Lane) : Bool × Nat := (l.step.isSome, l.stepNo)

/-- The plans stand, only builds may have been forced; and of every lane what `f` reads is as it was. -/
structure Tended {α : Type} (f : Lane → α) (s t : State) : Prop where
  planner : t.planner = { s.planner with queued := t.planner.queued }
  lanes : LanesKeep f s t

namespace Tended
variable {α : Type} {f : Lane → α} {s t u : State}

theorem refl (f : Lane → α) (s : State) : Tended f s s := ⟨Eq.refl _, .refl f s⟩

theorem trans (h : Tended f s t) (k : Tended f t u) : Tended f s u := ⟨by rw [k.planner, h.planner], h.lanes.trans k.lanes⟩

theorem of_same (hp : t.planner = s.planner) (hl : t.lanes = s.lanes) : Tended f s t := ⟨by rw [hp], .of_same hl⟩

theorem of_record (h : SameButRecord s t) : Tended f s t := by
  refine of_same ?_ ?_ <;> rw [h]

theorem of_reply (h : SameButReply s t) : Tended f s t := by
  refine of_same ?_ ?_ <;> rw [h]

theorem foldl {γ : Type} {m : State → γ → State} (h : ∀ s x, Tended f s (m s x)) (l : List γ) (s : State) : Tended f s (l.foldl m s) :=
  List.foldlRecOn (motive := fun t : State => Tended f s t) _ _ (refl f s) fun t ht x _ => trans ht (h t x)

/-- Lanes with their seats keep their pace. -/
theorem paced (h : Tended laneSeat s t) : Tended lanePace s t :=
  ⟨h.planner, h.lanes.of_comp (fun x => (x.2.2.2.1.isSome, x.2.2.2.2)) fun _ => Eq.refl _⟩

/-- Where every lane is as it was, so is all that is read of them. -/
theorem of_id (h : Tended id s t) : Tended f s t := ⟨h.planner, h.lanes.of_comp f fun _ => Eq.refl _⟩

end Tended

theorem laneMod_tended {α : Type} {f : Lane → α} {m : Lane → Lane} (s : State) (g : Nat) (h : ∀ l, f (m l) = f l) :
    Tended f s (laneMod s g m) := ⟨rfl, laneMod_keeps s g h⟩

section
variable {α : Type} {f : Lane → α}

/-! ### Arrays and sites -/

theorem forceBuild_tended (s : State) (c : BuildCause) : Tended f s (forceBuild s c) := ⟨rfl, .of_same rfl⟩

theorem report_tended (s : State) (k v : Nat) (u : Word) (d : Bytes) : Tended f s (report s k v u d) := .of_record (report_frame s k v u d)

theorem finishJobs_tended (s : State) (answer : Job → Option (Status × Nat × Bytes)) : Tended f s (finishJobs s answer) :=
  .trans (t := { s with jobs := s.jobs.filter (fun j => (answer j).isNone) }) (.of_same rfl rfl) (.of_reply (finishJobs_frame s answer))

theorem siteReleased_tended (s : State) (n : Nat) : Tended f s (siteReleased s n) := by
  rw [siteReleased_frame]
  exact .of_same rfl rfl

theorem settleCal_tended (s : State) (a : Nat) : Tended f s (settleCal s a) := by
  unfold settleCal
  extract_lets st bad busy s1
  split
  · exact .refl f s
  · refine .trans (t := s1) ?_ (finishJobs_tended _ _)
    dsimp only [s1]
    split
    · exact siteReleased_tended s _
    · exact .refl f s

theorem replaceContents_tended (s : State) (a : Nat) : Tended f s (replaceContents s a) := by
  unfold replaceContents
  split
  · exact forceBuild_tended s _
  · exact .refl f s

theorem reportWear_tended (s : State) (a : Nat) : Tended f s (reportWear s a) := by
  unfold reportWear
  split
  · exact report_tended s _ _ _ _
  · exact .refl f s

theorem beginProgram_tended (s : State) (p : Programming) : Tended f s (beginProgram s p) := by
  unfold beginProgram
  extract_lets a wear s0 s1
  exact .trans (t := siteMod s1 (a / 8) (fun x => { x with activity := .programming a })) (.of_same rfl rfl)
    ((settleCal_tended _ a).trans (reportWear_tended _ a))

theorem programAgain_tended (s : State) (a : Nat) : Tended f s (programAgain s a) := by
  rcases programAgain_cases s a with h | ⟨p, -, -, h⟩
  · rw [h]
    exact .refl f s
  · rw [h]
    exact beginProgram_tended s p

theorem boundaryDelay_tended (s : State) (n : Nat) : Tended f s (boundaryDelay s n) := by
  rw [boundaryDelay_frame]
  exact .of_same rfl rfl

theorem loadTable_tended (l : Lane) (s : State) (n : Nat) : Tended f s (loadTable l s n) := by
  unfold loadTable
  split
  · exact .refl f s
  · exact .of_same rfl rfl

theorem calibrateSite_tended (may : Nat → Bool) (s : State) (n : Nat) : Tended f s (calibrateSite may s n) := by
  unfold calibrateSite
  split
  · split
    · exact .of_same rfl rfl
    · exact .refl f s
  · exact .refl f s

/-! ### Objects -/

theorem answerLoad_tended (s : State) (k : ObjKind) (h gen : Nat) (st : Status) (d : Nat) (r : Bytes) :
    Tended f s (answerLoad s k h gen st d r) := finishJobs_tended s _

theorem useAdapter_tended (o : LoadedObject) (s : State) (g : Generation) : Tended f s (useAdapter o s g) :=
  .trans (t := genMod s .adapter o.handle g.number (fun y => { y with state := 3 })) (.of_same rfl rfl) (answerLoad_tended _ _ _ _ _ _ _)

theorem adaptersUsable_tended (s : State) : Tended f s (adaptersUsable s) := by
  unfold adaptersUsable
  exact .foldl (fun t o => .foldl (fun u g => useAdapter_tended o u g) _ t) _ s

theorem adaptersAtRest_tended (s : State) : Tended f s (adaptersAtRest s) := by
  unfold adaptersAtRest
  split
  · exact .refl f s
  · exact adaptersUsable_tended s

theorem settleGens_tended (s : State) : Tended f s (settleGens s) := by
  unfold settleGens
  refine .foldl (fun t o => ?_) _ s
  split
  · exact .refl f t
  · split
    · exact .of_same rfl rfl
    · exact .refl f t
  · exact .refl f t

theorem settleServing_tended (s : State) : Tended f s (settleServing s) := .of_same rfl rfl

theorem spreadChecks_tended (s : State) (code : Nat) (arrays : List Nat) : Tended f s (spreadChecks s code arrays) := by
  unfold spreadChecks
  split
  · exact .refl f s
  · refine .foldl (fun t e => ?_) _ s
    exact .of_same rfl rfl

theorem activateTables_tended (arrays : List Nat) (s : State) : Tended f s (arrays.foldl activateTable s) := by
  refine .foldl (fun t a => ?_) _ s
  exact .of_same rfl rfl

theorem planObject_tended (p : Plan) (s : State) (e : ObjKind × Nat × Nat) : Tended f s (planObject p s e) := by
  obtain ⟨k, h, n⟩ := e
  unfold planObject
  dsimp only
  split
  · exact .refl f s
  · rename_i g _
    split
    · split
      · exact .of_same rfl rfl
      · exact .refl f s
    · split
      · split
        · exact .trans (t := genMod s k h n (fun y => { y with state := 2 })) (.of_same rfl rfl)
            ((answerLoad_tended _ _ _ _ _ _ _).trans (forceBuild_tended _ _))
        · split
          · exact .trans (t := genMod s k h n (fun y => { y with state := 3 })) (.of_same rfl rfl) (answerLoad_tended _ _ _ _ _ _ _)
          · exact forceBuild_tended s _
      · split
        · exact .of_same rfl rfl
        · exact .refl f s

theorem planObjects_tended (s : State) (p : Plan) : Tended f s (planObjects s p) := .foldl (fun t e => planObject_tended p t e) _ s

theorem pairPlanned_tended (s : State) (p : Plan) : Tended f s (pairPlanned s p) := by
  unfold pairPlanned
  split
  · exact .trans (t := { s with
        pair := { s.pair with phase := .paired, building := false, startedAt := hostTime s }
        ports := s.ports.zipIdx.map (fun e => if e.2 < 4 then { e.1 with lastHeartbeatIn := s.now } else e.1) })
      (.of_same rfl rfl) (finishJobs_tended _ _)
  · exact .refl f s

end

/-! ### Lanes -/

theorem protectLanes_tended (s : State) : Tended laneSeat s (protectLanes s) := ⟨rfl, List.map_map⟩

theorem settlePair_tended (s : State) (fresh : Bool) : Tended laneSeat s (settlePair s fresh) := by
  unfold settlePair
  dsimp only
  split
  · exact (protectLanes_tended s).trans (report_tended _ _ _ _ _)
  · exact protectLanes_tended s

theorem unpairLane_tended (s : State) (g : Nat) : Tended laneSeat s (unpairLane s g) := by
  unfold unpairLane
  refine .trans ?_ (settlePair_tended _ false)
  exact .of_same rfl rfl

theorem wideLayersNext_tended (s : State) (a : Nat) : Tended laneSeat s (wideLayersNext s a) := by
  unfold wideLayersNext
  generalize layersOf s a = l
  refine .foldl (fun t e => ?_) l s
  exact laneMod_tended t e.1 fun _ => rfl

theorem retireArray_tended (s : State) (a : Nat) : Tended laneSeat s (retireArray s a) :=
  (wideLayersNext_tended s a).trans (.trans (t := arrMod (wideLayersNext s a) a (fun x =>
    { x with state := .retired, staged := none, reprogram := false })) (.of_same rfl rfl)
    ((settleCal_tended _ a).trans (replaceContents_tended _ a)))

theorem retireReported_tended (s : State) (a cause : Nat) : Tended laneSeat s (retireReported s a cause) :=
  (retireArray_tended s a).trans (report_tended _ _ _ _ _)

theorem dropUnplaced_tended (s : State) (ls : List LanePlan) : Tended laneSeat s (dropUnplaced s ls) := by
  unfold dropUnplaced
  refine .foldl (fun t e => ?_) _ s
  refine .trans (t := { t with repairAdapters := t.repairAdapters.filter (fun x => x ≠ e) }) (.of_same rfl rfl) ?_
  refine .foldl (fun u a => ?_) _ _
  exact retireReported_tended u a.val 2

theorem markMissed_tended (s : State) (p : Plan) : Tended laneSeat s (markMissed s p) := by
  unfold markMissed
  split
  · refine .foldl (fun t l => ?_) _ s
    split
    · split
      · exact laneMod_tended t _ fun _ => rfl
      · refine .trans ?_ (report_tended _ _ _ _ _)
        exact laneMod_tended t _ fun _ => rfl
    · exact .refl _ t
  · exact .refl _ s

/-- A lane that switches to the newest plan (R293). -/
def laneSwitched (s : State) (g : Nat) (b : Plan) (gr : Graph) (p : LanePlan) (l : Lane) : Lane :=
  let fresh := decide (((sget s.lanes g).map (·.built)) ≠ some b.epoch)
  { l with
    plan := p, epoch := s.planner.epoch, level := s.planner.variant, generation := laneGenerations s g
    checkCode := b.checkCode
    changed := (l.changed ++ changedGenerations s g).eraseDups
    limitsMissed := l.limitsMissed && !meetsLimits gr.settings p
    wideNodes := if fresh then adapterLayers s g ++ failedLayers s p else l.wideNodes
    wideNext := if fresh then [] else l.wideNext
    built := b.epoch, switchedAt := if fresh then hostTime s else l.switchedAt
    lastSwitch := hostTime s, switchWait := 0, waitFrom := none, switching := true
    doubled := b.doubled }

/-- A switch that no programming holds back changes its lane, between changes that leave every lane's seat and, after it, every lane. -/
theorem switchLane_switches {s : State} {g : Nat} {b : Plan} {gr : Graph} {p : LanePlan} (hb : s.planner.plan = some b)
    (hgr : sget s.graphs g = some gr) (hp : (variantOf b s.planner.variant).find? (fun l => l.graph.val = g) = some p)
    (hfree : (lanesArrays [p]).any (fun a => isProgramming (siteGet s (a / 8)).activity) = false) :
    ∃ s0, Tended laneSeat s s0 ∧ Tended id (laneMod s0 g (laneSwitched s g b gr p)) (switchLane s g) := by
  unfold switchLane
  rw [hb, hgr]
  dsimp only
  rw [hp]
  dsimp only
  rw [if_neg (by simp [hfree])]
  generalize hs0 : (((sget s.lanes g).map laneArrays).getD []).foldl activateTable
    (if (changedGenerations s g).isEmpty then s else unpairLane s g) = s0
  refine ⟨s0, ?_, ?_⟩
  · rw [← hs0]
    refine .trans ?_ (activateTables_tended _ _)
    split
    · exact .refl _ s
    · exact unpairLane_tended s g
  · refine .trans (t := if decide (((sget s.lanes g).map (·.built)) ≠ some b.epoch) then
      spreadChecks (laneMod s0 g (laneSwitched s g b gr p)) b.checkCode (lanesArrays [p]).eraseDups
      else laneMod s0 g (laneSwitched s g b gr p)) ?_ ((settleServing_tended _).trans (settleGens_tended _))
    split
    · exact spreadChecks_tended _ _ _
    · exact .refl _ _

/-- A switch that does not come about changes nothing. -/
theorem switchLane_cases (s : State) (g : Nat) : switchLane s g = s ∨ ∃ b gr p s0, Tended laneSeat s s0 ∧
    Tended id (laneMod s0 g (laneSwitched s g b gr p)) (switchLane s g) := by
  cases hb : s.planner.plan with
  | none =>
    refine .inl ?_
    unfold switchLane
    rw [hb]
  | some b =>
    cases hgr : sget s.graphs g with
    | none =>
      refine .inl ?_
      unfold switchLane
      rw [hb, hgr]
    | some gr =>
      cases hp : (variantOf b s.planner.variant).find? (fun l => l.graph.val = g) with
      | none =>
        refine .inl ?_
        unfold switchLane
        rw [hb, hgr]
        dsimp only
        rw [hp]
      | some p =>
        cases hfree : (lanesArrays [p]).any (fun a => isProgramming (siteGet s (a / 8)).activity) with
        | true =>
          refine .inl ?_
          unfold switchLane
          rw [hb, hgr]
          dsimp only
          rw [hp]
          exact if_pos hfree
        | false => exact .inr ⟨b, gr, p, switchLane_switches hb hgr hp hfree⟩

/-- A switch leaves the plans, and every lane's pace. -/
theorem switchLane_tended (s : State) (g : Nat) : Tended lanePace s (switchLane s g) := by
  rcases switchLane_cases s g with h | ⟨b, gr, p, s0, h0, h1⟩
  · rw [h]
    exact .refl _ s
  · refine h0.paced.trans (.trans ?_ h1.of_id)
    exact laneMod_tended s0 g fun _ => rfl

/-- A switch leaves every other lane's seat. -/
theorem switchLane_other (s : State) {g k : Nat} (h : k ≠ g) :
    (sget (switchLane s g).lanes k).map laneSeat = (sget s.lanes k).map laneSeat := by
  rcases switchLane_cases s g with hs | ⟨b, gr, p, s0, h0, h1⟩
  · rw [hs]
  · refine (h1.of_id.lanes.sget k).trans ?_
    unfold laneMod
    rw [sget_smod_other _ _ h]
    exact h0.lanes.sget k

theorem switchIdle_tended (s : State) : Tended lanePace s (switchIdle s) := by
  unfold switchIdle
  refine .foldl (fun t e => ?_) _ s
  split
  · exact switchLane_tended t e.1
  · exact .refl _ t

/-- Lanes in a step do not switch (R293). -/
theorem switchIdle_inStep (s : State) {g : Nat} (h : ∀ e ∈ s.lanes, e.1 = g → e.2.step ≠ none) :
    (sget (switchIdle s).lanes g).map laneSeat = (sget s.lanes g).map laneSeat := by
  unfold switchIdle
  refine List.foldlRecOn (motive := fun t : State => (sget t.lanes g).map laneSeat = (sget s.lanes g).map laneSeat) _ _ rfl fun t ht e he => ?_
  split
  · rename_i hidle
    refine (switchLane_other t fun hg => ?_).trans ht
    exact h e he hg.symm (Option.isNone_iff_eq_none.mp hidle)
  · exact ht

end Sys2Proof.Proofs
end

section

/-! Builds, what they decide, and the plans they leave (R269–R271, R291, R292, R300, R301). -/

namespace Sys2Proof.Proofs
open Sys2Proof Sys2Proof.Machine Sys2Proof.Safety Sys2Proof.Laws

/-! ### Builds that start (R269, R300) -/

/-- A cause that waits starts a build while the engine can build. -/
theorem buildStarts_queued {c : BuildCause} {s : State} (hcan : canBuild s = true) (hwaits : c ∈ s.planner.queued) :
    buildStarts c s = startBuild s [] := by
  have hcontains : s.planner.queued.contains c = true := List.contains_iff_mem.mpr hwaits
  unfold buildStarts
  rw [if_pos ⟨hcan, by simp [causeStands, hwaits]⟩, if_pos hcontains]

theorem buildStarts_busy {c : BuildCause} {s : State} (hbuild : s.planner.build ≠ none) : buildStarts c s = s := by
  obtain ⟨b, hb⟩ := Option.ne_none_iff_exists'.mp hbuild
  exact if_neg (by simp [canBuild, hb])

theorem replanStarts_due {g : Nat} {s : State} {l : Lane} {gr : Graph} (hl : sget s.lanes g = some l) (hgr : sget s.graphs g = some gr)
    (hcan : canBuild s = true) (hset : gr.settings.replan ≠ 0xFFFF)
    (hdue : l.switchedAt + gr.settings.replan * 1000000000 ≤ hostTime s) : replanStarts g s = startBuild s [] := by
  unfold replanStarts
  rw [hl, hgr]
  exact if_pos ⟨hcan, hset, hdue⟩

theorem replanStarts_never {g : Nat} {s : State} {gr : Graph} (hgr : sget s.graphs g = some gr) (hset : gr.settings.replan = 0xFFFF) :
    replanStarts g s = s := by
  unfold replanStarts
  rw [hgr]
  cases sget s.lanes g with
  | none => rfl
  | some l => exact if_neg fun h => h.2.1 hset

/-! ### What a build decides (R269, R270) -/

theorem placeSubmission_leaves (base : List LanePlan) (st : State × List LanePlan) (jp : Job × Placement) :
    (placeSubmission base st jp).1.planner = st.1.planner ∧ (placeSubmission base st jp).1.lanes = st.1.lanes := by
  obtain ⟨s, lanes⟩ := st
  obtain ⟨j, p⟩ := jp
  unfold placeSubmission
  dsimp only
  split
  · split
    · rw [replyTo_frame]
      exact ⟨rfl, rfl⟩
    · exact ⟨rfl, rfl⟩
  · exact ⟨rfl, rfl⟩

/-- Deciding a build leaves the plans and the lanes. -/
theorem buildDecides_leaves (r : BuildResult) (b : Build) (s : State) :
    (buildDecides r b s).state.planner = s.planner ∧ (buildDecides r b s).state.lanes = s.lanes := by
  have hplaced : ∀ (base : List LanePlan) (l : List (Job × Placement)),
      (l.foldl (placeSubmission base) (s, [])).1.planner = s.planner ∧ (l.foldl (placeSubmission base) (s, [])).1.lanes = s.lanes := by
    intro base l
    refine List.foldlRecOn (motive := fun st : State × List LanePlan => st.1.planner = s.planner ∧ st.1.lanes = s.lanes) _ _ ⟨rfl, rfl⟩
      fun st ⟨hp, hl⟩ x _ => ?_
    obtain ⟨kp, kl⟩ := placeSubmission_leaves base st x
    exact ⟨kp.trans hp, kl.trans hl⟩
  unfold buildDecides
  extract_lets base
  have hd := hplaced base ((takenSubmissions s).zip r.placements)
  split
  rename_i s1 new heq
  rw [heq] at hd
  split
  · exact hd
  · exact hd

/-! ### A plan that is ready (R291–R293) -/

theorem removeLane_planner (s : State) (g : Nat) : (removeLane s g).planner = s.planner := by
  unfold removeLane
  extract_lets t
  refine (List.foldlRecOn (motive := fun u : State => u.planner = s.planner) _ _ rfl fun u hu a _ => ?_ : t.planner = s.planner)
  exact hu

/-- The plans stand, only builds may have been forced. -/
def PlansStand (s t : State) : Prop := t.planner = { s.planner with queued := t.planner.queued }

theorem PlansStand.trans {s t u : State} (h : PlansStand s t) (k : PlansStand t u) : PlansStand s u := by
  unfold PlansStand at *
  rw [k, h]

theorem PlansStand.of_same {s t : State} (h : t.planner = s.planner) : PlansStand s t := by
  unfold PlansStand
  rw [h]

theorem takeUpPlan_plans (epoch : Nat) (s : State) (l : LanePlan) : PlansStand s (takeUpPlan epoch s l) := by
  unfold takeUpPlan
  extract_lets g
  split
  · exact .of_same rfl
  · split
    · exact (switchLane_tended { s with lanes := sput s.lanes g { plan := l, epoch := epoch } } g).planner
    · split
      · exact (switchLane_tended s g).planner
      · exact .of_same rfl

/-- What a plan that becomes ready leaves of the planner: it is the plan, under the next epoch. -/
theorem makeReady_leaves (s : State) (p : Plan) : (makeReady s p).planner.waiting = none ∧
    (makeReady s p).planner.epoch = nextEpoch s.planner.epoch ∧ (makeReady s p).planner.checkCode = p.checkCode ∧
    (makeReady s p).planner.plan = some { p with epoch := nextEpoch s.planner.epoch, ready := true } ∧
    (makeReady s p).planner.build = s.planner.build := by
  unfold makeReady
  extract_lets e gone planner s1 s2 s3 entering s4
  have h1 : s1.planner.waiting = none ∧ s1.planner.epoch = nextEpoch s.planner.epoch ∧ s1.planner.checkCode = p.checkCode ∧
      s1.planner.plan = some { p with epoch := nextEpoch s.planner.epoch, ready := true } ∧ s1.planner.build = s.planner.build := by
    refine List.foldlRecOn (motive := fun t : State => t.planner.waiting = none ∧ t.planner.epoch = nextEpoch s.planner.epoch ∧
      t.planner.checkCode = p.checkCode ∧ t.planner.plan = some { p with epoch := nextEpoch s.planner.epoch, ready := true } ∧
      t.planner.build = s.planner.build) _ _ ⟨rfl, rfl, rfl, rfl, rfl⟩ fun t ht g _ => ?_
    rw [removeLane_planner]
    exact ht
  have h2 : PlansStand s1 s2 := by
    refine PlansStand.trans (t := adaptersAtRest (planObjects s1 p))
      ((planObjects_tended (f := laneSeat) s1 p).trans (adaptersAtRest_tended _)).planner ?_
    exact List.foldlRecOn (motive := fun t : State => PlansStand (adaptersAtRest (planObjects s1 p)) t) _ _ (.of_same rfl)
      fun t ht l _ => ht.trans (takeUpPlan_plans e t l)
  have h3 : PlansStand s2 s3 := ((settleGens_tended s2).trans (markMissed_tended _ p)).planner
  have h4 : PlansStand s3 s4 := by
    refine .of_same (?_ : (entering.foldl (fun t a => arrMod t a (fun x => { x with lastStep := [] })) s3).planner = s3.planner)
    refine List.foldlRecOn (motive := fun t : State => t.planner = s3.planner) _ _ rfl fun t ht a _ => ?_
    exact ht
  have hend : ∀ u : State, PlansStand s1 u → u.planner.waiting = none ∧ u.planner.epoch = nextEpoch s.planner.epoch ∧
      u.planner.checkCode = p.checkCode ∧ u.planner.plan = some { p with epoch := nextEpoch s.planner.epoch, ready := true } ∧
      u.planner.build = s.planner.build := by
    intro u hu
    unfold PlansStand at hu
    rw [hu]
    exact h1
  exact hend _ (((h2.trans h3).trans h4).trans (((pairPlanned_tended s4 p).trans (settlePair_tended _ _)).trans
    (finishJobs_tended _ _)).planner)

/-- A plan that waits is taken up when it is ready, and waits on otherwise. -/
theorem planBecomesReady_waiting {s : State} {p : Plan} (h : s.planner.waiting = some p) :
    planBecomesReady s = if planIsReady s p then makeReady s p else s := by
  unfold planBecomesReady
  rw [h]

/-- Programming that starts for a plan that waits leaves the plans but for what that plan has still to program. -/
theorem startPrograms_plans (s : State) : (startPrograms s).planner = { s.planner with
      queued := (startPrograms s).planner.queued, waiting := (startPrograms s).planner.waiting } ∧
    (startPrograms s).planner.waiting.isSome = s.planner.waiting.isSome := by
  unfold startPrograms
  split
  · exact ⟨rfl, rfl⟩
  · rename_i p _
    refine List.foldlRecOn (motive := fun t : State => t.planner = { s.planner with
        queued := t.planner.queued, waiting := t.planner.waiting } ∧ t.planner.waiting.isSome = s.planner.waiting.isSome) _ _ ⟨rfl, rfl⟩
      fun t ⟨ht, hw⟩ g _ => ?_
    have hdone : ∀ u : State, PlansStand t u → ({ u.planner with waiting := u.planner.waiting.map (fun w => { w with
        programs := w.programs.filter (fun x => x ≠ g) }) } : Planner) = { s.planner with
          queued := u.planner.queued, waiting := u.planner.waiting.map (fun w => { w with programs := w.programs.filter (fun x => x ≠ g) }) } ∧
        (u.planner.waiting.map (fun w => { w with programs := w.programs.filter (fun x => x ≠ g) })).isSome = s.planner.waiting.isSome := by
      intro u hu
      unfold PlansStand at hu
      rw [Option.isSome_map, ← hw, hu, ht]
      exact ⟨rfl, rfl⟩
    dsimp only
    split
    · exact hdone _ (retireArray_tended t g.array.val).planner
    · split
      · exact hdone _ (beginProgram_tended (f := laneSeat) t g).planner
      · exact ⟨ht, hw⟩

/-! ### A build that completes -/

/-- A build that stands and changes nothing leaves plans and lanes. -/
theorem buildCompletes_same {r : BuildResult} {s : State} {b : Build} (hbuild : s.planner.build = some b) (hstands : buildStands r b s = true)
    (hnothing : changesNothing b (buildDecides r b s).new = true) : buildCompletes r s =
      { (buildDecides r b s).state with planner := { (buildDecides r b s).state.planner with build := none } } := by
  unfold buildCompletes
  rw [hbuild]
  dsimp only
  rw [if_neg (by simp [hstands]), if_pos hnothing]

/-- A build that changes something leaves its plan waiting, or, when nothing holds it back, ready. -/
theorem buildCompletes_plan {r : BuildResult} {s : State} {b : Build} (hbuild : s.planner.build = some b) (hstands : buildStands r b s = true)
    (hchanges : changesNothing b (buildDecides r b s).new = false) : ∃ t p, buildCompletes r s = planBecomesReady t ∧
      t.planner.waiting = some p ∧ t.planner.build = none ∧ t.planner.epoch = s.planner.epoch ∧ t.planner.plan = s.planner.plan := by
  unfold buildCompletes
  rw [hbuild]
  dsimp only
  rw [if_neg (by simp [hstands]), if_neg (by simp [hchanges])]
  generalize hs1 : nextFree _ = s1
  have hplanner : s1.planner.waiting.isSome = true ∧ s1.planner.build = none ∧ s1.planner.epoch = s.planner.epoch ∧
      s1.planner.plan = s.planner.plan := by
    have hd := (buildDecides_leaves r b s).1
    rw [← hs1, ← hd]
    exact ⟨rfl, rfl, rfl, rfl⟩
  obtain ⟨hwaits, hnone, hepoch, hplan⟩ := hplanner
  have hdrop := (dropUnplaced_tended s1 (buildDecides r b s).settled).planner
  generalize dropUnplaced s1 (buildDecides r b s).settled = s2 at hdrop
  obtain ⟨hstart, hsome⟩ := startPrograms_plans s2
  rw [hdrop] at hsome
  obtain ⟨p, hp⟩ := Option.isSome_iff_exists.mp (hsome.trans hwaits)
  refine ⟨startPrograms s2, p, rfl, hp, ?_, ?_, ?_⟩
  · rw [hstart, hdrop]
    exact hnone
  · rw [hstart, hdrop]
    exact hepoch
  · rw [hstart, hdrop]
    exact hplan

/-- Settles O42: a build takes what waits; what it completes with decides the plan that waits or is ready. -/
theorem buildsAndPlans : Obligations.BuildsAndPlans := by
  refine ⟨fun c s hcan hwaits => congrArg Host.Outcome.next (buildStarts_queued hcan hwaits),
    fun c s hbuild => congrArg Host.Outcome.next (buildStarts_busy hbuild),
    fun g s l gr hl hgr hcan hset hdue => congrArg Host.Outcome.next (replanStarts_due hl hgr hcan hset hdue),
    fun g s gr hgr hset => congrArg Host.Outcome.next (replanStarts_never hgr hset), fun r s b hbuild hstands => ?completes,
    fun r s hnone => ?noBuild, fun r s b hbuild hbreaks => ?breaks, fun s p hwaits hready => ?ready, fun s p hwaits hnot => ?notReady⟩
  case completes =>
    have hsteady : Steady s (buildCompletes r s) := buildCompletes_steady
    refine ⟨_, rfl, ?_, hsteady.fuses, hsteady.boot, fun hnothing => ?_, fun hchanges => ?_⟩
    · cases hc : changesNothing b (buildDecides r b s).new with
      | true => rw [buildCompletes_same hbuild hstands hc]
      | false =>
        obtain ⟨t, p, heq, hp, hnone, -, -⟩ := buildCompletes_plan hbuild hstands hc
        rw [heq, planBecomesReady_waiting hp]
        split
        · obtain ⟨-, -, -, -, hbuilds⟩ := makeReady_leaves t p
          exact hbuilds.trans hnone
        · exact hnone
    · rw [buildCompletes_same hbuild hstands hnothing]
      obtain ⟨hplanner, hlanes⟩ := buildDecides_leaves r b s
      dsimp only
      rw [hplanner]
      exact ⟨rfl, rfl, rfl, hlanes⟩
    · obtain ⟨t, p, heq, hp, -, hepoch, hplan⟩ := buildCompletes_plan hbuild hstands hchanges
      rw [heq, planBecomesReady_waiting hp]
      split
      · obtain ⟨hnone, hnext, -, hready, -⟩ := makeReady_leaves t p
        exact .inl ⟨hnone, hnext.trans (by rw [hepoch]), _, hready, hnext.symm⟩
      · exact .inr ⟨by rw [hp]; exact Option.some_ne_none p, hepoch, hplan⟩
  case noBuild =>
    refine congrArg Host.Outcome.next (?_ : buildCompletes r s = s)
    unfold buildCompletes
    rw [hnone]
  case breaks =>
    refine congrArg Host.Outcome.next (?_ : buildCompletes r s = s)
    unfold buildCompletes
    rw [hbuild]
    exact if_pos (by simp [hbreaks])
  case ready =>
    have hrun : planBecomesReady s = makeReady s p := (planBecomesReady_waiting hwaits).trans (if_pos hready)
    have hsteady : Steady s (planBecomesReady s) := planBecomesReady_steady
    rw [hrun] at hsteady
    obtain ⟨hnone, hepoch, hcode, hplan, -⟩ := makeReady_leaves s p
    exact ⟨makeReady s p, congrArg Host.Outcome.next hrun, hnone, hepoch, hcode, by rw [hepoch]; exact hplan, hsteady.fuses, hsteady.boot⟩
  case notReady => exact congrArg Host.Outcome.next ((planBecomesReady_waiting hwaits).trans (if_neg (by simp [hnot])))

end Sys2Proof.Proofs
end

section

/-! Steps of a lane: their boundaries and ends (R285–R298, R388, R389, R393, R399). -/

namespace Sys2Proof.Proofs
open Sys2Proof Sys2Proof.Machine Sys2Proof.Safety Sys2Proof.Laws

/-! ### The boundary's switch and arrays (R293, R297) -/

theorem variantDown_pace (s : State) : LanesKeep lanePace s (variantDown s) := by
  unfold variantDown
  split
  · exact LanesKeep.trans (.of_same rfl) (switchIdle_tended _).lanes
  · exact .refl _ s

theorem boundarySwitch_pace (s : State) (g : Nat) : LanesKeep lanePace s (boundarySwitch s g) := by
  unfold boundarySwitch
  split
  · exact .refl _ s
  · split
    · exact (switchLane_tended s g).lanes
    · exact .refl _ s

theorem adaptersTakeEffect_pace (s : State) (g : Nat) : LanesKeep lanePace s (adaptersTakeEffect s g) := by
  unfold adaptersTakeEffect
  dsimp only
  split
  · exact .refl _ s
  · exact laneMod_keeps _ g fun _ => rfl

theorem adaptersJudged_pace (s : State) (g : Nat) : LanesKeep lanePace s (adaptersJudged s g) := by
  unfold adaptersJudged
  dsimp only
  split
  · exact .refl _ s
  · exact laneMod_keeps _ g fun _ => rfl

theorem boundaryArrays_pace (s : State) (g : Nat) : LanesKeep lanePace s (boundaryArrays s g) := by
  unfold boundaryArrays
  split
  · exact .refl _ s
  · rename_i l _
    extract_lets arrays sites s1 s2
    have h1 : LanesKeep lanePace s s1 := by
      refine LanesKeep.trans ?_ ((adaptersTakeEffect_pace _ g).trans (adaptersJudged_pace _ g))
      exact laneMod_keeps s g fun _ => rfl
    have h2 : LanesKeep lanePace s1 s2 := by
      refine LanesKeep.trans ?_ (LanesKeep.foldl (fun t a => (programAgain_tended t a).lanes) arrays _)
      refine LanesKeep.trans ?_ (LanesKeep.foldl (fun t n => (loadTable_tended l t n).lanes) sites _)
      refine LanesKeep.trans ?_ (LanesKeep.foldl (fun t n => (boundaryDelay_tended t n).lanes) sites _)
      refine LanesKeep.foldl (fun t a => ?_) arrays s1
      exact .of_same rfl
    split
    · exact (h1.trans h2).trans (LanesKeep.foldl (fun t n => (calibrateSite_tended _ t n).lanes) sites _)
    · exact h1.trans h2

theorem resumeLane_pace (s : State) (g : Nat) : LanesKeep lanePace s (resumeLane s g) := by
  unfold resumeLane
  split
  · exact laneMod_keeps s g fun _ => rfl
  · exact .refl _ s

/-! ### Accounts and ends (R378, R388) -/

/-- Lanes bare of their requests keep their pace. -/
theorem LanesKeep.paced {s t : State} (h : LanesKeep bareLane s t) : LanesKeep lanePace s t :=
  LanesKeep.of_comp lanePace (fun l => by unfold lanePace; rw [bareLane_step]; rfl) h

theorem boundaryAccounts_pace (s : State) (g : Nat) : LanesKeep lanePace s (boundaryAccounts s g) := by
  unfold boundaryAccounts
  refine .foldl (fun t a => ?_) _ s
  exact .of_same rfl

theorem boundaryEnds_pace (s : State) (g : Nat) (retired : Request → Bool) : LanesKeep lanePace s (boundaryEnds s g retired) := by
  unfold boundaryEnds
  refine .foldl (fun t h => ?_) _ s
  unfold boundaryEnd
  split
  · exact .refl _ t
  · split_ifs
    · exact .refl _ t
    · exact (dropRequest_bare t h).paced
    · exact (endRequest_bare t h _).paced
    · exact (endRequest_bare t h _).paced
    · exact (endRequest_bare t h _).paced
    · exact .refl _ t

theorem settleAdapters_keeps {α : Type} (f : Lane → α) (s : State) : LanesKeep f s (settleAdapters s) := .of_same rfl

theorem markSitOut_keeps {α : Type} (f : Lane → α) (s : State) (g : Nat) : LanesKeep f s (markSitOut s g) := .of_same rfl

/-! ### Room for the batch (R331–R336, R386) -/

theorem sendMessage_lanes (s : State) (port : Nat) (dest : BitVec 128) (kind : Nat) (payloads : List Bytes) (ask : Option Purpose) :
    (sendMessage s port dest kind payloads ask).lanes = s.lanes := by
  unfold sendMessage
  split <;> rfl

theorem copyBlocks_pace (s : State) (h : Nat) : LanesKeep lanePace s (copyBlocks s h) := by
  unfold copyBlocks
  refine .foldl (fun t i => ?_) _ s
  unfold copyBlock
  split
  · exact .refl _ t
  · split
    · unfold sendBlock
      split
      · exact .refl _ t
      · refine .foldl (fun u e => ?_) _ t
        unfold sendUnit
        refine .foldl (fun v x => ?_) _ u
        exact .of_same (sendMessage_lanes v ..)
    · exact .refl _ t

theorem leaveBatch_pace (s : State) (g h : Nat) : LanesKeep lanePace s (leaveBatch s g h) := by
  unfold leaveBatch
  dsimp only
  refine (unlane_bare s g h).paced.trans (LanesKeep.trans (t := laneMod (unlane s g h) g (fun l => { l with
    step := l.step.map (fun x => { x with recompute := x.recompute.filter (fun q => q ≠ h) }) })) ?_ (.of_same rfl))
  refine laneMod_keeps _ g fun l => ?_
  unfold lanePace
  rw [Option.isSome_map]

theorem preempt_pace (s : State) (h : Nat) : LanesKeep lanePace s (preempt s h) := by
  unfold preempt
  split
  · exact .refl _ s
  · rename_i r _
    split
    · exact (endRequest_bare s h _).paced
    · dsimp only
      refine LanesKeep.trans ?_ (postRecord_bare _ h _).paced
      refine LanesKeep.trans ?_ (copyBlocks_pace _ h)
      exact (leaveBatch_pace s r.graph h).trans (.of_same rfl)

theorem preemptFor_pace (s : State) (starting : List Nat) : LanesKeep lanePace s (preemptFor s starting) := by
  unfold preemptFor
  refine .foldl (fun t e => ?_) _ s
  split
  · exact preempt_pace t e.1
  · exact .refl _ t

theorem makeRoom_pace (s : State) (g need : Nat) (starting : List Nat) : LanesKeep lanePace s (makeRoom s g need starting) := by
  unfold makeRoom
  dsimp only
  split
  · exact .refl _ s
  · split
    · refine .foldl (fun t e => ?_) _ s
      split
      · exact preempt_pace t e.1
      · exact .refl _ t
    · exact .refl _ s

theorem relocateBlocks_lanes {s t : State} (h : relocateBlocks s = some t) : t.lanes = s.lanes := by
  rw [relocateBlocks_eq] at h
  refine foldl_bind_keeps (P := fun u : State => u.lanes = s.lanes) (fun u k v hu hv => ?_) rfl h
  unfold relocateRequest at hv
  split at hv
  · exact Option.some.inj hv ▸ hu
  · refine foldl_bind_keeps (P := fun w : State => w.lanes = s.lanes) (fun w i x hw hx => ?_) hu hv
    unfold relocateBlock at hx
    dsimp only at hx
    split_ifs at hx
    · exact Option.some.inj hx ▸ hw
    · obtain ⟨a, -, rfl⟩ := Option.map_eq_some_iff.mp hx
      exact hw

theorem settlePool_pace (s : State) : LanesKeep lanePace s (settlePool s) := by
  unfold settlePool
  split
  · exact .refl _ s
  · split
    · exact .refl _ s
    · rename_i t ht
      split_ifs at ht
      refine LanesKeep.trans (.of_same (relocateBlocks_lanes ht)) (LanesKeep.trans ?_ (finishJobs_tended _ _).lanes)
      exact .of_same rfl

theorem returnBlocks_lanes {s t : State} {h : Nat} {r : Request} (ht : returnBlocks s h r = some t) : t.lanes = s.lanes := by
  unfold returnBlocks at ht
  refine foldl_bind_keeps (f := fun u (bi : Block × Nat) =>
    if inPool bi.1 then some u
    else (placeBlock u bi.1.bytes).map (fun a =>
      let v := reqMod u h (fun q => { q with blocks := lmod q.blocks bi.2 (fun x =>
        { x with location := .returning, dest := bi.1.location, destAt := bi.1.address, address := a }) })
      if bi.1.location = .peer then readBlock bi.1.port bi.1.address (blockImage bi.1).length v else v))
    (P := fun u : State => u.lanes = s.lanes) (fun u bi v hu hv => ?_) rfl ht
  dsimp only at hv
  split_ifs at hv
  · exact Option.some.inj hv ▸ hu
  · obtain ⟨a, -, rfl⟩ := Option.map_eq_some_iff.mp hv
    unfold readBlock
    split
    · exact hu
    · refine List.foldlRecOn (motive := fun w : State => w.lanes = s.lanes) _ _ hu fun w hw i _ => ?_
      exact (sendMessage_lanes w ..).trans hw
  · obtain ⟨a, -, rfl⟩ := Option.map_eq_some_iff.mp hv
    exact hu

theorem bringBack_pace (s : State) : LanesKeep lanePace s (bringBack s) := by
  unfold bringBack
  extract_lets away
  generalize away = es
  suffices h : ∀ t : State, t.lanes = s.lanes → (bringBack.go es t).lanes = s.lanes from .of_same (h s rfl)
  induction es with
  | nil => exact fun t ht => ht
  | cons e es ih =>
    intro t ht
    unfold bringBack.go
    split
    · rename_i u hu
      split_ifs at hu
      exact ih u ((returnBlocks_lanes hu).trans ht)
    · exact ht

theorem rejoin_pace (s : State) (g : Nat) : LanesKeep lanePace s (rejoin s g) := by
  unfold rejoin
  dsimp only
  refine .foldl (fun t e => ?_) _ s
  split
  · exact .of_same rfl
  · exact .refl _ t

theorem fillDeferred_pace (g : Nat) (starting : List Nat) (n : Nat) (s : State) : LanesKeep lanePace s (fillDeferred g starting n s) := by
  induction n generalizing s with
  | zero => exact .refl _ s
  | succ n ih =>
    unfold fillDeferred
    split
    · exact .refl _ s
    · split
      · refine LanesKeep.trans ?_ (ih _)
        exact laneMod_keeps s g fun _ => rfl
      · rename_i r _
        split
        · exact .refl _ s
        · extract_lets need t blocks s1
          have hroom : LanesKeep lanePace s t := by
            dsimp only [t]
            split
            · exact makeRoom_pace s g need starting
            · exact .refl _ s
          split
          · exact hroom
          · have hnext : LanesKeep lanePace t s1 := laneMod_keeps t g fun _ => rfl
            refine hroom.trans (LanesKeep.trans ?_ (ih _))
            exact hnext.trans (.of_same rfl)

/-! ### The step chosen (R389) -/

theorem openFor_lanes {g h : Nat} {r : Request} {s t : State} (ht : openFor g h r s = some t) : t.lanes = s.lanes := by
  unfold openFor at ht
  split at ht
  · exact Option.some.inj ht ▸ rfl
  · obtain ⟨b, -, rfl⟩ := Option.map_eq_some_iff.mp ht
    rfl

theorem growFor_lanes {g h n : Nat} {s t : State} (ht : growFor g h n s = some t) : t.lanes = s.lanes := by
  unfold growFor at ht
  split at ht
  · cases ht
  · rename_i r _
    dsimp only at ht
    split at ht
    · exact Option.some.inj ht ▸ rfl
    · cases ho : openFor g h r s with
      | none =>
        rw [ho, foldl_bind_none] at ht
        cases ht
      | some u =>
        rw [ho] at ht
        refine foldl_bind_keeps (f := fun (u : State) (_ : Nat) => (allocBlock u (sealedBytes u g) false 0).map (fun b =>
          reqMod u h (fun q => { q with reserved := q.reserved ++ [b] }))) (P := fun v : State => v.lanes = s.lanes)
          (fun v i w hv hw => ?_) (openFor_lanes ho) ht
        obtain ⟨b, -, rfl⟩ := Option.map_eq_some_iff.mp hw
        exact hv

theorem mainBatch_lanes (g : Nat) (es : List (Nat × Request)) (s : State) : (mainBatch g es s).1.lanes = s.lanes := by
  induction es generalizing s with
  | nil => rfl
  | cons e es ih =>
    unfold mainBatch
    split
    · exact ih _
    · rename_i s1 hs1
      exact (ih s1).trans (growFor_lanes hs1)

theorem prefillBatch_lanes (g : Nat) (l : Lane) (es : List (Nat × Request)) (s : State) : (prefillBatch g l es s).1.lanes = s.lanes := by
  induction es generalizing s with
  | nil => rfl
  | cons e es ih =>
    unfold prefillBatch
    split
    · exact ih _
    · rename_i s1 hs1
      exact growFor_lanes hs1

theorem chooseStep_lanes (s : State) (g : Nat) (l : Lane) (gr : Graph) : (chooseStep s g l gr).state.lanes = s.lanes := by
  unfold chooseStep
  extract_lets main pre anyRunning packed cand
  split
  · have hp := prefillBatch_lanes g l pre s
    split
    rename_i s1 b heq
    rw [heq] at hp
    split
    · exact (mainBatch_lanes g main s1).trans hp
    · exact hp
  · have hm := mainBatch_lanes g cand s
    split
    rename_i s1 b heq
    rw [heq] at hm
    split
    · exact (prefillBatch_lanes g l pre s1).trans hm
    · exact hm

theorem openWindows_frame (s : State) (g : Nat) : openWindows s g = { s with cores := (openWindows s g).cores } := by
  unfold openWindows
  split
  · rfl
  · refine List.foldlRecOn (motive := fun t : State => t = { s with cores := t.cores }) _ _ rfl fun t ht w _ => ?_
    rw [ht]
    rfl

/-- A step that a lane between steps starts: its batch, its time, its number; the engine is Active. -/
theorem startStep_starts {s : State} {g n : Nat} {l' : Lane} {st : LaneStep} (h : (sget s.lanes g).map lanePace = some (false, n))
    (hl : sget (startStep s g).lanes g = some l') (hst : l'.step = some st) : st.batch ≠ [] ∧ st.startedAt = hostTime (startStep s g) ∧
      l'.stepNo = (n + 1) % 16777216 ∧ (startStep s g).power.state = .active := by
  have hidle : ∀ t : State, LanesKeep lanePace s t → sget t.lanes g = some l' → False := by
    intro t ht hl
    have hpace := (ht.sget g).trans h
    rw [hl, Option.map_some, Option.some.injEq] at hpace
    have hnone := congrArg Prod.fst hpace
    unfold lanePace at hnone
    rw [hst] at hnone
    cases hnone
  unfold startStep at hl ⊢
  cases hlane : sget s.lanes g with
  | none =>
    rw [hlane] at h
    cases h
  | some l =>
  cases hgr : sget s.graphs g with
  | none =>
    rw [hlane, hgr] at hl
    exact absurd hl (hidle s (.refl _ s))
  | some gr =>
    rw [hlane, hgr] at hl
    dsimp only at hl ⊢
    have hchosen : LanesKeep lanePace s (chooseStep s g l gr).state := .of_same (chooseStep_lanes s g l gr)
    split_ifs at hl ⊢ with hout hbatch hheld
    · exact absurd hl (hidle s (.refl _ s))
    · exact absurd hl (hidle _ hchosen)
    · refine absurd hl (hidle _ ?_)
      exact laneMod_keeps s g fun _ => rfl
    · generalize hs1 : ({ (chooseStep s g l gr).state with
        requests := smapAll (chooseStep s g l gr).state.requests (fun h r =>
          if (chooseStep s g l gr).batch.contains h then { r with ran := true, summary := {}, attention := [] } else r)
        power := { (chooseStep s g l gr).state.power with state := .active } } : State) = s1 at hl ⊢
      have htime : hostTime s1 = hostTime (chooseStep s g l gr).state ∧ s1.power.state = .active ∧ LanesKeep lanePace s s1 := by
        rw [← hs1]
        exact ⟨rfl, rfl, hchosen⟩
      obtain ⟨htime, hactive, hkeep⟩ := htime
      have hpace := (hkeep.sget g).trans h
      unfold laneMod at hl
      rw [openWindows_frame] at hl
      dsimp only at hl
      rw [sget_smod_same] at hl
      obtain ⟨x, hx, rfl⟩ := Option.map_eq_some_iff.mp hl
      rw [hx, Option.map_some, Option.some.injEq] at hpace
      have hno : x.stepNo = n := congrArg Prod.snd hpace
      have hst' := Option.some.inj hst
      rw [← hst', openWindows_frame]
      refine ⟨fun hnil => hbatch (by simpa using hnil), htime.symm, ?_, hactive⟩
      dsimp only
      rw [hno]

/-! ### The boundary as a whole (R388) -/

/-- A boundary's plan: a variant below, a newer plan. -/
def boundaryPlan (g : Nat) (s : State) : State := boundarySwitch (variantDown (adaptersUsable s)) g

/-- A boundary's arrays, with the lane resumed. -/
def boundaryUnits (g : Nat) (s : State) : State :=
  resumeLane (boundaryArrays (laneMod (boundaryPlan g s) g (fun l => { l with changed := [] })) g) g

/-- A boundary's accounts and ends. -/
def boundaryServed (g : Nat) (s : State) : State :=
  settleAdapters (boundaryEnds (boundaryAccounts (boundaryUnits g s) g) g
    (fun r => retiredWith (boundaryPlan g s) (laneChanged (boundaryPlan g s) g) r))

/-- Room for a boundary's batch. -/
def boundaryRoom (g : Nat) (s : State) : State :=
  settlePool (if mustPreempt (boundaryServed g s) (openNeeds (boundaryServed g s) g) then
    preemptFor (boundaryServed g s) (startingBatch (boundaryServed g s) g) else boundaryServed g s)

/-- Requests that join at a boundary, and those that sit out. -/
def boundaryJoined (g : Nat) (s : State) : State :=
  markSitOut (fillDeferred g (startingBatch (boundaryServed g s) g) 4096 (rejoin (bringBack (boundaryRoom g s)) g)) g

theorem stepBoundary_eq {g : Nat} {s : State} {l : Lane} (hl : sget s.lanes g = some l) (hidle : l.step = none)
    (hrun : s.boot.state = .running) (halive : s.boot.kioskHung = false) (hawake : s.power.state ≠ .dormant) :
    stepBoundary g s = startStep (boundaryJoined g s) g := by
  unfold stepBoundary
  rw [hl]
  dsimp only
  rw [if_neg (by simp [isRunning, hrun, halive, hawake, hidle])]
  unfold boundaryJoined boundaryRoom boundaryServed boundaryUnits boundaryPlan
  rfl

theorem boundaryServed_pace (g : Nat) (s : State) : LanesKeep lanePace s (boundaryServed g s) := by
  have hplan : LanesKeep lanePace s (boundaryPlan g s) :=
    (LanesKeep.trans (adaptersUsable_tended s).lanes (variantDown_pace _)).trans (boundarySwitch_pace _ g)
  have hunits : LanesKeep lanePace s (boundaryUnits g s) := by
    unfold boundaryUnits
    refine LanesKeep.trans ?_ (resumeLane_pace _ g)
    refine LanesKeep.trans ?_ (boundaryArrays_pace _ g)
    refine hplan.trans ?_
    exact laneMod_keeps _ g fun _ => rfl
  unfold boundaryServed
  exact ((hunits.trans (boundaryAccounts_pace _ g)).trans (boundaryEnds_pace _ g _)).trans (settleAdapters_keeps _ _)

/-- All that happens before a boundary's step leaves every lane's pace. -/
theorem boundaryJoined_pace (g : Nat) (s : State) : LanesKeep lanePace s (boundaryJoined g s) := by
  have hroom : LanesKeep lanePace s (boundaryRoom g s) := by
    unfold boundaryRoom
    refine LanesKeep.trans ?_ (settlePool_pace _)
    split
    · exact (boundaryServed_pace g s).trans (preemptFor_pace _ _)
    · exact boundaryServed_pace g s
  unfold boundaryJoined
  have hfilled := ((hroom.trans (bringBack_pace _)).trans (rejoin_pace _ g)).trans
    (fillDeferred_pace g (startingBatch (boundaryServed g s) g) 4096 _)
  exact hfilled.trans (markSitOut_keeps _ _ g)

end Sys2Proof.Proofs
end

section

/-! A step's end, and the boundary of a lane that serves one request alone (R388, R389, R393). -/

namespace Sys2Proof.Proofs
open Sys2Proof Sys2Proof.Machine Sys2Proof.Safety Sys2Proof.Laws

/-! ### What a step's end delivers (R393, R395, R401, R402) -/

theorem settleMeans_lanes (s : State) (h : Nat) : (settleMeans s h).lanes = s.lanes := by
  unfold settleMeans
  split <;> rfl

theorem takeOutputs_lanes (g : Nat) (l : Lane) (st : LaneStep) (s : State) (o : StepOut) : (takeOutputs g l st s o).lanes = s.lanes := by
  unfold takeOutputs
  split
  · rfl
  · have hkv : ∀ n, SameButRequests s (appendKv s o.seq g n o.kv) := fun n =>
      SameButRequests.foldl (fun t i => appendToken_frame o.seq g o.kv t i) _ _
    extract_lets n s1
    have h1 : SameButRequests s s1 := hkv n
    unfold SameButRequests at h1
    have hlanes : s1.lanes = s.lanes := by rw [h1]
    exact hlanes

theorem sendOutput_pace (s : State) (h : Nat) (l : Lane) (e : RingEntry) : LanesKeep lanePace s (sendOutput s h l e) := by
  unfold sendOutput
  split
  · exact .refl _ s
  · rename_i r _
    split
    · extract_lets s1 waiting pair s2
      have h2 : LanesKeep lanePace s s2 := .of_same rfl
      split
      · exact h2.trans (markEnded_bare s2 h r.graph).paced
      · exact h2
    · exact (postRecord_bare s h e).paced

theorem deliverToken_pace (s : State) (g h : Nat) (l : Lane) (st : LaneStep) (extras : Bool × Nat) (o : StepOut) :
    LanesKeep lanePace s (deliverToken s g h l st extras o) := by
  unfold deliverToken
  split
  · exact .refl _ s
  · exact LanesKeep.trans (t := reqMod s h told) (.of_same rfl) (sendOutput_pace _ h l _)

theorem deliverResult_pace (s : State) (h : Nat) (l : Lane) (st : LaneStep) (extras : Bool × Nat) (o : StepOut) :
    LanesKeep lanePace s (deliverResult s h l st extras o) := by
  unfold deliverResult
  split
  · exact .refl _ s
  · rename_i r _
    extract_lets late more named status ends rec_ e s1
    split
    · exact (endRequest_bare s h _).paced
    · have h1 : LanesKeep lanePace s s1 := by
        dsimp only [s1]
        split
        · exact .refl _ s
        · exact (unlane_bare s r.graph h).paced
      refine LanesKeep.trans ?_ (sendOutput_pace _ h l e)
      exact h1.trans (.of_same rfl)

theorem deliverOne_pace (g : Nat) (l : Lane) (st : LaneStep) (extras : Bool × Nat) (s : State) (o : StepOut) :
    LanesKeep lanePace s (deliverOne g l st extras s o) := by
  unfold deliverOne
  split
  · exact .refl _ s
  · rename_i r _
    extract_lets n s2
    split
    · exact .refl _ s
    · split
      · exact deliverResult_pace s o.seq l st extras _
      · split
        · have h2 : LanesKeep lanePace s s2 := .of_same rfl
          split
          · exact h2.trans (deliverToken_pace s2 g o.seq l st extras o)
          · exact h2
        · exact deliverToken_pace s g o.seq l st extras o

theorem clearSets_frame (s : State) (l : Lane) : clearSets s l = { s with quartz := (clearSets s l).quartz } := by
  unfold clearSets
  refine List.foldlRecOn (motive := fun t : State => t = { s with quartz := t.quartz }) _ _ rfl fun t ht p _ => ?_
  unfold clearActive
  refine List.foldlRecOn (motive := fun u : State => u = { s with quartz := u.quartz }) _ _ ht fun u hu x _ => ?_
  rw [hu]
  rfl

/-! ### The step's end -/

/-- The sequences of a step that are released at its end. -/
def releasedNow (st : LaneStep) : List Nat := st.batch.filter (fun h => !st.recompute.contains h)

/-- What came for them. -/
def outputsGot (outs : List StepOut) (st : LaneStep) : List StepOut := (releasedNow st).filterMap (fun h => outs.find? (fun o => o.seq = h))

theorem outputsGot_mem {outs : List StepOut} {st : LaneStep} {o : StepOut} (h : o ∈ outputsGot outs st) : o ∈ outs := by
  obtain ⟨k, -, hk⟩ := List.mem_filterMap.mp h
  exact List.mem_of_find?_eq_some hk

/-- When an output came for each released sequence, as many came as are released. -/
theorem outputsGot_length {outs : List StepOut} {st : LaneStep} (h : ∀ k ∈ st.batch, k ∉ st.recompute → ∃ o ∈ outs, o.seq = k) :
    (outputsGot outs st).length = (releasedNow st).length := by
  unfold outputsGot
  refine List.filterMap_length_eq_length.mpr fun k hk => ?_
  obtain ⟨hbatch, hnot⟩ := List.mem_filter.mp hk
  obtain ⟨o, ho, hseq⟩ := h k hbatch (by simpa using hnot)
  exact List.find?_isSome.mpr ⟨o, ho, by simpa using hseq⟩

/-- The state once a step's outputs are delivered. -/
def stepDelivered (g : Nat) (l : Lane) (st : LaneStep) (outs : List StepOut) (s : State) : State :=
  let s0 := (outputsGot outs st).foldl (takeOutputs g l st) (if st.prefill then (releasedNow st).foldl settleMeans s else s)
  (outputsGot outs st).foldl (deliverOne g l st (stepExtras s0 st)) s0

theorem stepDelivered_pace (g : Nat) (l : Lane) (st : LaneStep) (outs : List StepOut) (s : State) :
    LanesKeep lanePace s (stepDelivered g l st outs s) := by
  unfold stepDelivered
  dsimp only
  refine LanesKeep.trans ?_ (LanesKeep.foldl (fun t o => deliverOne_pace g l st _ t o) _ _)
  refine LanesKeep.trans ?_ (LanesKeep.foldl (fun t o => .of_same (takeOutputs_lanes g l st t o)) _ _)
  split
  · exact LanesKeep.foldl (fun t h => .of_same (settleMeans_lanes t h)) _ s
  · exact .refl _ s

/-- The sequences of a step that are computed again, of requests still open. -/
def computedAgain (g : Nat) (l : Lane) (st : LaneStep) (outs : List StepOut) (s : State) : List Nat :=
  st.recompute.filter (fun h => shas (stepDelivered g l st outs s).requests h)

/-- A lane at its step's end: the step is over, or goes on with the sequences computed again. -/
def stepOver (again : List Nat) (extras : Bool × Nat) (st : LaneStep) (x : Lane) : Lane :=
  if again.isEmpty then
    { x with step := none
             left := if st.prefill then x.left else (x.leftNow :: x.left).take 256
             leftNow := if st.prefill then x.leftNow else 0 }
  else { x with step := some { st with batch := again, recompute := [], attempt := st.attempt + 1, released := extras } }

/-- The state in which a lane's step ends: its layer steps are gone. -/
def stepCleared (g : Nat) (l : Lane) (st : LaneStep) (outs : List StepOut) (s : State) : State :=
  if (computedAgain g l st outs s).isEmpty then releaseRechecks (clearStep (stepDelivered g l st outs s) g st.batch) g
  else openWindows (clearSets (clearStep (stepDelivered g l st outs s) g st.batch) l) g

theorem stepCleared_layerSteps (g : Nat) (l : Lane) (st : LaneStep) (outs : List StepOut) (s : State) :
    (stepCleared g l st outs s).layerSteps = (stepDelivered g l st outs s).layerSteps.filter (fun x => x.key.lane.val ≠ g) := by
  unfold stepCleared
  split
  · rfl
  · rw [openWindows_frame, clearSets_frame]
    rfl

theorem stepCleared_lanes (g : Nat) (l : Lane) (st : LaneStep) (outs : List StepOut) (s : State) :
    (stepCleared g l st outs s).lanes = (stepDelivered g l st outs s).lanes := by
  unfold stepCleared
  split
  · rfl
  · rw [openWindows_frame, clearSets_frame]
    rfl

/-- A step that may end, with what came for its sequences. -/
theorem stepEnds_eq {g : Nat} {outs : List StepOut} {slow : Bool} {s : State} {l : Lane} {st st' : LaneStep} (hl : sget s.lanes g = some l)
    (hst : l.step = some st) (hst' : st' = { st with excursion := st.excursion || slow }) (hrun : s.boot.state = .running)
    (halive : s.boot.kioskHung = false) (hdone : stepWorkDone s g l = true)
    (hgot : ∀ k ∈ st.batch, k ∉ st.recompute → ∃ o ∈ outs, o.seq = k) (hwhole : ∀ o ∈ outs, outputWhole s g l st' o = true) :
    ∃ extras, stepEnds g outs slow s = settleIdle (settleAdapters (laneMod (stepCleared g l st' outs s) g
      (stepOver (computedAgain g l st' outs s) extras st'))) := by
  have hlen : ¬ (outputsGot outs st').length < (releasedNow st').length := by
    rw [outputsGot_length (by rw [hst']; exact hgot)]
    exact Nat.lt_irrefl _
  have hall : (outputsGot outs st').all (outputWhole s g l st') = true :=
    List.all_eq_true.mpr fun o ho => hwhole o (outputsGot_mem ho)
  have hgoes : ¬ ((!isRunning s) = true ∨ s.boot.kioskHung = true ∨ (!stepWorkDone s g l) = true ∨
      (outputsGot outs st').length < (releasedNow st').length ∨ (!(outputsGot outs st').all (outputWhole s g l st')) = true) := by
    rw [hall]
    simp [isRunning, hrun, halive, hdone, hlen]
  unfold stepEnds
  rw [hl]
  dsimp only
  rw [hst, Option.map_some, ← hst']
  exact ⟨_, if_neg hgoes⟩

/-! ### A lane that serves one request alone -/

/-- A lane without layers in arrays has no array work at its boundary. -/
theorem boundaryArrays_none {t : State} {g : Nat} {x : Lane} (ht : t.lanes = [(g, x)]) (hlayers : laneArrays x = []) (hadapters : t.repairAdapters = []) :
    boundaryArrays t g = laneMod t g (fun x => { x with
      wideNodes := x.wideNodes ++ x.wideNext.filter (fun n => !x.wideNodes.contains n), wideNext := [] }) := by
  have hx : sget t.lanes g = some x := by
    rw [ht]
    exact if_pos rfl
  unfold boundaryArrays
  rw [hx]
  dsimp only
  rw [hlayers]
  generalize hm : laneMod t g (fun x => { x with
    wideNodes := x.wideNodes ++ x.wideNext.filter (fun n => !x.wideNodes.contains n), wideNext := [] }) = m
  have hmad : m.repairAdapters = [] := by
    rw [← hm]
    exact hadapters
  have heffect : adaptersTakeEffect m g = m := by
    unfold adaptersTakeEffect
    rw [hmad]
    rfl
  have hjudged : adaptersJudged m g = m := by
    unfold adaptersJudged
    rw [hmad]
    rfl
  rw [heffect, hjudged]
  split <;> rfl

/-- One lane between steps that nothing holds back, with one running request. -/
structure LoneLane (s : State) (g : Nat) (l : Lane) (gr : Graph) (h : Nat) (r : Request) : Prop where
  lanes : s.lanes = [(g, l)]
  requests : s.requests = [(h, r)]
  graph : sget s.graphs g = some gr
  uncached : gr.settings.cached = false
  unpacked : gr.settings.rowLength = 0
  plan : s.planner.plan = none
  objects : s.objects = []
  adapters : s.repairAdapters = []
  pool : s.kv.newPool = none
  between : l.step = none
  serves : l.sitsOut = false
  epoch : l.epoch = s.planner.epoch
  changed : l.changed = []
  deferral : l.deferral = []
  layers : l.plan.layers = []
  mine : r.graph = g
  state : r.state = .running
  own : r.mirrored = false
  lasts : r.ended = false
  opened : r.closing = false
  wanted : r.cancelled = false
  whole : r.handoff = false
  timeless : r.deadline = 0
  blocks : r.blocks = []
  reserved : r.reserved = []

section
variable {s : State} {g : Nat} {l : Lane} {gr : Graph} {h : Nat} {r : Request} (H : LoneLane s g l gr h r)
include H

theorem LoneLane.lane : sget s.lanes g = some l := by
  rw [H.lanes]
  exact if_pos rfl

theorem LoneLane.request : sget s.requests h = some r := by
  rw [H.requests]
  exact if_pos rfl

/-- Without objects and without a plan the boundary switches to none. -/
theorem LoneLane.boundaryPlan_same : boundaryPlan g s = s := by
  have husable : adaptersUsable s = s := by
    unfold adaptersUsable
    rw [H.objects]
    rfl
  have hdown : variantDown s = s := if_neg (by simp [H.plan])
  have hgens : laneGenerations s g = [] := by
    unfold laneGenerations objGet
    rw [H.objects]
    exact List.filterMap_eq_nil_iff.mpr fun _ _ => rfl
  have hchanged : changedGenerations s g = [] := by
    unfold changedGenerations
    dsimp only
    rw [hgens]
    exact List.filterMap_eq_nil_iff.mpr fun _ _ => rfl
  unfold boundaryPlan
  rw [husable, hdown]
  unfold boundarySwitch
  rw [H.lane]
  exact if_neg (by simp [H.epoch, hchanged])

/-- After the boundary's array work the lane is what it was, but for layers that may join the wide path. -/
theorem LoneLane.boundaryUnits_lane : ∃ l1, boundaryUnits g s = { s with lanes := [(g, l1)] } ∧ l1.plan = l.plan ∧ l1.epoch = l.epoch ∧
    l1.step = none ∧ l1.sitsOut = false ∧ l1.deferral = [] := by
  have hmod : ∀ (x : Lane) (f : Lane → Lane), laneMod { s with lanes := [(g, x)] } g f = { s with lanes := [(g, f x)] } := by
    intro x f
    unfold laneMod smod
    simp
  have hself : s = { s with lanes := [(g, l)] } := by rw [← H.lanes]
  have harrays : laneArrays { l with changed := [] } = [] := by
    unfold laneArrays lanesArrays
    simp [H.layers]
  generalize hl1 : ({ l with changed := [], wideNodes := l.wideNodes ++ l.wideNext.filter (fun n => !l.wideNodes.contains n), wideNext := [] } : Lane) = l1
  have hunits : boundaryArrays (laneMod (boundaryPlan g s) g (fun l => { l with changed := [] })) g = { s with lanes := [(g, l1)] } := by
    rw [H.boundaryPlan_same, show laneMod s g (fun l => { l with changed := [] }) = { s with lanes := [(g, { l with changed := [] })] } from
      (congrArg (fun t => laneMod t g (fun l => { l with changed := [] })) hself).trans (hmod l _)]
    rw [boundaryArrays_none (t := { s with lanes := [(g, { l with changed := [] })] }) rfl harrays H.adapters, hmod, ← hl1]
  refine ⟨l1, ?_, by rw [← hl1], by rw [← hl1], by rw [← hl1]; exact H.between, by rw [← hl1]; exact H.serves, by rw [← hl1]; exact H.deferral⟩
  unfold boundaryUnits
  rw [hunits]
  unfold resumeLane
  split
  · rw [hmod]
    have hsits : l1.sitsOut = false := by rw [← hl1]; exact H.serves
    rw [← hsits]
  · rfl

/-- The request is due to no end at the boundary. -/
theorem LoneLane.boundaryEnds_same {t : State} (ht : t.requests = [(h, r)]) {retired : Request → Bool} (hr : retired r = false) :
    boundaryEnds t g retired = t := by
  have hget : sget t.requests h = some r := by
    rw [ht]
    exact if_pos rfl
  unfold boundaryEnds
  rw [ht]
  refine (?_ : boundaryEnd g retired t h = t)
  unfold boundaryEnd
  rw [hget]
  dsimp only
  rw [if_neg (by simp [H.mine, H.own, H.lasts]), if_neg (by simp [H.opened]), if_neg (by simp [H.wanted]), if_neg (by simp [H.timeless]),
    if_neg (by simp [hr])]

/-- The boundary brings the request's account up to host time, and ends nothing. -/
theorem LoneLane.boundaryServed_eq : boundaryServed g s = updateAccount (boundaryUnits g s) r.account := by
  obtain ⟨l1, hunits, -⟩ := H.boundaryUnits_lane
  have hone : [r.account].eraseDups = [r.account] := rfl
  have haccounts : boundaryAccounts (boundaryUnits g s) g = updateAccount (boundaryUnits g s) r.account := by
    unfold boundaryAccounts
    rw [hunits]
    dsimp only
    rw [H.requests]
    simp [H.mine, H.own, hone]
  unfold boundaryServed
  rw [haccounts, H.boundaryEnds_same]
  · unfold settleAdapters
    have hobjects : (updateAccount (boundaryUnits g s) r.account).objects = [] := by
      rw [hunits]
      exact H.objects
    generalize updateAccount (boundaryUnits g s) r.account = t at hobjects ⊢
    have hfilter : t.objects.filter (fun o => ¬(o.kind = .adapter ∧ o.retiring ∧ !adapterHeld t o.handle)) = t.objects := by
      rw [hobjects]
      rfl
    rw [hfilter]
  · rw [hunits]
    exact H.requests
  · rw [H.boundaryPlan_same]
    unfold retiredWith laneChanged
    rw [H.lane, Option.map_some, Option.getD_some, H.changed]
    rfl

/-- A request alone without blocks leaves the whole pool free. -/
theorem LoneLane.mustPreempt_not {t : State} {l1 : Lane} (hl : t.lanes = [(g, l1)]) (hr : t.requests = [(h, r)]) (hg : t.graphs = s.graphs)
    (hp : t.kv.newPool = none) : mustPreempt t (openNeeds t g) = false := by
  have hgr : sget t.graphs g = some gr := by
    rw [hg]
    exact H.graph
  have huncached : cachedGraph t g = false := by
    unfold cachedGraph
    rw [hgr]
    exact H.uncached
  have hneeds : openNeeds t g = 0 := if_neg (by simp [huncached])
  have hhead : headroom t = 0 := by
    unfold headroom
    rw [hl]
    dsimp only [List.foldl_cons, List.foldl_nil]
    rw [hgr]
    exact if_neg (by simp [H.uncached])
  have hused : usedBytes t = 0 := by
    unfold usedBytes ownBlocks
    rw [hr]
    simp [H.blocks, H.reserved]
  have hdescriptors : freeDescriptors t = 1048576 := by
    unfold freeDescriptors
    rw [hr]
    simp [H.blocks, H.reserved]
  unfold mustPreempt willFit freeBytes
  rw [hneeds, hhead, hused, hdescriptors, hp]
  simp

theorem LoneLane.boundaryRoom_eq : boundaryRoom g s = updateAccount (boundaryUnits g s) r.account := by
  obtain ⟨l1, hunits, -⟩ := H.boundaryUnits_lane
  unfold boundaryRoom
  rw [H.boundaryServed_eq]
  generalize ht : updateAccount (boundaryUnits g s) r.account = t
  have hpool : t.kv.newPool = none := by
    rw [← ht, hunits]
    exact H.pool
  have hstays : mustPreempt t (openNeeds t g) = false := by
    refine H.mustPreempt_not (l1 := l1) ?_ ?_ ?_ hpool <;> rw [← ht, hunits]
    · rfl
    · exact H.requests
    · rfl
  rw [if_neg (by simp [hstays])]
  unfold settlePool
  rw [hpool]

/-- No request comes back, and none was deferred. -/
theorem LoneLane.joins_none {t : State} {l1 : Lane} (hl : t.lanes = [(g, l1)]) (hr : t.requests = [(h, r)]) (hdeferral : l1.deferral = [])
    (starting : List Nat) (n : Nat) : fillDeferred g starting n (rejoin (bringBack t) g) = t := by
  have hback : bringBack t = t := by
    unfold bringBack
    rw [hr]
    simp [H.state, bringBack.go]
  have hrejoin : rejoin t g = t := by
    unfold rejoin
    rw [hr]
    simp [H.state]
  rw [hback, hrejoin]
  cases n with
  | zero => rfl
  | succ n =>
    unfold fillDeferred
    rw [show sget t.lanes g = some l1 by rw [hl]; exact if_pos rfl, Option.bind_some, hdeferral]
    rfl

/-- Before its step the boundary leaves the lane and its request as they were, which nothing holds back. -/
theorem LoneLane.boundaryJoined_eq (hover : overdrawn (updateAccount s r.account) r = false) (hwaits : recordWaits s h = false)
    (hdma : dmaAllowed s r.fn = true) : ∃ l1 r1 accounts,
    boundaryJoined g s = { s with lanes := [(g, l1)], requests := [(h, r1)], accounts := accounts } ∧
    l1.epoch = l.epoch ∧ l1.sitsOut = false ∧ r1.graph = g ∧ r1.state = .running ∧ inBatch r1 = true ∧ r1.satOut = false := by
  obtain ⟨l1, hunits, -, hepoch, -, hserves, hdeferral⟩ := H.boundaryUnits_lane
  have hin : inBatch r = true := by
    simp [inBatch, H.state, H.lasts, H.own, H.whole]
  unfold boundaryJoined
  rw [H.boundaryRoom_eq, H.joins_none (l1 := l1) (by rw [hunits]; rfl) (by rw [hunits]; exact H.requests) hdeferral, hunits]
  refine ⟨l1, { r with satOut := false, budgetHold := r.budgetHold || false }, (updateAccount s r.account).accounts, ?_, hepoch, hserves,
    H.mine, H.state, hin, rfl⟩
  generalize ht : updateAccount { s with lanes := [(g, l1)] } r.account = t
  have hheld : overdrawn t r = false := by
    rw [← ht]
    exact hover
  have hrec : recordWaits t h = false := by
    rw [← ht]
    exact hwaits
  have hmay : dmaAllowed t r.fn = true := by
    rw [← ht]
    exact hdma
  have hreq : t.requests = [(h, r)] := by
    rw [← ht]
    exact H.requests
  unfold markSitOut
  rw [hreq]
  simp only [smapAll, List.map_cons, List.map_nil]
  rw [if_pos ⟨H.mine, hin⟩, hheld, hrec, hmay, ← ht]
  rfl

end

/-- The one running request of a lane, in order, is its step's batch. -/
theorem chooseStep_lone {t : State} {g h : Nat} {l1 : Lane} {gr : Graph} {r1 : Request} (hr : t.requests = [(h, r1)])
    (hgr : sget t.graphs g = some gr) (huncached : gr.settings.cached = false) (hunpacked : gr.settings.rowLength = 0)
    (hmine : r1.graph = g) (hstate : r1.state = .running) (hin : inBatch r1 = true) (hsat : r1.satOut = false) :
    chooseStep t g l1 gr = { state := t, batch := [h] } := by
  have hmain : ready t g .running = [(h, r1)] := by
    unfold ready
    rw [hr]
    simp [hmine, hstate, hin, hsat]
  have hpre : ready t g .prefill = [] := by
    unfold ready
    rw [hr]
    simp [hstate]
  have hgrow : growFor g h 1 t = some t := by
    have hget : sget t.requests h = some r1 := by
      rw [hr]
      exact if_pos rfl
    unfold growFor
    rw [hget]
    exact if_pos (by simp [cachedGraph, hgr, huncached])
  have hbatch : mainBatch g [(h, r1)] t = (t, [h]) := by
    unfold mainBatch
    dsimp only
    rw [hgrow]
    rfl
  unfold chooseStep
  dsimp only
  rw [hpre, hmain, if_neg (by simp), if_pos hunpacked, if_pos hunpacked, hbatch]
  rfl

/-- The step a lane alone starts. -/
theorem startStep_lone {t : State} {g h : Nat} {l1 : Lane} {gr : Graph} {r1 : Request} (hl : t.lanes = [(g, l1)])
    (hr : t.requests = [(h, r1)]) (hgr : sget t.graphs g = some gr) (hchoose : chooseStep t g l1 gr = { state := t, batch := [h] })
    (hserves : l1.sitsOut = false) : ∃ l' st, sget (startStep t g).lanes g = some l' ∧ l'.step = some st ∧ st.batch = [h] ∧
      st.prefill = false ∧ st.startedAt = hostTime t ∧ st.epoch = l1.epoch ∧ st.fill = 1 ∧ (startStep t g).power.state = .active ∧
      (sget (startStep t g).requests h).map (·.ran) = some true := by
  have hlane : sget t.lanes g = some l1 := by
    rw [hl]
    exact if_pos rfl
  have hfree : resourceHeld t g l1 = false := by
    unfold resourceHeld
    rw [hl]
    simp
  unfold startStep
  rw [hlane, hgr]
  dsimp only
  rw [if_neg (by simp [hserves]), hchoose]
  dsimp only
  rw [if_neg (by simp), if_neg (by simp [hfree]), openWindows_frame]
  dsimp only [laneMod]
  rw [sget_smod_same, hlane, Option.map_some]
  refine ⟨_, _, rfl, rfl, rfl, rfl, rfl, rfl, rfl, rfl, ?_⟩
  rw [hr]
  simp [smapAll, sget]

/-! ### Variants (R297) -/

/-- A variant that is raised keeps the plan and takes the next epoch. -/
theorem variantRaises_eq {s : State} {c : Nat} (hplan : s.planner.plan.isSome = true) (hraise : raiseTo s = some c) :
    variantRaises s = installVariant s c := by
  obtain ⟨b, hb⟩ := Option.isSome_iff_exists.mp hplan
  unfold variantRaises
  rw [hb, hraise]

/-- Settles O39: the boundary keeps its lane's pace up to the step it starts; a step's end, and a raised variant, keep the others'. -/
theorem laneSteps : Obligations.LaneSteps := by
  refine ⟨fun g s l hl hidle hrun halive hawake => ?starts, fun g s l gr h r hlanes hrequests hgr huncached hunpacked hrun halive hawake hplan
      hobjects hadapters hpool hidle hserves hepoch hchanged hdeferral hlayers hmine hstate hown hlasts hopen hwanted hwhole htimeless hblocks
      hreserved hover hwaits hdma => ?lone, fun g s l hl hin => ?inStep,
    fun g s l st outs slow hl hst hrun halive hdone hgot hwhole => ?ends, fun g s l outs slow hl hidle => ?noStep,
    fun s c hplan hraise => ?raised, fun s c g l b p hlanes hidle hplan hraise hgraph hp hfree => ?switches, fun s hnone => ?stays,
    fun s hset hlate => congrArg Host.Outcome.next (if_pos ⟨hset, hlate⟩), fun s hfresh => congrArg Host.Outcome.next (if_neg (by omega))⟩
  case starts =>
    have hsteady : Steady s (stepBoundary g.val s) := stepBoundary_steady
    have heq := stepBoundary_eq hl hidle hrun halive hawake
    have hpace : (sget (boundaryJoined g.val s).lanes g.val).map lanePace = some (false, l.stepNo) := by
      rw [(boundaryJoined_pace g.val s).sget, hl, Option.map_some]
      unfold lanePace
      rw [hidle]
      rfl
    refine ⟨_, rfl, hsteady.fuses, hsteady.now, hsteady.boot, fun l' st hl' hst => ?_⟩
    rw [heq] at hl' ⊢
    exact startStep_starts hpace hl' hst
  case lone =>
    have H : LoneLane s g.val l gr h r := ⟨hlanes, hrequests, hgr, huncached, hunpacked, hplan, hobjects, hadapters, hpool, hidle, hserves, hepoch,
      hchanged, hdeferral, hlayers, hmine, hstate, hown, hlasts, hopen, hwanted, hwhole, htimeless, hblocks, hreserved⟩
    obtain ⟨l1, r1, accounts, hjoined, hepoch1, hserves1, hmine1, hstate1, hin1, hsat1⟩ := H.boundaryJoined_eq hover hwaits hdma
    have hchoose := chooseStep_lone (t := { s with lanes := [(g.val, l1)], requests := [(h, r1)], accounts := accounts }) (l1 := l1) rfl hgr
      huncached hunpacked hmine1 hstate1 hin1 hsat1
    obtain ⟨l', st, hl', hst, hbatch, hmain, hat, hunder, hfill, hactive, hran⟩ := startStep_lone
      (t := { s with lanes := [(g.val, l1)], requests := [(h, r1)], accounts := accounts }) rfl rfl hgr hchoose hserves1
    rw [← hjoined] at hl' hactive hran
    have heq := stepBoundary_eq H.lane hidle hrun halive hawake
    exact ⟨_, l', st, congrArg Host.Outcome.next heq, hl', hst, hbatch, hmain, hat, hunder.trans hepoch1, hfill, hactive, hran⟩
  case inStep =>
    refine congrArg Host.Outcome.next (?_ : stepBoundary g.val s = s)
    unfold stepBoundary
    rw [hl]
    exact if_pos (.inr (.inr (.inr (Option.isSome_iff_ne_none.mpr hin))))
  case ends =>
    obtain ⟨extras, heq⟩ := stepEnds_eq hl hst rfl hrun halive hdone hgot hwhole
    have hsteady : Steady s (stepEnds g.val outs slow s) := stepEnds_steady
    refine ⟨_, rfl, fun x hx => ?_, hsteady.fuses, hsteady.boot, fun hnone => ?_⟩
    · rw [heq, settleIdle_frame] at hx
      have hin : x ∈ (stepCleared g.val l { st with excursion := st.excursion || slow } outs s).layerSteps := hx
      rw [stepCleared_layerSteps] at hin
      have hne := (List.mem_filter.mp hin).2
      rintro rfl
      simp at hne
    · rw [heq, settleIdle_frame]
      dsimp only [settleAdapters, laneMod]
      rw [sget_smod_same, stepCleared_lanes]
      have hpace := ((stepDelivered_pace g.val l { st with excursion := st.excursion || slow } outs s).sget g.val).trans (by rw [hl, Option.map_some])
      obtain ⟨x, hx, hxl⟩ := Option.map_eq_some_iff.mp hpace
      rw [hx, Option.map_some]
      have hagain : computedAgain g.val l { st with excursion := st.excursion || slow } outs s = [] := by
        unfold computedAgain
        rw [show ({ st with excursion := st.excursion || slow } : LaneStep).recompute = [] from hnone]
        rfl
      rw [hagain]
      exact ⟨_, rfl, rfl, congrArg Prod.snd hxl⟩
  case noStep =>
    refine congrArg Host.Outcome.next (?_ : stepEnds g.val outs slow s = s)
    unfold stepEnds
    rw [hl]
    dsimp only
    rw [hidle]
    rfl
  case raised =>
    have heq := variantRaises_eq hplan hraise
    have hsteady : Steady s (variantRaises s) := variantRaises_steady
    have hplanner := (switchIdle_tended { s with planner := { s.planner with variant := c, epoch := nextEpoch s.planner.epoch } }).planner
    refine ⟨_, rfl, ?_, ?_, ?_, hsteady.fuses, hsteady.boot, hsteady.now, fun g l hl hbusy => ?_⟩
    · rw [heq]
      exact congrArg Planner.variant hplanner
    · rw [heq]
      exact congrArg Planner.epoch hplanner
    · rw [heq]
      exact (congrArg Planner.plan hplanner :)
    · have hseat := switchIdle_inStep { s with planner := { s.planner with variant := c, epoch := nextEpoch s.planner.epoch } } hbusy
      dsimp only at hseat
      rw [hl, Option.map_some] at hseat
      obtain ⟨l', hl', hsame⟩ := Option.map_eq_some_iff.mp hseat
      obtain ⟨hplan', hepoch', hlevel', hstep', hno'⟩ : l'.plan = l.plan ∧ l'.epoch = l.epoch ∧ l'.level = l.level ∧ l'.step = l.step ∧
          l'.stepNo = l.stepNo := by
        unfold laneSeat at hsame
        simpa using hsame
      rw [heq]
      exact ⟨l', hl', hplan', hepoch', hlevel', hstep', hno'⟩
  case switches =>
    have heq := variantRaises_eq (by rw [hplan]; rfl) hraise
    obtain ⟨gr, hgr⟩ := Option.isSome_iff_exists.mp hgraph
    generalize hs1 : ({ s with planner := { s.planner with variant := c, epoch := nextEpoch s.planner.epoch } } : State) = s1
    have hidleSwitch : installVariant s c = switchLane s1 g := by
      unfold installVariant
      rw [hs1]
      unfold switchIdle
      rw [show s1.lanes = [(g, l)] by rw [← hs1]; exact hlanes]
      exact if_pos (by rw [hidle]; rfl)
    have hp1 : (variantOf b s1.planner.variant).find? (fun x => x.graph.val = g) = some p := by
      rw [← hs1]
      exact hp
    have hfree1 : (lanesArrays [p]).any (fun a => isProgramming (siteGet s1 (a / 8)).activity) = false := by
      rw [← hs1]
      exact List.any_eq_false.mpr fun a ha h => Bool.noConfusion ((hfree a ha).symm.trans h)
    obtain ⟨s0, hbefore, hafter⟩ := switchLane_switches (g := g) (by rw [← hs1]; exact hplan) (by rw [← hs1]; exact hgr) hp1 hfree1
    have hl1 : sget s1.lanes g = some l := by
      rw [← hs1]
      dsimp only
      rw [hlanes]
      exact if_pos rfl
    have hseat := (hbefore.lanes.sget g).trans (by rw [hl1, Option.map_some])
    obtain ⟨l0, hl0, -⟩ := Option.map_eq_some_iff.mp hseat
    have hswitched := hafter.lanes.sget g
    unfold laneMod at hswitched
    dsimp only at hswitched
    rw [sget_smod_same, hl0, Option.map_id_fun, id, id, Option.map_some] at hswitched
    refine ⟨_, _, congrArg Host.Outcome.next (heq.trans hidleSwitch), hswitched, rfl, ?_, ?_, ?_⟩
    · rw [← hs1]
      rfl
    · rw [← hs1]
      rfl
    · rw [← hs1]
      rfl
  case stays =>
    refine congrArg Host.Outcome.next (?_ : variantRaises s = s)
    unfold variantRaises
    rw [hnone]
    cases s.planner.plan <;> rfl

end Sys2Proof.Proofs
end

section

/-! An array step at a converter site, from drive to handover (R88, R89, R95, R96, R98, R103, R104, R108). -/

namespace Sys2Proof.Proofs
open Sys2Proof Sys2Proof.Machine Sys2Proof.Safety Sys2Proof.Laws

/-! ### What work on a layer step leaves -/

/-- What discarding, counting and the wide path leave of a layer step: its input, its array set, and that it is not done. -/
def StepKept (k : LayerKey) (s t : State) : Prop :=
  ∀ l, stepGet s k = some l → ∃ l', stepGet t k = some l' ∧ l'.inputs = l.inputs ∧ l'.replica = l.replica ∧ l'.done = l.done

/-- What the same work leaves of a site: the tier of its last step and its saturation counts, and no step that waits where none waited. -/
structure SiteKept (n : Nat) (s t : State) : Prop where
  lastTier : (siteGet t n).lastTier = (siteGet s n).lastTier
  satData : (siteGet t n).satData = (siteGet s n).satData
  satRef : (siteGet t n).satRef = (siteGet s n).satRef
  nextStep : (siteGet s n).nextStep = none → (siteGet t n).nextStep = none

section
variable {k : LayerKey} {n : Nat} {s t u : State}

theorem StepKept.trans (h : StepKept k s t) (h' : StepKept k t u) : StepKept k s u := fun l hl => by
  obtain ⟨l1, hl1, hi1, hr1, hd1⟩ := h l hl
  obtain ⟨l2, hl2, hi2, hr2, hd2⟩ := h' l1 hl1
  exact ⟨l2, hl2, hi2.trans hi1, hr2.trans hr1, hd2.trans hd1⟩

theorem StepKept.of_same (h : t.layerSteps = s.layerSteps) : StepKept k s t := fun l hl => by
  refine ⟨l, ?_, rfl, rfl, rfl⟩
  unfold stepGet at hl ⊢
  rw [h]
  exact hl

theorem stepMod_kept {f : LayerStep → LayerStep} (hf : ∀ y, y.key = k → (f y).key = k)
    (hkeep : ∀ y, (f y).inputs = y.inputs ∧ (f y).replica = y.replica ∧ (f y).done = y.done) : StepKept k s (stepMod s k f) := fun l hl => by
  refine ⟨f l, ?_, hkeep l⟩
  rw [stepGet_stepMod hf, hl, Option.map_some]

theorem SiteKept.refl (n : Nat) (s : State) : SiteKept n s s := ⟨rfl, rfl, rfl, id⟩

theorem SiteKept.trans (h : SiteKept n s t) (h' : SiteKept n t u) : SiteKept n s u :=
  ⟨h'.lastTier.trans h.lastTier, h'.satData.trans h.satData, h'.satRef.trans h.satRef, fun hn => h'.nextStep (h.nextStep hn)⟩

theorem SiteKept.of_same (h : t.sites = s.sites) : SiteKept n s t := by
  have hsite : siteGet t n = siteGet s n := by
    unfold siteGet
    rw [h]
  constructor <;> rw [hsite]
  exact id

end

theorem settleDiagnosis_siteKept (s : State) (m n : Nat) : SiteKept n s (settleDiagnosis s m) := by
  by_cases hm : n = m
  · subst hm
    rcases siteGet_settleDiagnosis s n with h | ⟨r, h⟩
    · constructor <;> rw [h]
      exact id
    · constructor <;> rw [h, diagnosisStarts_frame]
      exact id
  · unfold settleDiagnosis
    dsimp only
    split
    · constructor <;> rw [siteGet_siteMod_other s m _ hm]
      exact id
    · exact .refl n s

/-- A site without the array steps of an attempt that is given up. -/
def siteDropped (k : LayerKey) (x : Site) : Site :=
  let mine := fun (o : Option ArrayStep) => (o.map (fun a => decide (a.key = k))).getD false
  let next := if mine x.nextStep then none else x.nextStep
  if mine x.step then settleSwap { x with step := next, nextStep := none } else { x with nextStep := next }

theorem siteDropped_keeps (k : LayerKey) (x : Site) : (siteDropped k x).lastTier = x.lastTier ∧ (siteDropped k x).satData = x.satData ∧
    (siteDropped k x).satRef = x.satRef ∧ (x.nextStep = none → (siteDropped k x).nextStep = none) := by
  unfold siteDropped
  dsimp only
  split
  · rw [settleSwap_frame]
    exact ⟨rfl, rfl, rfl, fun _ => rfl⟩
  · refine ⟨rfl, rfl, rfl, fun h => ?_⟩
    dsimp only
    rw [h]
    exact ite_self _

theorem dropSiteSteps_frame (s : State) (k : LayerKey) : dropSiteSteps s k = { s with sites := (dropSiteSteps s k).sites } := by
  unfold dropSiteSteps
  extract_lets mine s1
  refine List.foldlRecOn (motive := fun t : State => t = { s with sites := t.sites }) _ _ rfl fun t ht e _ => ?_
  rw [settleDiagnosis_frame, ht]

theorem dropSiteSteps_siteKept (s : State) (k : LayerKey) (n : Nat) : SiteKept n s (dropSiteSteps s k) := by
  unfold dropSiteSteps
  extract_lets mine s1
  have h1 : SiteKept n s s1 := by
    have hread : siteGet s1 n = ((sget s.sites n).map (siteDropped k)).getD {} := by
      unfold siteGet sgetD
      exact congrArg (fun o : Option Site => o.getD {}) (sget_smapAll s.sites (fun _ => siteDropped k) n)
    have hs : siteGet s n = (sget s.sites n).getD {} := rfl
    cases hsite : sget s.sites n with
    | none =>
      rw [hsite] at hread hs
      constructor <;> rw [hread, hs]
      · rfl
      · rfl
      · rfl
      · exact id
    | some x =>
      rw [hsite] at hread hs
      obtain ⟨htier, hdata, href, hnext⟩ := siteDropped_keeps k x
      constructor <;> rw [hread, hs]
      · exact htier
      · exact hdata
      · exact href
      · exact hnext
  exact List.foldlRecOn (motive := fun t : State => SiteKept n s t) _ _ h1 fun t ht e _ => ht.trans (settleDiagnosis_siteKept t e.1 n)

theorem clearActive_frame (s : State) (p : LayerPlan) : SameButQuartz s (clearActive s p) := by
  unfold clearActive
  refine .foldl (fun t u => ?_) _ s
  rfl

theorem countOutliers_frame (s : State) (k : LayerKey) (l : List (Nat × Nat)) : SameButQuartz s (countOutliers s k l) := by
  unfold countOutliers
  refine .foldl (fun t e => ?_) _ s
  rfl

/-- A layer step without the results of its attempt. -/
def attemptGone (x : LayerStep) : LayerStep := { x with results := [], rows := [], partials := [], stale := false }

theorem discardAttempt_eq (s : State) (k : LayerKey) (p : LayerPlan) :
    discardAttempt s k p = stepMod (clearActive (dropSiteSteps s k) p) k attemptGone := rfl

theorem discardAttempt_layerSteps (s : State) (k : LayerKey) (p : LayerPlan) :
    (discardAttempt s k p).layerSteps = s.layerSteps.map (fun x => if x.key = k then attemptGone x else x) := by
  have hframe := clearActive_frame (dropSiteSteps s k) p
  unfold SameButQuartz at hframe
  rw [discardAttempt_eq, hframe, dropSiteSteps_frame]
  rfl

theorem discardAttempt_kept (s : State) (k : LayerKey) (p : LayerPlan) : StepKept k s (discardAttempt s k p) := by
  have hmod : StepKept k s (stepMod s k attemptGone) := stepMod_kept (fun _ h => h) fun _ => ⟨rfl, rfl, rfl⟩
  exact hmod.trans (.of_same (discardAttempt_layerSteps s k p))

theorem discardAttempt_siteKept (s : State) (k : LayerKey) (p : LayerPlan) (n : Nat) : SiteKept n s (discardAttempt s k p) := by
  have hframe := clearActive_frame (dropSiteSteps s k) p
  unfold SameButQuartz at hframe
  refine (dropSiteSteps_siteKept s k n).trans (.of_same ?_)
  rw [discardAttempt_eq, hframe]
  rfl

/-- A layer step on the wide path. -/
def stepWide (x : LayerStep) : LayerStep := { x with wide := true }

/-- Going wide discards the attempt, marks the layer step, and counts. -/
theorem goWide_cases (s : State) (k : LayerKey) (stage : Nat) : ((keyLayer s k = none ∨ stepGet s k = none) ∧ goWide s k stage = s) ∨
    ∃ p, (goWide s k stage).layerSteps = (stepMod (discardAttempt (releaseChecks s k) k p) k stepWide).layerSteps ∧
      (goWide s k stage).sites = (discardAttempt (releaseChecks s k) k p).sites := by
  unfold goWide
  split
  · rename_i p x _ _
    refine .inr ⟨p, ?_, ?_⟩
    · have hcount := countUnits_frame (stepMod (discardAttempt (releaseChecks s k) k p) k stepWide) k p 5
      unfold SameButQuartz at hcount
      exact (congrArg State.layerSteps hcount : _)
    · have hcount := countUnits_frame (stepMod (discardAttempt (releaseChecks s k) k p) k stepWide) k p 5
      unfold SameButQuartz at hcount
      exact (congrArg State.sites hcount : _)
  · rename_i hnone
    refine .inl ⟨?_, rfl⟩
    cases hp : keyLayer s k with
    | none => exact .inl rfl
    | some p =>
      cases hx : stepGet s k with
      | none => exact .inr rfl
      | some x => exact absurd hx (hnone p x hp)

theorem goWide_kept (s : State) (k : LayerKey) (stage : Nat) : StepKept k s (goWide s k stage) := by
  rcases goWide_cases s k stage with ⟨-, h⟩ | ⟨p, h, -⟩
  · rw [h]
    exact .of_same rfl
  · have hwide : StepKept k (discardAttempt (releaseChecks s k) k p) (stepMod (discardAttempt (releaseChecks s k) k p) k stepWide) :=
      stepMod_kept (fun _ hk => hk) fun _ => ⟨rfl, rfl, rfl⟩
    have hchecks : StepKept k s (releaseChecks s k) := .of_same rfl
    exact ((hchecks.trans (discardAttempt_kept _ k p)).trans hwide).trans (.of_same h)

theorem goWide_siteKept (s : State) (k : LayerKey) (stage n : Nat) : SiteKept n s (goWide s k stage) := by
  rcases goWide_cases s k stage with ⟨-, h⟩ | ⟨p, -, h⟩
  · rw [h]
    exact .refl n s
  · have hchecks : SiteKept n s (releaseChecks s k) := .of_same rfl
    exact (hchecks.trans (discardAttempt_siteKept _ k p n)).trans (.of_same h)

/-- A layer step whose layer its lane runs is on the wide path once it has gone wide. -/
theorem goWide_wide {s : State} {k : LayerKey} {stage : Nat} {p : LayerPlan} {x : LayerStep} (hp : keyLayer s k = some p)
    (hx : stepGet s k = some x) : ∃ y, stepGet (goWide s k stage) k = some y ∧ y.wide = true := by
  rcases goWide_cases s k stage with ⟨h, -⟩ | ⟨q, h, -⟩
  · rcases h with h | h
    · rw [hp] at h
      cases h
    · rw [hx] at h
      cases h
  · have hchecks : StepKept k s (releaseChecks s k) := .of_same rfl
    obtain ⟨y, hy, -⟩ := (hchecks.trans (discardAttempt_kept _ k q)) x hx
    refine ⟨stepWide y, ?_, rfl⟩
    have hget : stepGet (goWide s k stage) k = stepGet (stepMod (discardAttempt (releaseChecks s k) k q) k stepWide) k := by
      unfold stepGet
      rw [h]
    rw [hget, stepGet_stepMod (f := stepWide) fun _ hk => hk, hy, Option.map_some]

theorem goWideAtOnce_siteKept (s : State) (k : LayerKey) (p : LayerPlan) (x : LayerStep) (stage n : Nat) :
    SiteKept n s (goWideAtOnce s k p x stage) := by
  have hcount := countOutliers_frame s k (arrayOutliers p x)
  unfold SameButQuartz at hcount
  exact SiteKept.trans (.of_same (congrArg State.sites hcount : _)) (goWide_siteKept _ k stage n)

theorem goWideAtOnce_kept (s : State) (k : LayerKey) (p : LayerPlan) (x : LayerStep) (stage : Nat) :
    StepKept k s (goWideAtOnce s k p x stage) := by
  have hcount := countOutliers_frame s k (arrayOutliers p x)
  unfold SameButQuartz at hcount
  exact StepKept.trans (.of_same (congrArg State.layerSteps hcount : _)) (goWide_kept _ k stage)

/-! ### A drive (R89, R159, R166) -/

theorem historySet_frame (s : State) (h : LayerHistory) : historySet s h = { s with histories := (historySet s h).histories } := by
  unfold historySet
  split <;> rfl

/-- A layer step as it is opened: its input, its array set, nothing done. -/
theorem openLayerStep_opens {s : State} {k : LayerKey} {r : Nat} {p : LayerPlan} {xs : List F32} (hnew : stepGet s k = none) :
    ∃ l, stepGet (openLayerStep s k r p xs) k = some l ∧ l.inputs = xs ∧ l.replica = r ∧ l.done = false := by
  unfold openLayerStep
  extract_lets x0 counts n split s1 s2
  have hs1 : stepGet s1 k = some { x0 with outliers := n, split := split } := by
    unfold stepGet at hnew ⊢
    refine (List.find?_append ..).trans ?_
    rw [hnew, Option.none_or]
    exact List.find?_cons_of_pos (decide_eq_true rfl)
  have hs2 : StepKept k s1 s2 := by
    refine .of_same ?_
    dsimp only [s2]
    rw [historySet_frame]
    rfl
  have hopened : ∀ t : State, StepKept k s1 t → ∃ l, stepGet t k = some l ∧ l.inputs = xs ∧ l.replica = r ∧ l.done = false := by
    intro t ht
    obtain ⟨l, hl, hinputs, hreplica, hdone⟩ := ht _ hs1
    exact ⟨l, hl, hinputs, hreplica, hdone⟩
  split
  · exact hopened _ (goWide_kept s1 k 0)
  · split
    · exact hopened _ (hs2.trans (goWideAtOnce_kept s2 k p x0 0))
    · exact hopened _ hs2

/-- A layer step that did not go wide as it was opened left every site. -/
theorem openLayerStep_sites {s : State} {k : LayerKey} {r : Nat} {base p : LayerPlan} {xs : List F32} {l : LayerStep}
    (hbase : layerNow s k.lane.val k.node = some base) (hnew : stepGet s k = none)
    (hl : stepGet (openLayerStep s k r p xs) k = some l) (hnarrow : l.wide = false) :
    (openLayerStep s k r p xs).sites = s.sites := by
  unfold openLayerStep at hl ⊢
  extract_lets x0 counts n split s1 s2 at hl ⊢
  have hs1 : stepGet s1 k = some { x0 with outliers := n, split := split } := by
    unfold stepGet at hnew ⊢
    refine (List.find?_append ..).trans ?_
    rw [hnew, Option.none_or]
    exact List.find?_cons_of_pos (decide_eq_true rfl)
  have hframe2 : s2 = { s1 with histories := s2.histories, requests := s2.requests } := by
    dsimp only [s2]
    rw [historySet_frame]
    rfl
  have hgone : ∀ t : State, t.lanes = s.lanes → (stepGet t k).isSome = true → ∀ stage, stepGet (goWide t k stage) k = some l → False := by
    intro t hlanes hsome stage hwent
    obtain ⟨x, hx⟩ := Option.isSome_iff_exists.mp hsome
    have hkey : ∃ q, keyLayer t k = some q := by
      unfold keyLayer layerNow
      unfold layerNow at hbase
      rw [hlanes, hbase]
      exact ⟨_, rfl⟩
    obtain ⟨q, hq⟩ := hkey
    obtain ⟨y, hy, hwide⟩ := goWide_wide (stage := stage) hq hx
    rw [hwent, Option.some.injEq] at hy
    rw [hy, hwide] at hnarrow
    cases hnarrow
  split_ifs at hl ⊢ with hw hmany
  · exact absurd hl fun h => hgone s1 rfl (by rw [hs1]; rfl) 0 h
  · refine absurd hl fun h => hgone (countOutliers s2 k (arrayOutliers p x0)) ?_ ?_ 0 h
    · have hcount := countOutliers_frame s2 k (arrayOutliers p x0)
      unfold SameButQuartz at hcount
      rw [hcount, hframe2]
    · have hcount := countOutliers_frame s2 k (arrayOutliers p x0)
      unfold SameButQuartz at hcount
      have hget : stepGet (countOutliers s2 k (arrayOutliers p x0)) k = stepGet s1 k := by
        unfold stepGet
        rw [hcount, hframe2]
      rw [hget, hs1]
      rfl
  · rw [hframe2]

theorem driveArray_kept (n : Nat) (p : LayerPlan) (l : LayerStep) (s : State) : StepKept l.key s (driveArray n p l s) := by
  have hcounted : ∀ (t : State) (e : List (Nat × Nat)), StepKept l.key t (countOutliers t l.key e) := fun t e => by
    have hcount := countOutliers_frame t l.key e
    unfold SameButQuartz at hcount
    exact .of_same (congrArg State.layerSteps hcount : _)
  unfold driveArray
  extract_lets x
  split
  · exact .of_same rfl
  · rename_i a row _
    split
    · exact goWide_kept s l.key 1
    · split
      · unfold deliverStale
        extract_lets old res s1
        have hstale : StepKept l.key s1 (stepMod s1 l.key (fun x => { x with results := x.results ++ [(a.val, res)], stale := true })) :=
          stepMod_kept (fun _ hk => hk) fun _ => ⟨rfl, rfl, rfl⟩
        exact ((hcounted s _).trans hstale).trans (.of_same rfl)
      · split
        · extract_lets st s1
          exact StepKept.trans (.of_same rfl : StepKept l.key s s1) (hcounted s1 _)
        · exact .of_same rfl

/-- The first drive of a layer step opens it, and drives an array of its set unless it is on the wide path. -/
theorem driveFirst_opens {n : Nat} {i : LayerInput} {s : State} {k : LayerKey} {base : LayerPlan} {l : LayerStep}
    (hk : k = { lane := i.lane, node := i.node, seq := i.seq, token := i.token }) (hbase : layerNow s i.lane.val i.node = some base)
    (hsite : ∃ e ∈ (onReplica base (replicaAt base n)).arrays, e.1.val / 8 = n) (hin : inStep s k = true) (hrun : s.boot.state = .running)
    (halive : s.boot.kioskHung = false) (hnew : stepGet s k = none)
    (hl : stepGet (openLayerStep s k (replicaAt base n) (onReplica base (replicaAt base n)) (layerInput s k i.values)) k = some l) :
    driveFirst n i s = if l.wide ∨ l.done then openLayerStep s k (replicaAt base n) (onReplica base (replicaAt base n)) (layerInput s k i.values)
      else driveArray n (onReplica base (replicaAt base n)) l
        (openLayerStep s k (replicaAt base n) (onReplica base (replicaAt base n)) (layerInput s k i.values)) := by
  subst hk
  unfold driveFirst
  dsimp only
  rw [hbase]
  dsimp only
  rw [hnew]
  dsimp only [Option.map_none, Option.getD_none]
  rw [if_neg, if_neg (by simp), hl]
  rintro (h | h | h | h)
  · obtain ⟨e, he, hat⟩ := hsite
    have hany : (onReplica base (replicaAt base n)).arrays.any (fun e => e.1.val / 8 = n) = true :=
      List.any_eq_true.mpr ⟨e, he, decide_eq_true hat⟩
    rw [hany] at h
    cases h
  · rw [hin] at h
    cases h
  · simp [isRunning, hrun] at h
  · rw [halive] at h
    cases h

/-- A site that begins an array step, or has it wait behind the one under way. -/
def stepBegun (st : ArrayStep) (y : Site) : Site := if y.step.isNone then placeStep y (some st) else { y with nextStep := some st }

/-- A site free to fire begins the next array step of the layer. -/
theorem driveArray_begins {n : Nat} {p : LayerPlan} {l : LayerStep} {t : State} {a : ArrayNo} {row : Nat}
    (hnext : nextArray (siteGet t n) n p l = some (a, row)) (hnarrow : layerIsWide t l.key.lane.val l.key.node = false)
    (hfree : (siteGet t n).activity = .none) (hdiagnose : (siteGet t n).diagnose = false) (hstarting : (siteGet t n).starting = [])
    (hstep : (siteGet t n).step = none) (hfires : mayFire t n (stepPower p.mode l.phases) true = true) :
    (siteGet (driveArray n p l t) n).step = some (newArrayStep t p l a row) := by
  have hbegins : driveArray n p l t = countOutliers (siteMod t n (stepBegun (newArrayStep t p l a row))) l.key
        [(a.val, (newArrayStep t p l a row).outliers)] := by
    unfold driveArray
    dsimp only
    rw [hnext]
    dsimp only
    rw [if_neg (by simp [hnarrow]), if_neg (by simp [hfree, isCalibrating]),
      if_pos ⟨hfree, by simp [hdiagnose], by simp [hstarting], by simp [roomAt, hstep], hfires⟩]
    rfl
  have hcount := countOutliers_frame (siteMod t n (stepBegun (newArrayStep t p l a row))) l.key
    [(a.val, (newArrayStep t p l a row).outliers)]
  unfold SameButQuartz at hcount
  have hsite : siteGet (driveArray n p l t) n = siteGet (siteMod t n (stepBegun (newArrayStep t p l a row))) n := by
    rw [hbegins, hcount]
    rfl
  rw [hsite, siteGet_siteMod t n (stepBegun (newArrayStep t p l a row))]
  unfold stepBegun
  rw [if_pos (by simp [hstep])]
  rfl

end Sys2Proof.Proofs
end

section

/-! Guards, sweeps and the handover of an array step (R88, R95, R96, R98, R103, R104, R108), and the statement on array steps. -/

namespace Sys2Proof.Proofs
open Sys2Proof Sys2Proof.Machine Sys2Proof.Safety Sys2Proof.Laws

/-! ### The handover (R103, R168) -/

theorem replayStep_siteKept (s : State) (k : LayerKey) (cause : ReplayCause) (n : Nat) : SiteKept n s (replayStep s k cause) := by
  unfold replayStep
  split
  · rename_i p x _ _
    extract_lets stage corner phases lat cost s1 s1h s2
    split
    · exact goWide_siteKept s k stage n
    · have h1 : SiteKept n s s1 := (discardAttempt_siteKept s k p n).trans (.of_same rfl)
      have h1h : SiteKept n s1 s1h := by
        refine .of_same ?_
        dsimp only [s1h]
        split
        · rw [historySet_frame]
        · rfl
      have h2 : SiteKept n s1h s2 := by
        refine .of_same ?_
        have hcount : ∀ i, (countUnits s1h k p i).sites = s1h.sites := fun i => by
          have hframe := countUnits_frame s1h k p i
          unfold SameButQuartz at hframe
          rw [hframe]
        exact hcount _
      have hs2 := (h1.trans h1h).trans h2
      split
      · split
        · exact hs2.trans (goWideAtOnce_siteKept s2 k p _ 1 n)
        · exact hs2
      · exact hs2
  · exact .refl n s

theorem takeStep_siteKept (s : State) (a : ArrayStep) (sat n : Nat) : SiteKept n s (takeStep s a sat) := by
  unfold takeStep
  extract_lets s0
  have h0 : SiteKept n s s0 := by
    refine .of_same ?_
    dsimp only [s0]
    split <;> rfl
  split
  · split_ifs
    · exact h0
    · exact h0.trans (replayStep_siteKept s0 a.key .guard n)
    · exact h0.trans (replayStep_siteKept s0 a.key .saturation n)
    · exact h0.trans (.of_same rfl)
  · exact h0

/-- A layer step with an array's results. -/
def resultsTaken (s : State) (a : ArrayStep) (x : LayerStep) : LayerStep :=
  { x with results := x.results ++ [(a.array.val, stepValues (arrGet s a.array.val) a)] }

section
variable {s : State} {a : ArrayStep} {p : LayerPlan} {l : LayerStep} (hp : keyLayer s a.key = some p) (hl : stepGet s a.key = some l)
  (hwide : l.wide = false) (hdone : l.done = false)
include hp hl hwide hdone

/-- Results with few enough saturations go to the layer step. -/
theorem takeStep_takes {sat : Nat} (hin : a.expired = false) (hfew : sat ≤ p.slots - a.outliers) :
    stepGet (takeStep s a sat) a.key = some (resultsTaken s a l) := by
  have htakes : takeStep s a sat = summaryMod (stepMod (arrMod s a.array.val (keepStep s a)) a.key (resultsTaken s a)) a.key.seq
      (fun m => { m with saturations := m.saturations + sat }) := by
    unfold takeStep
    rw [hp, hl, if_neg (by simp [hin])]
    dsimp only
    rw [if_neg (by simp [hwide, hdone]), if_neg (by simp [hin]), if_neg (by omega)]
    rfl
  have hget : stepGet (takeStep s a sat) a.key = stepGet (stepMod (arrMod s a.array.val (keepStep s a)) a.key (resultsTaken s a)) a.key := by
    rw [htakes]
    rfl
  have hold : stepGet (arrMod s a.array.val (keepStep s a)) a.key = some l := hl
  rw [hget, stepGet_stepMod (f := resultsTaken s a) fun _ hk => hk, hold, Option.map_some]

/-- Results of a step whose guard expired are discarded, and the layer step replayed. -/
theorem takeStep_expired (sat : Nat) (hexpired : a.expired = true) : takeStep s a sat = replayStep s a.key .guard := by
  unfold takeStep
  rw [hp, hl, if_pos hexpired]
  dsimp only
  rw [if_neg (by simp [hwide, hdone]), if_pos hexpired]

end

/-- A site whose completed step is handed over. -/
def handedOver (a : ArrayStep) (x : Site) : Site :=
  settleSwap { placeStep x x.nextStep with nextStep := none, lastTier := some (a.array.val % 8) }

theorem placeStep_frame (x : Site) (o : Option ArrayStep) : placeStep x o = { x with
    step := o, entries := (placeStep x o).entries, control := (placeStep x o).control } := by
  cases o <;> rfl

theorem handedOver_leaves (a : ArrayStep) (x : Site) : (handedOver a x).lastTier = some (a.array.val % 8) ∧ (handedOver a x).nextStep = none ∧
    (handedOver a x).satData = x.satData ∧ (handedOver a x).satRef = x.satRef := by
  unfold handedOver
  rw [settleSwap_frame, placeStep_frame]
  exact ⟨rfl, rfl, rfl, rfl⟩

/-- A completed step is handed over. -/
theorem handsOver_eq {s : State} {n : Nat} {a : ArrayStep} (hstep : (siteGet s n).step = some a) (hcomplete : stepPhases a ≤ a.sweeps.length) :
    handsOver n s = settleDiagnosis (takeStep (siteMod s n (handedOver a)) a (sweepSaturations a.sweeps).1) n := by
  unfold handsOver
  rw [hstep]
  exact if_neg (by omega)

/-- What the handover leaves of its site. -/
theorem handsOver_site {s : State} {n : Nat} {a : ArrayStep} (hstep : (siteGet s n).step = some a) (hcomplete : stepPhases a ≤ a.sweeps.length) :
    (siteGet (handsOver n s) n).lastTier = some (a.array.val % 8) ∧ (siteGet (handsOver n s) n).nextStep = none ∧
    (siteGet (handsOver n s) n).satData = (siteGet s n).satData ∧ (siteGet (handsOver n s) n).satRef = (siteGet s n).satRef := by
  have hkept : SiteKept n (siteMod s n (handedOver a)) (handsOver n s) := by
    rw [handsOver_eq hstep hcomplete]
    exact (takeStep_siteKept _ a _ n).trans (settleDiagnosis_siteKept _ n n)
  obtain ⟨htier, hnext, hdata, href⟩ := handedOver_leaves a (siteGet s n)
  rw [← siteGet_siteMod s n (handedOver a)] at htier hnext hdata href
  exact ⟨hkept.lastTier.trans htier, hkept.nextStep hnext, hkept.satData.trans hdata, hkept.satRef.trans href⟩

/-! ### The guard (R95, R96) -/

/-- The first expiry in a plan step counts one, which takes no array out. -/
theorem countGuard_first {g step : Nat} {l : List (Nat × Nat × Nat)} (h : l.find? (fun e => decide (e.1 = g ∧ e.2.1 = step)) = none) :
    countGuard g step l = (g, step, 1) :: l.filter (fun e => e.1 ≠ g) ∧
    (countGuard g step l).any (fun e => decide (e.1 = g ∧ 2 ≤ e.2.2)) = false := by
  have hcount : countGuard g step l = (g, step, 1) :: l.filter (fun e => e.1 ≠ g) := by
    unfold countGuard
    rw [h]
    rfl
  refine ⟨hcount, ?_⟩
  rw [hcount, List.any_cons, Bool.or_eq_false_iff]
  refine ⟨by simp, List.any_eq_false.mpr fun e he => ?_⟩
  have hother := (List.mem_filter.mp he).2
  simp only [ne_eq, decide_not, Bool.not_eq_eq_eq_not, Bool.not_true, decide_eq_false_iff_not] at hother
  simp [hother]

/-- A further expiry in the plan step takes the array out. -/
theorem countGuard_again {g step : Nat} {l : List (Nat × Nat × Nat)} {e : Nat × Nat × Nat}
    (h : l.find? (fun e => decide (e.1 = g ∧ e.2.1 = step)) = some e) (hone : 1 ≤ e.2.2) :
    (countGuard g step l).any (fun e => decide (e.1 = g ∧ 2 ≤ e.2.2)) = true := by
  unfold countGuard
  rw [h, List.any_cons]
  simp [hone]

section
variable {s : State} {n : Nat} {a : ArrayStep}

/-- The guard of the step a site works on. -/
theorem guardExpires_current (hstep : (siteGet s n).step = some a) (hdriving : a.driving = true) : guardExpires n s =
    if (countGuard a.key.lane.val (laneStepNo s a.key.lane.val) (siteGet s n).guards).any (fun e =>
        decide (e.1 = a.key.lane.val ∧ 2 ≤ e.2.2)) then
      reportOf (quarantineArray (siteSet s n { siteGet s n with
        guards := countGuard a.key.lane.val (laneStepNo s a.key.lane.val) (siteGet s n).guards, step := some (guardCloses true a) }) a.array.val)
        0x07 3 (siteUid n 0) (leBytes 1 2) 0 (opOf s a.key.lane.val a.key.node)
    else siteSet s n { siteGet s n with
      guards := countGuard a.key.lane.val (laneStepNo s a.key.lane.val) (siteGet s n).guards, step := some (guardCloses true a) } := by
  unfold guardExpires
  dsimp only
  rw [hstep]
  dsimp only [Option.bind_some]
  rw [if_pos hdriving]
  dsimp only [Option.orElse_eq_orElse, Option.orElse]
  unfold siteMod
  dsimp only
  rw [hstep]
  simp only [Option.bind_some, Option.map_some, if_pos hdriving, Option.isSome_some, if_true]

/-- The guard of a step that waits behind another. -/
theorem guardExpires_next {b : ArrayStep} (hstep : (siteGet s n).step = some a) (hdone : a.driving = false)
    (hnext : (siteGet s n).nextStep = some b) (hdriving : b.driving = true)
    (hfirst : (siteGet s n).guards.find? (fun e => decide (e.1 = b.key.lane.val ∧ e.2.1 = laneStepNo s b.key.lane.val)) = none) :
    guardExpires n s = siteSet s n { siteGet s n with
      guards := (b.key.lane.val, laneStepNo s b.key.lane.val, 1) :: (siteGet s n).guards.filter (fun e => e.1 ≠ b.key.lane.val)
      nextStep := some (guardCloses false b) } := by
  obtain ⟨hcount, hfew⟩ := countGuard_first hfirst
  unfold guardExpires
  dsimp only
  rw [hstep, hnext]
  dsimp only [Option.bind_some]
  rw [if_neg (by simp [hdone]), if_pos hdriving]
  dsimp only [Option.orElse_eq_orElse, Option.orElse]
  rw [if_neg (by rw [hfew]; decide), hcount]
  unfold siteMod
  dsimp only
  rw [hstep, hnext]
  dsimp only [Option.bind_some, Option.map_some]
  rw [if_neg (by simp [hdone])]

/-! ### Sweeps (R98, R104, R108) -/

theorem hostRuns_notHost {x : Site} (h : isHost x.activity = false) : hostRuns x = false := by
  simp [hostRuns, h]

theorem hostRuns_begun {x : Site} (h : hostRuns x = true) : x.waits = false := by
  unfold hostRuns at h
  simp only [Bool.and_eq_true, Bool.not_eq_eq_eq_not, Bool.not_true] at h
  exact h.1.1.2

/-- A site without a continuous run has its sweep's end from what it works on. -/
theorem sweepEnds_notHost (charges : List Int) (h : isHost (siteGet s n).activity = false) : sweepEnds n charges s =
    if isDiagnosing (siteGet s n).activity then siteMod s n (diagSwept charges) else siteMod s n (stepSwept charges) := by
  have hactivity : (if (siteGet s n).waits ∧ mayWork s n (siteGet s n).activity then { siteGet s n with waits := false } else siteGet s n).activity =
      (siteGet s n).activity := by
    split <;> rfl
  unfold sweepEnds
  dsimp only
  rw [hostRuns_notHost (by rw [hactivity]; exact h), hactivity]
  rfl

/-- A continuous run's sweep is kept; a halted run ends with it. -/
theorem sweepEnds_host (charges : List Int) (h : hostRuns (siteGet s n) = true) : sweepEnds n charges s =
    if (siteGet s n).halting then
      reloadSite (siteSet s n (hostSwept (arrGet s (8 * n + fld (siteGet s n).control.toNat 29 27)) charges (siteGet s n))) n
    else siteSet s n (hostSwept (arrGet s (8 * n + fld (siteGet s n).control.toNat 29 27)) charges (siteGet s n)) := by
  have hbegun := hostRuns_begun h
  unfold sweepEnds
  dsimp only
  rw [if_neg (by simp [hbegun] : ¬ ((siteGet s n).waits = true ∧ _)), if_pos h]
  rfl

theorem setDiagWords_frame (x : Site) : setDiagWords x = { x with
    control := (setDiagWords x).control, dac := (setDiagWords x).dac, dacNow := (setDiagWords x).dacNow, entries := (setDiagWords x).entries } := by
  unfold setDiagWords
  split <;> rfl

/-- A sweep of a diagnosis: its readings and its saturated conversions join. -/
theorem diagSwept_leaves {x : Site} {w : DiagSweep} (charges : List Int) (h : diagSweep x.readings x.tested = some w) :
    (diagSwept charges x).tested = x.tested + 1 ∧ (diagSwept charges x).readings = addSweep x.readings w (diagCodes w charges) ∧
    (diagSwept charges x).satData = satAdd32 x.satData ((diagCodes w charges).filter (fun e => e.2.2)).length := by
  have hcount : (saturations ((diagCodes w charges).map (fun e => (e.1, e.2.2))) (fun _ => false)).1 =
      ((diagCodes w charges).filter (fun e => e.2.2)).length := by
    unfold saturations
    rw [List.filter_map, List.length_map]
    refine congrArg List.length (List.filter_congr fun e _ => ?_)
    simp
  unfold diagSwept
  rw [h]
  dsimp only
  rw [setDiagWords_frame]
  dsimp only [countSat]
  rw [hcount]
  exact ⟨rfl, rfl, rfl⟩

end

/-- Settles O44: each event of an array step changes the site's step alone; the handover gives its results to the layer step. -/
theorem arrayStepsAtASite : Obligations.ArrayStepsAtASite := by
  intro n s x hx
  subst hx
  refine ⟨fun i k base hk hbase hsite hin hrun halive hnew => ?opens, fun i k base p t l a row hk hbase hp hsite hin hrun halive hnew ht hl hnarrow
      hdone hnext hlayer hfree hdiagnose hstarting hstep hfires => ?begins,
    fun a hstep => ⟨fun hmore hbegun => ?drives, fun hdriving => ?driven, fun harmed => ?triggers, fun charges hhost hdiag hsweeping hlen => ?swept,
      fun hdriving hfirst => ?guard, fun e hdriving hagain hone => ?out, fun hcomplete => ?hands⟩,
    fun a b hstep hdone hnext hdriving hfirst => ?next, fun charges hruns => ?host, fun charges w hdiag hw => ?diagnosis,
    fun t hhost hmode hset hlimit => ?limit⟩
  case opens =>
    subst hk
    obtain ⟨l, hl, hinputs, hreplica, hdone⟩ := openLayerStep_opens (r := replicaAt base n.val) (p := onReplica base (replicaAt base n.val))
      (xs := layerInput s { lane := i.lane, node := i.node, seq := i.seq, token := i.token } i.values) hnew
    have hdrive := driveFirst_opens rfl hbase hsite hin hrun halive hnew hl
    have hkey := stepGet_key hl
    have hkept : StepKept { lane := i.lane, node := i.node, seq := i.seq, token := i.token }
        (openLayerStep s { lane := i.lane, node := i.node, seq := i.seq, token := i.token } (replicaAt base n.val)
          (onReplica base (replicaAt base n.val)) (layerInput s { lane := i.lane, node := i.node, seq := i.seq, token := i.token } i.values))
        (driveFirst n.val i s) := by
      rw [hdrive]
      split
      · exact .of_same rfl
      · rw [← hkey]
        exact driveArray_kept n.val _ l _
    obtain ⟨l', hl', hinputs', hreplica', hdone'⟩ := hkept l hl
    exact ⟨_, l', rfl, hl', hinputs'.trans hinputs, hreplica'.trans hreplica, hdone'.trans hdone⟩
  case begins =>
    subst hk hp
    have hsites : t.sites = s.sites := by
      rw [ht] at hl ⊢
      exact openLayerStep_sites hbase hnew hl hnarrow
    have hsame : siteGet t n.val = siteGet s n.val := by
      unfold siteGet
      rw [hsites]
    have hkey := stepGet_key hl
    rw [← hsame] at hfree hdiagnose hstarting hstep
    have hbegins := driveArray_begins hnext (by rw [hkey]; exact hlayer) hfree hdiagnose hstarting hstep hfires
    have hdrive := driveFirst_opens rfl hbase hsite hin hrun halive hnew (by rw [← ht]; exact hl)
    rw [if_neg (by simp [hnarrow, hdone]), ← ht] at hdrive
    exact ⟨_, congrArg Host.Outcome.next hdrive, hbegins⟩
  case drives =>
    refine congrArg Host.Outcome.next (?_ : driveNext n.val s = _)
    unfold driveNext siteMod
    dsimp only
    rw [hstep]
    dsimp only
    rw [if_pos ⟨hmore, hbegun⟩]
  case driven =>
    refine congrArg Host.Outcome.next (?_ : driveEnds n.val s = _)
    unfold driveEnds siteMod
    dsimp only
    rw [hstep]
    exact congrArg (siteSet s n.val) (if_pos hdriving)
  case triggers =>
    refine congrArg Host.Outcome.next (?_ : triggers n.val s = _)
    unfold triggers siteMod
    dsimp only
    rw [hstep, Option.map_some, if_pos harmed]
  case swept =>
    refine congrArg Host.Outcome.next (?_ : sweepEnds n.val charges s = _)
    rw [sweepEnds_notHost charges hhost, if_neg (by simp [hdiag])]
    unfold siteMod stepSwept
    rw [hstep]
    dsimp only
    rw [if_pos ⟨hsweeping, hlen⟩]
    rfl
  case guard =>
    obtain ⟨hcount, hfew⟩ := countGuard_first hfirst
    refine congrArg Host.Outcome.next (?_ : guardExpires n.val s = _)
    rw [guardExpires_current hstep hdriving, hfew, hcount]
    rfl
  case out =>
    have hsteady : Steady s (guardExpires n.val s) := guardExpires_steady
    refine ⟨_, rfl, hsteady.fuses, ?_⟩
    rw [guardExpires_current hstep hdriving, countGuard_again hagain hone, if_pos rfl]
    unfold arrGet
    rw [reportOf_arrays]
    change (arrGet (quarantineArray _ _) _).state = _ ∨ _
    rw [quarantineArray_arrGet]
    exact quarantined_state (arrGet s a.array.val)
  case hands =>
    obtain ⟨htier, hnone, hdata, href⟩ := handsOver_site hstep hcomplete
    refine ⟨_, rfl, htier, hnone, hdata, href, fun p l hp hl hwide hdone => ⟨fun hin hfew => ?_, fun hexpired => ?_⟩⟩
    · have htakes := takeStep_takes (s := siteMod s n.val (handedOver a)) hp hl hwide hdone hin hfew
      rw [handsOver_eq hstep hcomplete, settleDiagnosis_frame]
      exact htakes
    · rw [handsOver_eq hstep hcomplete, takeStep_expired (s := siteMod s n.val (handedOver a)) hp hl hwide hdone _ hexpired]
      rfl
  case next => exact congrArg Host.Outcome.next (guardExpires_next hstep hdone hnext hdriving hfirst)
  case host =>
    refine ⟨fun hgoes => ?_, fun hhalts => ?_⟩
    · exact congrArg Host.Outcome.next ((sweepEnds_host charges hruns).trans (if_neg (by simp [hgoes])))
    · exact congrArg Host.Outcome.next ((sweepEnds_host charges hruns).trans (if_pos hhalts))
  case diagnosis =>
    have hhost : isHost (siteGet s n.val).activity = false := by
      cases hactivity : (siteGet s n.val).activity with
      | host t =>
        rw [hactivity] at hdiag
        cases hdiag
      | _ => rfl
    obtain ⟨htested, hreadings, hcounts⟩ := diagSwept_leaves charges hw
    exact ⟨diagSwept charges (siteGet s n.val), congrArg Host.Outcome.next ((sweepEnds_notHost charges hhost).trans (if_pos hdiag)), htested,
      hreadings, hcounts⟩
  case limit =>
    refine congrArg Host.Outcome.next (?_ : sweepLimit n.val s = _)
    unfold sweepLimit siteMod
    dsimp only
    rw [hhost]
    exact congrArg (siteSet s n.val) (if_pos ⟨hmode, hset, hlimit⟩)

end Sys2Proof.Proofs
end
